-- ==== Sys2Proof/Word.lean ====
section
/-! DEFINITION. The word types of the Ixavo 9 (00 R5) and their plainest arithmetic. -/

namespace Sys2Proof

/-- A register, address or dword of 64 bits. -/
abbrev Word := BitVec 64

/-- A byte of memory. -/
abbrev Byte := BitVec 8

/-- A register number x0 to x127 as a 7-bit field names it. -/
abbrev Reg := BitVec 7

/-- A memory in canonical form: address and byte pairs (Host.Cell is the same pair type). -/
abbrev Cells := List (Nat × BitVec 8)

end Sys2Proof
end

