-- ==== Sys2Proof/Config.lean ====
section
/-! DEFINITION. What the WX-IXV9-768 fixes (00 R1, 01 R20, R35), what the model chooses once, and the free values: opaque
constants without a body, of which nothing can be computed or proved. -/

namespace Sys2Proof.Config

/-- Compute dies (00 R1). -/
def dies : Nat := 8

/-- M-cores of a die; cores 0 to 79 are M-cores (00 R1). -/
def mCores : Nat := 80

/-- S-cores of a die; cores 80 to 95 are S-cores (00 R1). -/
def sCores : Nat := 16

/-- Slices of a die (00 R1). -/
def slices : Nat := 1024

/-- Bytes of a slice (00 R1). -/
def sliceBytes : Nat := 65536

/-- Bytes of near DRAM of a die (00 R1). -/
def nearBytes : Nat := 51539607552

/-- Nominal clock and droop floor in MHz (00 R1, R2). -/
def nominalMHz : Nat := 1600

def floorMHz : Nat := 1200

/-- The part code and ISA level that DEVID shows (13 R276). -/
def devId : Word := 0x10768

/-- The byte that memory holds where nothing has been written (log 1). -/
def blankByte : Byte := 0

/-- Latencies of 01 R35 in quadrant cycles; they order completions and affect no result (log 3). -/
def latDiv : Nat := 18

def latSpecial : Nat := 12

def latRoot : Nat := 24

def latLoad : Nat := 140

def latEngine : Nat := 400

def latMma : Nat := 24

/-- Cycles that the fill of an instruction line takes: the spec gives a figure only as an example's assumption (log 3). -/
def latFill : Nat := 500

/-- Quadrant cycles after which a pending target is formed (01 R28). -/
def formCycles : Nat := 512

/-- A value the spec leaves open; n is the state's freeCount (log 7). -/
opaque freeWord : Nat → Word

/-- The home slice of a 128-byte line of physical memory (04 R78, log 7); taken modulo the slices of the device. -/
opaque homeSlice : Nat → Nat

/-- The page of near DRAM that the n-th draw from the pool gives (15 R324, log 19); taken modulo the pages of a die. -/
opaque poolPage : Nat → Nat

/-- Whether the pool still has room at the n-th draw for a load (19 R392 step 8, log 19). -/
opaque poolRoom : Nat → Bool

/-- The routing between fabric ids that firmware loads at bring-up (18 R374, 19 R401, log 95): the link that leads to an id. -/
opaque routes : List (BitVec 12 × Nat)

/-- The bank that a region of a die lies in under the hash after so many removals (17 R369, log 22): of die, count and region. -/
opaque dramBank : Nat → Nat → Nat → Nat

/-- Bytes of near DRAM that cannot be read at the n-th look (17 R369, log 22). -/
opaque unreadable : Nat → List Nat

/-- What was generated at manufacture for tree k of the identity key (19 R400, log 9): its identifier, and the start of chain i of
leaf q; and what it draws for its n-th signature. -/
opaque identityId : Nat → List Byte

opaque identitySeed : Nat → Nat → Nat → List Byte

opaque identityRandom : Nat → List Byte

end Sys2Proof.Config
end

