-- ==== Sys2Proof/Syntax.lean ====
section
/-! DEFINITION. The syntax of the Ixavo 9's steps: the prefix, the arguments of event rows, and Instr, one constructor per
row of the opcode table. Fields stand as the encoding holds them (06 R124, R125); WellFormed.lean says which values are
instructions. -/

namespace Sys2Proof

/-- The prefix word's fields (06 R132). -/
structure Pfx where
  mask : BitVec 3
  rm : BitVec 3
  zero : Bool
  rc : Reg
  fec : Bool
  sat : Bool
  sk : Bool
  guard : BitVec 4
deriving DecidableEq, Repr

/-- The arrays whose banks can be retired (17 R365, R366). -/
inductive BankArray where
  | regs | scratch | acc | l1 | slice
deriving DecidableEq, Repr

/-- What stores bytes of memory at the time: a dirty line in a bank of a first-level cache, a slice, a bank of near DRAM, or far
memory. -/
inductive MemBank where
  | dirtyLine (die core bank : Nat) | slice (die n : Nat) | near (die bank : Nat) | far
deriving DecidableEq, Repr

/-- Where an error is consumed or scrubbed (17 R353). -/
inductive ErrSite where
  /-- Private storage of a block in one bank: register file, scratchpad or accumulator store. -/
  | block (blk : Nat) (arr : BankArray) (bank : Nat)
  /-- Private storage of a block outside the banks: its spawn area, or its words in the varnish buffer. -/
  | ownStore (blk : Nat)
  /-- An instruction cache line, or a clean line in a bank of a first-level cache. -/
  | cleanLine (die core : Nat) (bank : Option Nat)
  /-- Bytes of an aligned 8-byte unit of memory from a physical address: dirty cache bytes, a slice in cache mode, near DRAM
  or far memory. -/
  | memory (pa len : Nat) (bank : MemBank)
  /-- Bytes of an aligned 8-byte unit of an atelier slice, from a byte index in the atelier store. -/
  | atelier (idx len : Nat)
  /-- A pentimento in the reserve. -/
  | pentimento (blk : Nat)
  /-- A page-table entry, by physical address. -/
  | pageTable (pa : Nat)
deriving DecidableEq, Repr

/-- The two register pages the host reaches (13 R275), and the HDM decoder's base of the physical function (18 R372). -/
inductive RegSpace where
  | dev
  | part (p : Nat)
  | hdm
deriving DecidableEq, Repr

/-- How a frame of the PTP protocol passes a link (18 R385): received; or sent, with its time inserted on egress, or with its time
kept for the message that follows. -/
inductive PtpWay where
  | received | oneStep | twoStep
deriving DecidableEq, Repr

/-- A frame that a link brings, and whether its frame check sequence is good (18 R386). -/
structure RxFrame where
  bytes : List Byte
  fcsOk : Bool
deriving DecidableEq, Repr

/-- A frame of the PTP protocol at a link: how it passes, its bytes, and, of a received one, whether its frame check sequence is
good (18 R385, R386). -/
structure PtpPassing where
  way : PtpWay
  bytes : List Byte
  fcsOk : Bool
deriving DecidableEq, Repr

/-- A flit error on a link: a flit replayed from the sender's replay buffer, or one received with a bad CRC (18 R374). -/
inductive FlitError where
  | replayed (link : Nat) | badCrc (link : Nat)
deriving DecidableEq, Repr

/-- What a request from another device asks for (18 R377 to R379). -/
inductive RemoteKind where
  | put (addr : Word) (data : List Byte)
  | get (addr : Word) (len : Nat)
  | atomic (aop : BitVec 4) (width : Nat) (addr v q : Word)
deriving DecidableEq, Repr

/-- A fabric request arriving at this device. -/
structure RemoteReq where
  part : Nat
  src : BitVec 12
  seq : BitVec 32
  ctx : Nat
  kind : RemoteKind
deriving DecidableEq, Repr

/-- A response arriving for one of this device's own requests: the engine operation, whether it was performed, the old
value of an ATOMIC and the bytes of a GET. -/
structure RemoteResp where
  op : Nat
  done : Bool
  old : Word
  data : List Byte
deriving DecidableEq, Repr

/-- The parameters that must match over the members of a reduction (18 R381). -/
structure ReduceKey where
  op : BitVec 8
  sfmt : BitVec 8
  dfmt : BitVec 8
  q : BitVec 8
  len : Nat
  mean : Bool
  root : Nat
deriving DecidableEq, Repr

/-- One member's contribution as it reaches the root: a 128-bit value per element, as an integer, with its NAN and OVR marks
(18 R381). -/
structure Contribution where
  part : Nat
  group : Nat
  step : Nat
  rank : Nat
  key : ReduceKey
  vals : List (Int × Bool × Bool)
deriving DecidableEq, Repr

/-- One constructor per row of the opcode table. An instruction constructor holds its encoding's fields, in the order the
row lists them, and its prefix where 06 R133 lets it carry one. An event constructor names the unit it acts on. -/
inductive Instr where
  /-- ADD (R149): Adds two registers, wrapping or saturating to i64. -/
  | add (p : Option Pfx) (rd : Reg) (ra : Reg) (rb : Reg) (fea : Bool) (feb : Bool)
  /-- SUB (R149): Subtracts rb from ra, wrapping or saturating to i64. -/
  | sub (p : Option Pfx) (rd : Reg) (ra : Reg) (rb : Reg) (fea : Bool) (feb : Bool)
  /-- AND (R149): Bitwise AND of two registers. -/
  | and (p : Option Pfx) (rd : Reg) (ra : Reg) (rb : Reg) (fea : Bool) (feb : Bool)
  /-- OR (R149): Bitwise OR of two registers. -/
  | or (p : Option Pfx) (rd : Reg) (ra : Reg) (rb : Reg) (fea : Bool) (feb : Bool)
  /-- XOR (R149): Bitwise XOR of two registers. -/
  | xor (p : Option Pfx) (rd : Reg) (ra : Reg) (rb : Reg) (fea : Bool) (feb : Bool)
  /-- ANDN (R149): ra AND NOT rb. -/
  | andn (p : Option Pfx) (rd : Reg) (ra : Reg) (rb : Reg) (fea : Bool) (feb : Bool)
  /-- SHL (R149): Shifts left by rb[5:0], wrapping or saturating. -/
  | shl (p : Option Pfx) (rd : Reg) (ra : Reg) (rb : Reg) (fea : Bool) (feb : Bool)
  /-- SHR (R149): Logical shift right by rb[5:0]. -/
  | shr (p : Option Pfx) (rd : Reg) (ra : Reg) (rb : Reg) (fea : Bool) (feb : Bool)
  /-- SRA (R149): Arithmetic shift right by rb[5:0]. -/
  | sra (p : Option Pfx) (rd : Reg) (ra : Reg) (rb : Reg) (fea : Bool) (feb : Bool)
  /-- ROT (R149): Rotates ra right by rb[5:0] bits. -/
  | rot (p : Option Pfx) (rd : Reg) (ra : Reg) (rb : Reg) (fea : Bool) (feb : Bool)
  /-- MIN (R149): Signed minimum of two registers. -/
  | min (p : Option Pfx) (rd : Reg) (ra : Reg) (rb : Reg) (fea : Bool) (feb : Bool)
  /-- MAX (R149): Signed maximum of two registers. -/
  | max (p : Option Pfx) (rd : Reg) (ra : Reg) (rb : Reg) (fea : Bool) (feb : Bool)
  /-- MINN (R149): Unsigned minimum of two registers. -/
  | minn (p : Option Pfx) (rd : Reg) (ra : Reg) (rb : Reg) (fea : Bool) (feb : Bool)
  /-- MAXN (R149): Unsigned maximum of two registers. -/
  | maxn (p : Option Pfx) (rd : Reg) (ra : Reg) (rb : Reg) (fea : Bool) (feb : Bool)
  /-- SLT (R149): Sets 1 if ra is signed-less than rb. -/
  | slt (p : Option Pfx) (rd : Reg) (ra : Reg) (rb : Reg) (fea : Bool) (feb : Bool)
  /-- MUL (R150): Low 64 bits of the signed product, or saturated. -/
  | mul (p : Option Pfx) (rd : Reg) (ra : Reg) (rb : Reg) (fea : Bool) (feb : Bool)
  /-- MULH (R150): High half of the 128-bit signed product. -/
  | mulh (p : Option Pfx) (rd : Reg) (ra : Reg) (rb : Reg) (fea : Bool) (feb : Bool)
  /-- MULHN (R150): High half of the 128-bit unsigned product. -/
  | mulhn (p : Option Pfx) (rd : Reg) (ra : Reg) (rb : Reg) (fea : Bool) (feb : Bool)
  /-- DIV (R151): Signed division truncating toward zero, as a long-latency producer. -/
  | div (p : Option Pfx) (rd : Reg) (ra : Reg) (rb : Reg) (fea : Bool) (feb : Bool)
  /-- DIVN (R151): Unsigned division, as a long-latency producer. -/
  | divn (p : Option Pfx) (rd : Reg) (ra : Reg) (rb : Reg) (fea : Bool) (feb : Bool)
  /-- REM (R151): Signed remainder with the sign of the dividend. -/
  | rem (p : Option Pfx) (rd : Reg) (ra : Reg) (rb : Reg) (fea : Bool) (feb : Bool)
  /-- REMN (R151): Unsigned remainder. -/
  | remn (p : Option Pfx) (rd : Reg) (ra : Reg) (rb : Reg) (fea : Bool) (feb : Bool)
  /-- SLTN (R150): Sets 1 if ra is unsigned-less than rb. -/
  | sltn (p : Option Pfx) (rd : Reg) (ra : Reg) (rb : Reg) (fea : Bool) (feb : Bool)
  /-- CLZ (R150): Counts leading zero bits. -/
  | clz (p : Option Pfx) (rd : Reg) (ra : Reg) (fea : Bool)
  /-- CTZ (R150): Counts trailing zero bits. -/
  | ctz (p : Option Pfx) (rd : Reg) (ra : Reg) (fea : Bool)
  /-- POPC (R150): Counts one bits. -/
  | popc (p : Option Pfx) (rd : Reg) (ra : Reg) (fea : Bool)
  /-- BREV (R150): Reverses the bit order. -/
  | brev (p : Option Pfx) (rd : Reg) (ra : Reg) (fea : Bool)
  /-- SHLI (R150): Shifts left by an immediate amount. -/
  | shli (p : Option Pfx) (rd : Reg) (ra : Reg) (sh : BitVec 6) (fea : Bool)
  /-- SHRI (R150): Logical shift right by an immediate amount. -/
  | shri (p : Option Pfx) (rd : Reg) (ra : Reg) (sh : BitVec 6) (fea : Bool)
  /-- SRAI (R150): Arithmetic shift right by an immediate amount. -/
  | srai (p : Option Pfx) (rd : Reg) (ra : Reg) (sh : BitVec 6) (fea : Bool)
  /-- SEL (R152): Chooses each byte from ra or rb by a mask register. -/
  | sel (p : Option Pfx) (rd : Reg) (ra : Reg) (rb : Reg) (fea : Bool) (feb : Bool)
  /-- ADDI (R153): Adds a sign-extended 12-bit immediate. -/
  | addi (p : Option Pfx) (rd : Reg) (ra : Reg) (fea : Bool) (imm : BitVec 12)
  /-- ANDI (R153): ANDs with a sign-extended immediate. -/
  | andi (p : Option Pfx) (rd : Reg) (ra : Reg) (fea : Bool) (imm : BitVec 12)
  /-- SLTI (R153): Signed compare with an immediate. -/
  | slti (p : Option Pfx) (rd : Reg) (ra : Reg) (fea : Bool) (imm : BitVec 12)
  /-- SLTNI (R153): Unsigned compare with a sign-extended immediate. -/
  | sltni (p : Option Pfx) (rd : Reg) (ra : Reg) (fea : Bool) (imm : BitVec 12)
  /-- LD (R200): Weak load, sign-extended, as a long-latency producer. -/
  | ld (p : Option Pfx) (rd : Reg) (ra : Reg) (size : BitVec 2) (fe : Bool) (imm : BitVec 10)
  /-- LDZ (R200): Weak load, zero-extended. -/
  | ldz (p : Option Pfx) (rd : Reg) (ra : Reg) (size : BitVec 2) (fe : Bool) (imm : BitVec 10)
  /-- ST (R200): Weak store of the low bytes of rd. -/
  | st (p : Option Pfx) (rd : Reg) (ra : Reg) (size : BitVec 2) (fe : Bool) (imm : BitVec 10)
  /-- BR (R155): Conditional or unconditional PC-relative branch. -/
  | br (ra : Reg) (cond : BitVec 4) (disp : BitVec 16)
  /-- LOOP (R157): Starts a hardware loop level or skips the body for count 0. -/
  | loop (lc : BitVec 2) (ra : Reg) (disp : BitVec 18)
  /-- BRSPAWN (R162): Spawning branch: minority threads may park for team formation. -/
  | brspawn (ra : Reg) (rb : Reg) (cond : BitVec 3) (first : BitVec 6) (cnt : BitVec 4)
  /-- FADD (R178): Floating-point add per element. -/
  | fadd (p : Option Pfx) (rd : Reg) (ra : Reg) (rb : Reg) (fea : Bool) (feb : Bool) (typ : BitVec 2)
  /-- FSUB (R178): Floating-point subtract per element. -/
  | fsub (p : Option Pfx) (rd : Reg) (ra : Reg) (rb : Reg) (fea : Bool) (feb : Bool) (typ : BitVec 2)
  /-- FMUL (R178): Floating-point multiply per element. -/
  | fmul (p : Option Pfx) (rd : Reg) (ra : Reg) (rb : Reg) (fea : Bool) (feb : Bool) (typ : BitVec 2)
  /-- FMA (R179): Fused multiply-add with addend from rd or prefix rc. -/
  | fma (p : Option Pfx) (rd : Reg) (ra : Reg) (rb : Reg) (fea : Bool) (feb : Bool) (typ : BitVec 2)
  /-- FMIN (R180): Floating-point minimum per element. -/
  | fmin (p : Option Pfx) (rd : Reg) (ra : Reg) (rb : Reg) (fea : Bool) (feb : Bool) (typ : BitVec 2)
  /-- FMAX (R180): Floating-point maximum per element. -/
  | fmax (p : Option Pfx) (rd : Reg) (ra : Reg) (rb : Reg) (fea : Bool) (feb : Bool) (typ : BitVec 2)
  /-- FDIV (R178): Floating-point divide per element. -/
  | fdiv (p : Option Pfx) (rd : Reg) (ra : Reg) (rb : Reg) (fea : Bool) (feb : Bool) (typ : BitVec 2)
  /-- FCMPLT (R180): Signalling less-than compare per element. -/
  | fcmplt (p : Option Pfx) (rd : Reg) (ra : Reg) (rb : Reg) (fea : Bool) (feb : Bool) (typ : BitVec 2)
  /-- FCMPEQ (R180): Quiet equality compare per element. -/
  | fcmpeq (p : Option Pfx) (rd : Reg) (ra : Reg) (rb : Reg) (fea : Bool) (feb : Bool) (typ : BitVec 2)
  /-- FCMPLE (R180): Signalling less-or-equal compare per element. -/
  | fcmple (p : Option Pfx) (rd : Reg) (ra : Reg) (rb : Reg) (fea : Bool) (feb : Bool) (typ : BitVec 2)
  /-- FCMPUN (R180): Unordered compare per element. -/
  | fcmpun (p : Option Pfx) (rd : Reg) (ra : Reg) (rb : Reg) (fea : Bool) (feb : Bool) (typ : BitVec 2)
  /-- FCOPYSIGN (R180): Copies the sign bit of rb into ra's elements. -/
  | fcopysign (p : Option Pfx) (rd : Reg) (ra : Reg) (rb : Reg) (fea : Bool) (feb : Bool) (typ : BitVec 2)
  /-- FSQRT (R183): Correctly rounded square root, long-latency. -/
  | fsqrt (p : Option Pfx) (rd : Reg) (ra : Reg) (dst : BitVec 3) (src : BitVec 4) (fea : Bool)
  /-- FRCP (R183): Correctly rounded reciprocal. -/
  | frcp (p : Option Pfx) (rd : Reg) (ra : Reg) (dst : BitVec 3) (src : BitVec 4) (fea : Bool)
  /-- FRSQ (R183): Nearest reciprocal square root. -/
  | frsq (p : Option Pfx) (rd : Reg) (ra : Reg) (dst : BitVec 3) (src : BitVec 4) (fea : Bool)
  /-- FEXP2 (R183): Nearest 2 to the x. -/
  | fexp2 (p : Option Pfx) (rd : Reg) (ra : Reg) (dst : BitVec 3) (src : BitVec 4) (fea : Bool)
  /-- FLOG2 (R183): Nearest base-2 logarithm. -/
  | flog2 (p : Option Pfx) (rd : Reg) (ra : Reg) (dst : BitVec 3) (src : BitVec 4) (fea : Bool)
  /-- FSIN (R183): Nearest sin of pi times x. -/
  | fsin (p : Option Pfx) (rd : Reg) (ra : Reg) (dst : BitVec 3) (src : BitVec 4) (fea : Bool)
  /-- FCOS (R183): Nearest cos of pi times x. -/
  | fcos (p : Option Pfx) (rd : Reg) (ra : Reg) (dst : BitVec 3) (src : BitVec 4) (fea : Bool)
  /-- FTANH (R183): Nearest hyperbolic tangent. -/
  | ftanh (p : Option Pfx) (rd : Reg) (ra : Reg) (dst : BitVec 3) (src : BitVec 4) (fea : Bool)
  /-- FABS (R184): Clears the sign bit of each element. -/
  | fabs (p : Option Pfx) (rd : Reg) (ra : Reg) (dst : BitVec 3) (src : BitVec 4) (fea : Bool)
  /-- FNEG (R184): Inverts the sign bit of each element. -/
  | fneg (p : Option Pfx) (rd : Reg) (ra : Reg) (dst : BitVec 3) (src : BitVec 4) (fea : Bool)
  /-- FCLASS (R184): Writes the class number of each element. -/
  | fclass (p : Option Pfx) (rd : Reg) (ra : Reg) (dst : BitVec 3) (src : BitVec 4) (fea : Bool)
  /-- FROUND (R184): Rounds each element to an integral value. -/
  | fround (p : Option Pfx) (rd : Reg) (ra : Reg) (dst : BitVec 3) (src : BitVec 4) (fea : Bool)
  /-- FCVT (R185): Converts between floating formats. -/
  | fcvt (p : Option Pfx) (rd : Reg) (ra : Reg) (dst : BitVec 3) (src : BitVec 4) (fea : Bool)
  /-- FTOI (R185): Converts floating to integer. -/
  | ftoi (p : Option Pfx) (rd : Reg) (ra : Reg) (dst : BitVec 3) (src : BitVec 4) (fea : Bool)
  /-- ITOF (R185): Converts integer to floating. -/
  | itof (p : Option Pfx) (rd : Reg) (ra : Reg) (dst : BitVec 3) (src : BitVec 4) (fea : Bool)
  /-- FEXPT (R183): Delivers the unbiased exponent exactly. -/
  | fexpt (p : Option Pfx) (rd : Reg) (ra : Reg) (dst : BitVec 3) (src : BitVec 4) (fea : Bool)
  /-- PADD (R187): Packed integer add. -/
  | padd (p : Option Pfx) (rd : Reg) (ra : Reg) (rb : Reg) (fea : Bool) (feb : Bool) (width : BitVec 2)
  /-- PSUB (R187): Packed integer subtract. -/
  | psub (p : Option Pfx) (rd : Reg) (ra : Reg) (rb : Reg) (fea : Bool) (feb : Bool) (width : BitVec 2)
  /-- PMUL (R187): Packed integer multiply. -/
  | pmul (p : Option Pfx) (rd : Reg) (ra : Reg) (rb : Reg) (fea : Bool) (feb : Bool) (width : BitVec 2)
  /-- PMIN (R187): Packed signed minimum. -/
  | pmin (p : Option Pfx) (rd : Reg) (ra : Reg) (rb : Reg) (fea : Bool) (feb : Bool) (width : BitVec 2)
  /-- PMAX (R187): Packed signed maximum. -/
  | pmax (p : Option Pfx) (rd : Reg) (ra : Reg) (rb : Reg) (fea : Bool) (feb : Bool) (width : BitVec 2)
  /-- PAVG (R187): Packed unsigned rounding average. -/
  | pavg (p : Option Pfx) (rd : Reg) (ra : Reg) (rb : Reg) (fea : Bool) (feb : Bool) (width : BitVec 2)
  /-- PCMPEQ (R187): Packed equality compare. -/
  | pcmpeq (p : Option Pfx) (rd : Reg) (ra : Reg) (rb : Reg) (fea : Bool) (feb : Bool) (width : BitVec 2)
  /-- PCMPLT (R187): Packed signed less-than compare. -/
  | pcmplt (p : Option Pfx) (rd : Reg) (ra : Reg) (rb : Reg) (fea : Bool) (feb : Bool) (width : BitVec 2)
  /-- SHFL (R190): Set operation delivering another member's value by register rank. -/
  | shfl (p : Option Pfx) (rd : Reg) (ra : Reg) (rb : Reg) (fea : Bool) (feb : Bool)
  /-- SHFLI (R190): Set operation shuffle by immediate mode and distance. -/
  | shfli (p : Option Pfx) (rd : Reg) (ra : Reg) (mode : BitVec 2) (imm : BitVec 5) (fea : Bool)
  /-- BCAST (R190): Broadcasts a root member's value to the set. -/
  | bcast (p : Option Pfx) (rd : Reg) (ra : Reg) (rb : Reg) (fea : Bool) (feb : Bool)
  /-- GRED (R191): Tree reduction over a set in fixed order. -/
  | gred (p : Option Pfx) (rd : Reg) (ra : Reg) (op : BitVec 3) (typ : BitVec 4) (fea : Bool)
  /-- GSCAN (R191): Left-fold prefix scan over a set. -/
  | gscan (p : Option Pfx) (rd : Reg) (ra : Reg) (op : BitVec 3) (typ : BitVec 4) (fea : Bool)
  /-- VOTE (R192): Any, all, ballot or count over members' predicates. -/
  | vote (p : Option Pfx) (rd : Reg) (ra : Reg) (mode : BitVec 2) (fea : Bool)
  /-- MATCH (R193): Mask of ranks whose key equals the member's own. -/
  | matchKeys (p : Option Pfx) (rd : Reg) (ra : Reg) (byValue : Bool) (typ : BitVec 4) (fea : Bool)
  /-- JOIN (R194): Makes the thread a member of a keyed group. -/
  | join (rd : Reg) (ra : Reg) (fea : Bool)
  /-- LEAVE (R194): Removes the thread from a keyed group. -/
  | leave (ra : Reg) (fea : Bool)
  /-- GRANK (R194): Reads the thread's rank and the member count. -/
  | grank (rd : Reg) (ra : Reg) (fea : Bool)
  /-- XSEND (R195): Writes a value into a rendezvous cell of a target lane. -/
  | xsend (slot : BitVec 4) (ra : Reg) (rb : Reg) (fea : Bool) (feb : Bool)
  /-- XRECV (R195): Claims a rendezvous cell and fills rd when it is full. -/
  | xrecv (rd : Reg) (slot : BitVec 4)
  /-- PSHUF (R196): Permutes the team vector of elements. -/
  | pshuf (p : Option Pfx) (rd : Reg) (ra : Reg) (width : BitVec 2) (fea : Bool)
  /-- PPACK (R198): Narrows elements into one half of rd. -/
  | ppack (p : Option Pfx) (rd : Reg) (ra : Reg) (mode : BitVec 2) (half : Bool) (width : BitVec 2) (fea : Bool)
  /-- PUNPK (R198): Widens elements from one half of ra. -/
  | punpk (p : Option Pfx) (rd : Reg) (ra : Reg) (zx : Bool) (half : Bool) (width : BitVec 2) (fea : Bool)
  /-- SEGRED (R197): Segmented left-fold reduction over the team vector. -/
  | segred (p : Option Pfx) (rd : Reg) (ra : Reg) (op : BitVec 3) (typ : BitVec 4) (fea : Bool)
  /-- LDR (R202): Relaxed strong load at a scope. -/
  | ldr (rd : Reg) (ra : Reg) (zx : Bool) (size : BitVec 2) (scope : BitVec 3) (fea : Bool)
  /-- STR (R202): Relaxed strong store at a scope. -/
  | str (size : BitVec 2) (scope : BitVec 3) (ra : Reg) (rb : Reg) (fea : Bool) (feb : Bool)
  /-- LDA (R202): Acquire load at a scope. -/
  | lda (rd : Reg) (ra : Reg) (zx : Bool) (size : BitVec 2) (scope : BitVec 3) (fea : Bool)
  /-- STL (R202): Release store at a scope. -/
  | stl (size : BitVec 2) (scope : BitVec 3) (ra : Reg) (rb : Reg) (fea : Bool) (feb : Bool)
  /-- FENCE (R204): Acquire and release at a scope, optionally covering UO accesses. -/
  | fence (uo : Bool) (scope : BitVec 3)
  /-- PREF (R205): Hint to bring a data line into the first-level cache. -/
  | pref (ra : Reg) (fea : Bool)
  /-- IPREF (R205): Hint to bring an instruction line into the instruction cache. -/
  | ipref (ra : Reg) (fea : Bool)
  /-- RAGLD (R207): Team ragged load walking a descriptor and writing segment marks. -/
  | ragld (p : Option Pfx) (rd : Reg) (ra : Reg) (width : BitVec 2) (fea : Bool)
  /-- FQPOP (R244): Pops the head cell of the lane's feed-queue column. -/
  | fqpop (rd : Reg) (q : BitVec 2)
  /-- FQPUSH (R244): Appends a value to the lane's feed-queue column. -/
  | fqpush (q : BitVec 2) (ra : Reg) (fea : Bool)
  /-- CWB (R206): Writes back dirty bytes of a cached line to its home slice. -/
  | cwb (ra : Reg) (fea : Bool)
  /-- CINV (R206): Writes back and drops a cached line. -/
  | cinv (ra : Reg) (fea : Bool)
  /-- TILELD (R211): Issues a tile copy into scratchpad, optionally transposing. -/
  | tileld (p : Option Pfx) (rd : Reg) (ra : Reg) (typ : BitVec 2)
  /-- TILEST (R211): Issues a tile copy from scratchpad to memory. -/
  | tilest (p : Option Pfx) (rd : Reg) (ra : Reg)
  /-- COPY (R212): Issues an asynchronous copy of a byte range. -/
  | copy (p : Option Pfx) (rd : Reg) (ra : Reg)
  /-- GATHER (R213): Issues an indexed gather into a contiguous range. -/
  | gather (p : Option Pfx) (rd : Reg) (ra : Reg) (width : BitVec 2)
  /-- COLL (R214): Issues a fabric collective from a descriptor. -/
  | coll (p : Option Pfx) (rd : Reg) (ra : Reg)
  /-- WAITC (R215): Waits until a class counter is at most n, then acquires. -/
  | waitc (nlo : Reg) (nhi : Bool) (cls : BitVec 2)
  /-- AADD (R217): 64-bit atomic add. -/
  | aadd (p : Option Pfx) (rd : Reg) (ra : Reg) (rb : Reg) (scope : BitVec 2)
  /-- AMIN (R217): 64-bit atomic signed minimum. -/
  | amin (p : Option Pfx) (rd : Reg) (ra : Reg) (rb : Reg) (scope : BitVec 2)
  /-- AMAX (R217): 64-bit atomic signed maximum. -/
  | amax (p : Option Pfx) (rd : Reg) (ra : Reg) (rb : Reg) (scope : BitVec 2)
  /-- AMINN (R217): 64-bit atomic unsigned minimum. -/
  | aminn (p : Option Pfx) (rd : Reg) (ra : Reg) (rb : Reg) (scope : BitVec 2)
  /-- AMAXN (R217): 64-bit atomic unsigned maximum. -/
  | amaxn (p : Option Pfx) (rd : Reg) (ra : Reg) (rb : Reg) (scope : BitVec 2)
  /-- AAND (R217): 64-bit atomic AND. -/
  | aand (p : Option Pfx) (rd : Reg) (ra : Reg) (rb : Reg) (scope : BitVec 2)
  /-- AOR (R217): 64-bit atomic OR. -/
  | aor (p : Option Pfx) (rd : Reg) (ra : Reg) (rb : Reg) (scope : BitVec 2)
  /-- AXOR (R217): 64-bit atomic XOR. -/
  | axor (p : Option Pfx) (rd : Reg) (ra : Reg) (rb : Reg) (scope : BitVec 2)
  /-- AXCHG (R217): 64-bit atomic exchange. -/
  | axchg (p : Option Pfx) (rd : Reg) (ra : Reg) (rb : Reg) (scope : BitVec 2)
  /-- ACAS (R217): 64-bit atomic compare and swap. -/
  | acas (p : Option Pfx) (rd : Reg) (ra : Reg) (rb : Reg) (scope : BitVec 2)
  /-- ACASK (R220): 64-bit compare and swap reserving a commission launch; requires a prefix. -/
  | acask (p : Pfx) (rd : Reg) (ra : Reg) (rb : Reg) (scope : BitVec 2)
  /-- AINCW (R217): 64-bit atomic wrapping increment. -/
  | aincw (p : Option Pfx) (rd : Reg) (ra : Reg) (rb : Reg) (scope : BitVec 2)
  /-- AFADD (R217): 64-bit atomic binary64 add. -/
  | afadd (p : Option Pfx) (rd : Reg) (ra : Reg) (rb : Reg) (scope : BitVec 2)
  /-- AFMIN (R217): 64-bit atomic binary64 minimum. -/
  | afmin (p : Option Pfx) (rd : Reg) (ra : Reg) (rb : Reg) (scope : BitVec 2)
  /-- AFMAX (R217): 64-bit atomic binary64 maximum. -/
  | afmax (p : Option Pfx) (rd : Reg) (ra : Reg) (rb : Reg) (scope : BitVec 2)
  /-- AADD_W32 (R217): 32-bit atomic add. -/
  | aaddW32 (p : Option Pfx) (rd : Reg) (ra : Reg) (rb : Reg) (scope : BitVec 2)
  /-- AMIN_W32 (R217): 32-bit atomic signed minimum. -/
  | aminW32 (p : Option Pfx) (rd : Reg) (ra : Reg) (rb : Reg) (scope : BitVec 2)
  /-- AMAX_W32 (R217): 32-bit atomic signed maximum. -/
  | amaxW32 (p : Option Pfx) (rd : Reg) (ra : Reg) (rb : Reg) (scope : BitVec 2)
  /-- AMINN_W32 (R217): 32-bit atomic unsigned minimum. -/
  | aminnW32 (p : Option Pfx) (rd : Reg) (ra : Reg) (rb : Reg) (scope : BitVec 2)
  /-- AMAXN_W32 (R217): 32-bit atomic unsigned maximum. -/
  | amaxnW32 (p : Option Pfx) (rd : Reg) (ra : Reg) (rb : Reg) (scope : BitVec 2)
  /-- AAND_W32 (R217): 32-bit atomic AND. -/
  | aandW32 (p : Option Pfx) (rd : Reg) (ra : Reg) (rb : Reg) (scope : BitVec 2)
  /-- AOR_W32 (R217): 32-bit atomic OR. -/
  | aorW32 (p : Option Pfx) (rd : Reg) (ra : Reg) (rb : Reg) (scope : BitVec 2)
  /-- AXOR_W32 (R217): 32-bit atomic XOR. -/
  | axorW32 (p : Option Pfx) (rd : Reg) (ra : Reg) (rb : Reg) (scope : BitVec 2)
  /-- AXCHG_W32 (R217): 32-bit atomic exchange. -/
  | axchgW32 (p : Option Pfx) (rd : Reg) (ra : Reg) (rb : Reg) (scope : BitVec 2)
  /-- ACAS_W32 (R217): 32-bit atomic compare and swap. -/
  | acasW32 (p : Option Pfx) (rd : Reg) (ra : Reg) (rb : Reg) (scope : BitVec 2)
  /-- ACASK_W32 (R220): 32-bit compare and swap with commission; requires a prefix. -/
  | acaskW32 (p : Pfx) (rd : Reg) (ra : Reg) (rb : Reg) (scope : BitVec 2)
  /-- AINCW_W32 (R217): 32-bit atomic wrapping increment. -/
  | aincwW32 (p : Option Pfx) (rd : Reg) (ra : Reg) (rb : Reg) (scope : BitVec 2)
  /-- AFADD_W32 (R217): 32-bit atomic binary32 add. -/
  | afaddW32 (p : Option Pfx) (rd : Reg) (ra : Reg) (rb : Reg) (scope : BitVec 2)
  /-- AFMIN_W32 (R217): 32-bit atomic binary32 minimum. -/
  | afminW32 (p : Option Pfx) (rd : Reg) (ra : Reg) (rb : Reg) (scope : BitVec 2)
  /-- AFMAX_W32 (R217): 32-bit atomic binary32 maximum. -/
  | afmaxW32 (p : Option Pfx) (rd : Reg) (ra : Reg) (rb : Reg) (scope : BitVec 2)
  /-- MMA (R231): Signs a convergence round; the last signature issues the matrix multiply. -/
  | mma (p : Option Pfx) (acc : BitVec 6) (cv : BitVec 4) (ra : Reg) (rb : Reg) (fmt : BitVec 3)
  /-- CVDECL (R229): Declares the set of a convergence register. -/
  | cvdecl (n : BitVec 4) (ra : Reg) (fea : Bool)
  /-- ACALLOC (R235): Maps a zeroed tile of the reservation to a handle. -/
  | acalloc (n : BitVec 6)
  /-- ACFREE (R235): Unmaps a handle and returns its tile. -/
  | acfree (n : BitVec 6)
  /-- AZERO (R236): Zeroes a mapped tile and marks it uncommitted. -/
  | azero (n : BitVec 6)
  /-- ACOMMIT (R239): Block-collective commit that records the restart snapshot. -/
  | acommit (ra : Reg) (fea : Bool)
  /-- ALOAD (R236): Issues a load of rows from memory into a tile. -/
  | aload (p : Option Pfx) (f64 : Bool) (n : BitVec 6) (ra : Reg) (rb : Reg) (fea : Bool) (feb : Bool)
  /-- ASTORE (R236): Issues a store of tile rows to memory. -/
  | astore (p : Option Pfx) (f64 : Bool) (n : BitVec 6) (ra : Reg) (rb : Reg) (fea : Bool) (feb : Bool)
  /-- SCACC (R237): Folds a scaled partial tile into an accumulator tile. -/
  | scacc (n : BitVec 6) (ra : Reg) (part : BitVec 6)
  /-- AMOVR (R238): Reads a tile dword or handle state into a register. -/
  | amovr (rd : Reg) (n : BitVec 6) (rb : Reg) (feb : Bool)
  /-- BARA (R222): Arrives at a block barrier as a release. -/
  | bara (n : BitVec 6)
  /-- BARW (R222): Waits at a block barrier as an acquire. -/
  | barw (n : BitVec 6)
  /-- BARS (R222): Arrives and waits at a block barrier in one instruction. -/
  | bars (n : BitVec 6)
  /-- CBARA (R222): Arrives at a cluster barrier. -/
  | cbara (n : BitVec 4)
  /-- CBARW (R222): Waits at a cluster barrier. -/
  | cbarw (n : BitVec 4)
  /-- GBARA (R222): Arrives at a grid barrier. -/
  | gbara (n : BitVec 3)
  /-- GBARW (R222): Waits at a grid barrier. -/
  | gbarw (n : BitVec 3)
  /-- GSET (R241): Makes a guard slot PENDING, starting an episode. -/
  | gset (n : BitVec 4)
  /-- GRES (R241): Resolves a guard slot TRUE or FALSE. -/
  | gres (ra : Reg) (n : BitVec 4) (fea : Bool)
  /-- TLAUNCH (R247): Launches a task-graph node from a descriptor. -/
  | tlaunch (rd : Reg) (ra : Reg) (fea : Bool)
  /-- TNEXT (R248): Takes the next range of the block's persistent share. -/
  | tnext (rd : Reg)
  /-- JMPR (R164): Jumps to a register target. -/
  | jmpr (ra : Reg) (fea : Bool)
  /-- CALLR (R164): Calls a register target, writing the link. -/
  | callr (rd : Reg) (ra : Reg) (fea : Bool)
  /-- RET (R164): Returns to a register target. -/
  | ret (ra : Reg) (fea : Bool)
  /-- EXIT (R165): Ends the thread. -/
  | exit
  /-- YIELD (R166): Moves the thread to the youngest picker position. -/
  | yield
  /-- RECONV (R167): Bounded wait for all set members at one RECONV. -/
  | reconv (rd : Reg) (ra : Reg) (rb : Reg) (fea : Bool) (feb : Bool)
  /-- LCSET (R160): Sets the remaining count of an active loop level. -/
  | lcset (lc : BitVec 2) (ra : Reg) (fea : Bool)
  /-- TRAP (R168): Raises trap cause 3 with a value. -/
  | trap (ra : Reg) (fea : Bool)
  /-- RTE (R169): Returns from a trap handler. -/
  | rte (ra : Reg) (fea : Bool)
  /-- BRK (R168): Raises trap cause 2. -/
  | brk
  /-- WINBASE (R170): Sets the register window base. -/
  | winbase (n : BitVec 3)
  /-- SRD (R171): Reads a special register. -/
  | srd (rd : Reg) (n : BitVec 5)
  /-- SWR (R171): Writes a special register. -/
  | swr (ra : Reg) (n : BitVec 5) (fea : Bool)
  /-- CAPQ (R172): Reads the current capacity of a resource. -/
  | capq (rd : Reg) (n : BitVec 4)
  /-- TSTAMP (R173): Reads the PTP clock as a long-latency producer. -/
  | tstamp (rd : Reg)
  /-- UDF (R174): Always meets the illegal-instruction response. -/
  | udf (rd : Reg) (ra : Reg) (rb : Reg) (fea : Bool) (feb : Bool)
  /-- LIH (R154): Loads a shifted 20-bit immediate. -/
  | lih (rd : Reg) (imm : BitVec 20)
  /-- ADDPC (R154): Adds a shifted immediate to the PC. -/
  | addpc (rd : Reg) (imm : BitVec 20)
  /-- CALL (R154): PC-relative call writing a link register. -/
  | call (rd : Reg) (imm : BitVec 20)
  /-- TEAM_FORMATION (R28): The team former forms a team for a pending target once its conditions hold. -/
  | teamFormation (blk : Nat) (slot : Nat)
  /-- TEAM_FORM_TIMEOUT (R28): 512 quadrant cycles after the oldest park, the pending target is formed. -/
  | teamFormTimeout (blk : Nat) (slot : Nat)
  /-- RECONV_TIMEOUT (R29): A waiting member's RECONV limit expires and it receives 0. -/
  | reconvTimeout (blk : Nat) (tid : Nat)
  /-- LONG_LATENCY_COMPLETE (R38): A long-latency producer writes its value and marks its destination full. -/
  | longLatencyComplete (op : Nat)
  /-- ENGINE_COMPLETE (R104): An engine operation completes, fills its token and lowers its counter in issue order. -/
  | engineComplete (op : Nat)
  /-- ICACHE_FILL_COMPLETE (R260): An instruction line fill completes and waiting fetches proceed. -/
  | icacheFillComplete (die : Nat) (core : Nat) (ctx : Nat) (line : Nat)
  /-- PAGE_FAULT_SERVICE (R324): A control core serves a non-present entry by its supplier. -/
  | pageFaultService (req : Nat)
  /-- FAULT_SERVICE_RESUME (R323): After service the block is restored and the faulting instruction runs afresh. -/
  | faultServiceResume (blk : Nat)
  /-- FAULT_RESERVATION_TIMEOUT (R323): After 50 µs of service the block's reservation is released. -/
  | faultReservationTimeout (blk : Nat)
  /-- COMMISSION_LAUNCH (R308): A slice hands a reserved entry to the dispatcher and the commission is placed. -/
  | commissionLaunch (die : Nat) (slice : Nat)
  /-- NOTIFY_WRITE (R290): A write to a queue's notify dword updates the ready tail. -/
  | notifyWrite (part : Nat) (q : Nat) (value : Word)
  /-- QUEUE_MAP (R289): An unmapped queue is mapped by the QMAP function. -/
  | queueMap (part : Nat) (q : Nat)
  /-- PACKET_PARSE (R295): A control core parses a packet to its commit point and checks capabilities. -/
  | packetParse (part : Nat) (q : Nat)
  /-- PACKET_DISPATCH (R299): The dispatcher starts ready work in class order when resources free. -/
  | packetDispatch (part : Nat)
  /-- NOP_PACKET (R298): Does nothing and completes at start. -/
  | nopPacket (part : Nat) (q : Nat)
  /-- LAUNCH_PACKET (R301): Launches a grid by gesso canvases or restores a canvas. -/
  | launchPacket (part : Nat) (q : Nat)
  /-- DEADLINE_PACKET (R299): Launches a grid ordered by its deadline. -/
  | deadlinePacket (part : Nat) (q : Nat)
  /-- GRAPH_PACKET (R298): Accepts a node array into the ready pool. -/
  | graphPacket (part : Nat) (q : Nat)
  /-- COPY_PACKET (R298): Copies a range with system-scope release and acquire. -/
  | copyPacket (part : Nat) (q : Nat)
  /-- SIGNAL_PACKET (R298): Stores or atomically adds at system scope as a release. -/
  | signalPacket (part : Nat) (q : Nat)
  /-- WAIT_PACKET (R298): Holds later packets until a dword meets a condition. -/
  | waitPacket (part : Nat) (q : Nat)
  /-- WAIT_PACKET_TIMEOUT (R298): A WAIT packet reaches its timeout and completes TIMEOUT. -/
  | waitPacketTimeout (part : Nat) (q : Nat)
  /-- INDIRECT_PACKET (R298): Parses a buffer of packets as if in the ring. -/
  | indirectPacket (part : Nat) (q : Nat)
  /-- STAMP_PACKET (R298): Writes the PTP time to memory. -/
  | stampPacket (part : Nat) (q : Nat)
  /-- FENCE_PACKET (R298): Waits for every earlier packet to complete. -/
  | fencePacket (part : Nat) (q : Nat)
  /-- NODE_PLACEMENT (R306): A ready node is placed and its tiles staged. -/
  | nodePlacement (part : Nat)
  /-- EASEL_CAPTURE (R345): The Easel stops a block's threads and engines to capture it. -/
  | easelCapture (blk : Nat)
  /-- COMMIT_WINDOW_CLOSE (R346): The commit window closes by count, time or wait, capturing or rewinding. -/
  | commitWindowClose (blk : Nat)
  /-- CANVAS_WRITE_COMPLETE (R345): The canvas is written, MAGIC released and the reservation freed. -/
  | canvasWriteComplete (blk : Nat)
  /-- CANVAS_RESTORE (R349): A canvas is checked, placed and its state and pending operations restored. -/
  | canvasRestore (part : Nat) (ctx : Nat) (addr : Word)
  /-- PENTIMENTO_COMPLETE (R355): A pentimento image finishes writing at its interval boundary. -/
  | pentimentoComplete (blk : Nat)
  /-- REDUNDANT_COMPARE (R363): Twins compare signatures at a compare point and release or roll back. -/
  | redundantCompare (blk : Nat)
  /-- BANK_RETIRE (R366): A bank is chosen for retirement and starts draining. -/
  | bankRetire (arr : BankArray) (die : Nat) (core : Nat) (bank : Nat)
  /-- BANK_CUTOVER (R367): A drained bank's palette map entry is rewritten to the target. -/
  | bankCutover (arr : BankArray) (die : Nat) (core : Nat) (bank : Nat)
  /-- REGION_MIGRATE (R370): The migration engine moves one region and advances the watermark. -/
  | regionMigrate (die : Nat)
  /-- ASSIST_TIMEOUT (R280): An assist request gets no answer within ATMO. -/
  | assistTimeout (part : Nat) (seq : Nat)
  /-- SHOOTDOWN_COMPLETE (R320): DONE is written as a release when the shoot-down has drained. -/
  | shootdownComplete (part : Nat)
  /-- UNLOAD_COMPLETE (R397): The instance range is unmapped and the count lowered once users end. -/
  | unloadComplete (part : Nat)
  /-- BRING_UP (R401): Power-on or device reset runs the bring-up stages. -/
  | bringUp
  /-- THERMAL_POWER_OFF (R402): 10 ms after a thermal trip the compute dies lose power. -/
  | thermalPowerOff
  /-- REMOTE_REQUEST (R377): A fabric request is performed or refused at the target. -/
  | remoteRequest (req : RemoteReq)
  /-- REMOTE_RETRANSMIT (R379): A request without response is retransmitted after 100 µs. -/
  | remoteRetransmit (op : Nat)
  /-- REMOTE_GIVE_UP (R380): After 2 ms a request ends REFUSED or INDETERMINATE. -/
  | remoteGiveUp (op : Nat)
  /-- QUORUM_TIMEOUT (R383): The quorum timer expires and the step completes short or fails. -/
  | quorumTimeout (group : Nat) (step : Nat)
  /-- UNCORRECTABLE_ERROR (R356): Consumption of an uncorrectable error rolls the block back or poisons bytes. -/
  | uncorrectableError (site : ErrSite)
  /-- SCRUBBER_PASS (R353): The background scrubber corrects or marks errors. -/
  | scrubberPass (site : ErrSite) (correctable : Bool)
  /-- CORE_LOST (R359): A core fails its checks or stops answering and its blocks are re-planted. -/
  | coreLost (die : Nat) (core : Nat)
  /-- DRAM_BANK_REMOVE (R369): A near-DRAM bank is removed and re-striping begins. -/
  | dramBankRemove (die : Nat) (bank : Nat)
  /-- ASSIST_RESPONSE (R280): The host's response to an assist request is taken. -/
  | assistResponse (part : Nat) (seq : Nat) (accept : Bool) (addr : Word)
  /-- PARTITION_GO (R278): GO applies held partition configuration after checks. -/
  | partitionGo (part : Nat)
  /-- PARTITION_RESET (R286): PRST.RST resets a partition. -/
  | partitionReset (part : Nat) (scrub : Bool)
  /-- FUNCTION_LEVEL_RESET (R286): A VF Function Level Reset starts a partition reset. -/
  | functionLevelReset (part : Nat)
  /-- CTX_CREATE (R282): CREATE reads a context record and activates the context. -/
  | ctxCreate (part : Nat) (ctx : Nat)
  /-- CTX_SUSPEND (R282): SUSPEND captures every block of the context. -/
  | ctxSuspend (part : Nat) (ctx : Nat) (expo : Bool)
  /-- CTX_RESUME (R282): RESUME restores the context's canvases. -/
  | ctxResume (part : Nat) (ctx : Nat)
  /-- CTX_DESTROY (R282): DESTROY ends the context and frees it. -/
  | ctxDestroy (part : Nat) (ctx : Nat)
  /-- CTX_CLEARERR (R283): CLEARERR clears masked sticky bits. -/
  | ctxClearerr (part : Nat) (ctx : Nat) (mask : BitVec 8)
  /-- CTX_RELOAD (R282): RELOAD re-reads the record after a shoot-down. -/
  | ctxReload (part : Nat) (ctx : Nat)
  /-- CTX_BAD_OP (R282): A CCMD with an unlisted OP is rejected. -/
  | ctxBadOp (part : Nat) (ctx : Nat) (op : BitVec 4)
  /-- QUEUE_ENABLE (R288): Writing EN 1 enables a queue. -/
  | queueEnable (part : Nat) (q : Nat) (value : Word)
  /-- QUEUE_DISABLE (R288): Writing EN 0 disables a queue and discards unparsed packets. -/
  | queueDisable (part : Nat) (q : Nat) (value : Word)
  /-- QUEUE_RESTART (R288): RESTART moves a stopped queue to UNMAPPED. -/
  | queueRestart (part : Nat) (q : Nat)
  /-- QUEUE_SKIP (R288): RESTART with SKIP completes the head packet and moves HEAD past it. -/
  | queueSkip (part : Nat) (q : Nat)
  /-- SHOOTDOWN (R319): TINVC GO starts a translation shoot-down. -/
  | shootdown (part : Nat) (value : Word)
  /-- OBJ_LOAD (R392): LOAD checks, relocates and maps a code object. -/
  | objLoad (part : Nat) (req : Word)
  /-- OBJ_UNLOAD (R397): UNLOAD refuses new launches of an instance and waits for its users. -/
  | objUnload (part : Nat) (req : Word)
  /-- OBJ_SETSLOT (R398): SETSLOT re-patches an instance's slot values. -/
  | objSetslot (part : Nat) (req : Word)
  /-- OBJ_BAD_OP (R391): An OCMD with an unlisted OP gives RESULT 1. -/
  | objBadOp (part : Nat) (value : Word)
  /-- ATTESTATION_REQUEST (R400): ATREQ makes the device write a signed attestation report. -/
  | attestationRequest (addr : Word)
  /-- PTP_LATCH (R385): LATCH copies the clock into PTPSEC and PTPNS. -/
  | ptpLatch
  /-- PTP_STEP (R385): PTPSTEP adds a signed offset to the clock at one instant. -/
  | ptpStep (offset : Word)
  /-- ISR_WRITE (R285): W1C write clears interrupt status bits. -/
  | isrWrite (part : Nat) (value : Word)
  /-- IMASK_WRITE (R285): IMASK write, sending a pending message once when unmasking. -/
  | imaskWrite (part : Nat) (value : Word)
  /-- FRTAIL_WRITE (R284): Software advances the fault ring tail, ignored when out of range. -/
  | frtailWrite (part : Nat) (value : Word)
  /-- LINK_CONTROL_WRITE (R374): LCTL write enabling a link or setting its mode, refused beyond four Ethernet links. -/
  | linkControlWrite (link : Nat) (value : Word)
  /-- FID_WRITE (R374): FID write, ignored unless every link is disabled. -/
  | fidWrite (value : Word)
  /-- REGISTER_WRITE (R7): Write to a register with no behaviour of its own. -/
  | registerWrite (space : RegSpace) (off : Nat) (value : Word)
  /-- SUPPLY_SAG (R402): A sag sensor stretches its group's clock no lower than the floor. -/
  | supplySag (group : Nat) (mhz : Nat)
  /-- THERMAL_TRIP (R402): Power or temperature cannot be held; THERM is set. -/
  | thermalTrip
  /-- LINK_TRAINING (R374): A fabric link trains and learns its peer. -/
  | linkTraining (link : Nat) (peer : BitVec 12)
  /-- FLIT_REPLAY (R374): A flit failing its CRC is replayed: one that this device sent, or one that it received. -/
  | flitReplay (link : FlitError)
  /-- REMOTE_RESPONSE (R378): A response to a remote operation arrives at the source. -/
  | remoteResponse (resp : RemoteResp)
  /-- REDUCE_CONTRIBUTION (R381): A member's contribution arrives at the root and is summed. -/
  | reduceContribution (con : Contribution)
  /-- INGRESS_FRAME (R387): A received Ethernet frame is stamped and written to a window slot or dropped. -/
  | ingressFrame (link : Nat) (frame : RxFrame)
  /-- PTP_MESSAGE (R385): A PTP frame goes to the control cores. -/
  | ptpMessage (link : Nat) (frame : PtpPassing)
  /-- HOST_MEM_ACCESS (R373): A host CXL.mem access is performed at the home slice. -/
  | hostMemAccess (addr : Nat) (wr : Option (List Byte)) (len : Nat)
  /-- HOST_SNOOP (R372): A host snoop is answered by the line's home slice. -/
  | hostSnoop (addr : Nat)
  /-- LINK_FAILED (R374): A fabric or Ethernet-mode link that is UP loses its peer or its signal and goes to DOWN or FAILED. -/
  | linkFailed (link : Nat) (failed : Bool)
  /-- MODULE_POWER_LIMIT (R402): Firmware lowers the clock, never below the 1.2 GHz floor, when module power reaches the 3,600 W limit. -/
  | modulePowerLimit (mhz : Nat)
deriving DecidableEq, Repr

/-- Is this constructor a step of the device that no instruction word names (an event row)? -/
def Instr.isEvent : Instr → Bool
  | .add .. => false
  | .sub .. => false
  | .and .. => false
  | .or .. => false
  | .xor .. => false
  | .andn .. => false
  | .shl .. => false
  | .shr .. => false
  | .sra .. => false
  | .rot .. => false
  | .min .. => false
  | .max .. => false
  | .minn .. => false
  | .maxn .. => false
  | .slt .. => false
  | .mul .. => false
  | .mulh .. => false
  | .mulhn .. => false
  | .div .. => false
  | .divn .. => false
  | .rem .. => false
  | .remn .. => false
  | .sltn .. => false
  | .clz .. => false
  | .ctz .. => false
  | .popc .. => false
  | .brev .. => false
  | .shli .. => false
  | .shri .. => false
  | .srai .. => false
  | .sel .. => false
  | .addi .. => false
  | .andi .. => false
  | .slti .. => false
  | .sltni .. => false
  | .ld .. => false
  | .ldz .. => false
  | .st .. => false
  | .br .. => false
  | .loop .. => false
  | .brspawn .. => false
  | .fadd .. => false
  | .fsub .. => false
  | .fmul .. => false
  | .fma .. => false
  | .fmin .. => false
  | .fmax .. => false
  | .fdiv .. => false
  | .fcmplt .. => false
  | .fcmpeq .. => false
  | .fcmple .. => false
  | .fcmpun .. => false
  | .fcopysign .. => false
  | .fsqrt .. => false
  | .frcp .. => false
  | .frsq .. => false
  | .fexp2 .. => false
  | .flog2 .. => false
  | .fsin .. => false
  | .fcos .. => false
  | .ftanh .. => false
  | .fabs .. => false
  | .fneg .. => false
  | .fclass .. => false
  | .fround .. => false
  | .fcvt .. => false
  | .ftoi .. => false
  | .itof .. => false
  | .fexpt .. => false
  | .padd .. => false
  | .psub .. => false
  | .pmul .. => false
  | .pmin .. => false
  | .pmax .. => false
  | .pavg .. => false
  | .pcmpeq .. => false
  | .pcmplt .. => false
  | .shfl .. => false
  | .shfli .. => false
  | .bcast .. => false
  | .gred .. => false
  | .gscan .. => false
  | .vote .. => false
  | .matchKeys .. => false
  | .join .. => false
  | .leave .. => false
  | .grank .. => false
  | .xsend .. => false
  | .xrecv .. => false
  | .pshuf .. => false
  | .ppack .. => false
  | .punpk .. => false
  | .segred .. => false
  | .ldr .. => false
  | .str .. => false
  | .lda .. => false
  | .stl .. => false
  | .fence .. => false
  | .pref .. => false
  | .ipref .. => false
  | .ragld .. => false
  | .fqpop .. => false
  | .fqpush .. => false
  | .cwb .. => false
  | .cinv .. => false
  | .tileld .. => false
  | .tilest .. => false
  | .copy .. => false
  | .gather .. => false
  | .coll .. => false
  | .waitc .. => false
  | .aadd .. => false
  | .amin .. => false
  | .amax .. => false
  | .aminn .. => false
  | .amaxn .. => false
  | .aand .. => false
  | .aor .. => false
  | .axor .. => false
  | .axchg .. => false
  | .acas .. => false
  | .acask .. => false
  | .aincw .. => false
  | .afadd .. => false
  | .afmin .. => false
  | .afmax .. => false
  | .aaddW32 .. => false
  | .aminW32 .. => false
  | .amaxW32 .. => false
  | .aminnW32 .. => false
  | .amaxnW32 .. => false
  | .aandW32 .. => false
  | .aorW32 .. => false
  | .axorW32 .. => false
  | .axchgW32 .. => false
  | .acasW32 .. => false
  | .acaskW32 .. => false
  | .aincwW32 .. => false
  | .afaddW32 .. => false
  | .afminW32 .. => false
  | .afmaxW32 .. => false
  | .mma .. => false
  | .cvdecl .. => false
  | .acalloc .. => false
  | .acfree .. => false
  | .azero .. => false
  | .acommit .. => false
  | .aload .. => false
  | .astore .. => false
  | .scacc .. => false
  | .amovr .. => false
  | .bara .. => false
  | .barw .. => false
  | .bars .. => false
  | .cbara .. => false
  | .cbarw .. => false
  | .gbara .. => false
  | .gbarw .. => false
  | .gset .. => false
  | .gres .. => false
  | .tlaunch .. => false
  | .tnext .. => false
  | .jmpr .. => false
  | .callr .. => false
  | .ret .. => false
  | .exit .. => false
  | .yield .. => false
  | .reconv .. => false
  | .lcset .. => false
  | .trap .. => false
  | .rte .. => false
  | .brk .. => false
  | .winbase .. => false
  | .srd .. => false
  | .swr .. => false
  | .capq .. => false
  | .tstamp .. => false
  | .udf .. => false
  | .lih .. => false
  | .addpc .. => false
  | .call .. => false
  | .teamFormation .. => true
  | .teamFormTimeout .. => true
  | .reconvTimeout .. => true
  | .longLatencyComplete .. => true
  | .engineComplete .. => true
  | .icacheFillComplete .. => true
  | .pageFaultService .. => true
  | .faultServiceResume .. => true
  | .faultReservationTimeout .. => true
  | .commissionLaunch .. => true
  | .notifyWrite .. => true
  | .queueMap .. => true
  | .packetParse .. => true
  | .packetDispatch .. => true
  | .nopPacket .. => true
  | .launchPacket .. => true
  | .deadlinePacket .. => true
  | .graphPacket .. => true
  | .copyPacket .. => true
  | .signalPacket .. => true
  | .waitPacket .. => true
  | .waitPacketTimeout .. => true
  | .indirectPacket .. => true
  | .stampPacket .. => true
  | .fencePacket .. => true
  | .nodePlacement .. => true
  | .easelCapture .. => true
  | .commitWindowClose .. => true
  | .canvasWriteComplete .. => true
  | .canvasRestore .. => true
  | .pentimentoComplete .. => true
  | .uncorrectableError .. => true
  | .scrubberPass .. => true
  | .coreLost .. => true
  | .redundantCompare .. => true
  | .bankRetire .. => true
  | .bankCutover .. => true
  | .dramBankRemove .. => true
  | .regionMigrate .. => true
  | .assistResponse .. => true
  | .assistTimeout .. => true
  | .partitionGo .. => true
  | .partitionReset .. => true
  | .functionLevelReset .. => true
  | .ctxCreate .. => true
  | .ctxSuspend .. => true
  | .ctxResume .. => true
  | .ctxDestroy .. => true
  | .ctxClearerr .. => true
  | .ctxReload .. => true
  | .ctxBadOp .. => true
  | .queueEnable .. => true
  | .queueDisable .. => true
  | .queueRestart .. => true
  | .queueSkip .. => true
  | .shootdown .. => true
  | .shootdownComplete .. => true
  | .objLoad .. => true
  | .objUnload .. => true
  | .unloadComplete .. => true
  | .objSetslot .. => true
  | .objBadOp .. => true
  | .attestationRequest .. => true
  | .ptpLatch .. => true
  | .ptpStep .. => true
  | .isrWrite .. => true
  | .imaskWrite .. => true
  | .frtailWrite .. => true
  | .linkControlWrite .. => true
  | .fidWrite .. => true
  | .registerWrite .. => true
  | .bringUp .. => true
  | .supplySag .. => true
  | .thermalTrip .. => true
  | .thermalPowerOff .. => true
  | .linkTraining .. => true
  | .flitReplay .. => true
  | .remoteRequest .. => true
  | .remoteResponse .. => true
  | .remoteRetransmit .. => true
  | .remoteGiveUp .. => true
  | .reduceContribution .. => true
  | .quorumTimeout .. => true
  | .ingressFrame .. => true
  | .ptpMessage .. => true
  | .hostMemAccess .. => true
  | .hostSnoop .. => true
  | .linkFailed .. => true
  | .modulePowerLimit .. => true

end Sys2Proof
end

