-- ==== Sys2Proof/WellFormed.lean ====
section
/-! DEFINITION. Which terms of Instr are instructions: the prefix rules of 06 R133 to R135 and the field rules of 06 R136.
What depends on the state (declared registers, core kind, barriers, mode) is checked when the instruction runs. -/

namespace Sys2Proof

/-- The role of the prefix's mask field (06 R134): none, enabling, or one of the three other roles, where zero must be 0. -/
inductive MaskRole where
  | none | enable | other
deriving DecidableEq, Repr

/-- The prefix fields an instruction accepts (06 R133). -/
structure Accept where
  role : MaskRole := .none
  rm : Bool := false
  sat : Bool := false
  rc : Bool := false
  sk : Bool := false
deriving DecidableEq, Repr

/-- The conditions of 06 R132 and R135 on a prefix in front of an instruction that accepts a. -/
def Pfx.okFor (a : Accept) (p : Pfx) : Bool :=
  p.rm ≠ 5 && p.rm ≠ 6
  && (match a.role with
      | .none => p.mask == 0 && !p.zero
      | .enable => !p.zero || p.mask ≠ 0
      | .other => !p.zero)
  && (a.rm || p.rm == 7)
  && (a.sat || !p.sat)
  && (a.rc || (p.rc == 0 && !p.fec))
  && (a.sk || !p.sk)
  && (p.sk || p.guard == 0)

/-- B format: conditions 0 to 8; 6 and 7 name a mask register, 8 names none (06 R125). -/
def brOk (ra : Reg) (cond : BitVec 4) : Bool :=
  match cond.toNat with
  | 6 | 7 => ra.toNat < 8
  | 8 => ra == 0
  | n => n < 6

/-- First register of a pair: x1 to x126 (06 R125, 10 R248). -/
def pairOk (r : Reg) : Bool := r ≠ 0 && r ≠ 127

/-- The legal operation and type pairs of GRED, GSCAN and SEGRED (08 R191, R197). -/
def groupOpOk (scan : Bool) (op : BitVec 3) (typ : BitVec 4) : Bool :=
  match op.toNat with
  | 0 | 1 | 2 => typ.toNat < 4 || 8 ≤ typ.toNat
  | 3 | 4 | 5 => 8 ≤ typ.toNat
  | 6 => scan && (typ.toNat < 4 || 8 ≤ typ.toNat)
  | _ => false

/-- FUNARY pairings on one of the formats f64, f32, f16, bf16 (08 R181). -/
def arithPair (dst : BitVec 3) (src : BitVec 4) : Bool := src.toNat < 4 && dst.toNat == src.toNat

/-- FUNARY pairings on any floating-point format, source and destination equal (08 R181). -/
def signPair (dst : BitVec 3) (src : BitVec 4) : Bool := src.toNat < 8 && dst.toNat == src.toNat

/-- FCVT: two different floating-point formats (08 R181). -/
def cvtPair (dst : BitVec 3) (src : BitVec 4) : Bool := src.toNat < 8 && dst.toNat ≠ src.toNat

/-- FTOI: any floating-point source (08 R181). -/
def ftoiPair (src : BitVec 4) : Bool := src.toNat < 8

/-- ITOF: any integer source (08 R181). -/
def itofPair (src : BitVec 4) : Bool := 8 ≤ src.toNat

/-- The special registers SRD may name (02 R44). -/
def srReadable (n : Nat) : Bool := n < 14 || (16 ≤ n && n < 19) || (20 ≤ n && n < 24)

/-- The special registers SWR may name: those listed RW (02 R44). -/
def srWritable (n : Nat) : Bool := 20 ≤ n && n < 24

/-- Which prefix fields the instruction accepts (06 R133); none where it accepts no prefix. -/
def Instr.accept : Instr → Option Accept
  | .add .. => some { role := .enable, sat := true }
  | .sub .. => some { role := .enable, sat := true }
  | .and .. => some { role := .enable }
  | .or .. => some { role := .enable }
  | .xor .. => some { role := .enable }
  | .andn .. => some { role := .enable }
  | .shl .. => some { role := .enable, sat := true }
  | .shr .. => some { role := .enable }
  | .sra .. => some { role := .enable }
  | .rot .. => some { role := .enable }
  | .min .. => some { role := .enable }
  | .max .. => some { role := .enable }
  | .minn .. => some { role := .enable }
  | .maxn .. => some { role := .enable }
  | .slt .. => some { role := .enable }
  | .mul .. => some { role := .enable, sat := true }
  | .mulh .. => some { role := .enable }
  | .mulhn .. => some { role := .enable }
  | .div .. => some { role := .enable }
  | .divn .. => some { role := .enable }
  | .rem .. => some { role := .enable }
  | .remn .. => some { role := .enable }
  | .sltn .. => some { role := .enable }
  | .clz .. => some { role := .enable }
  | .ctz .. => some { role := .enable }
  | .popc .. => some { role := .enable }
  | .brev .. => some { role := .enable }
  | .shli .. => some { role := .enable, sat := true }
  | .shri .. => some { role := .enable }
  | .srai .. => some { role := .enable }
  | .sel .. => some { role := .other }
  | .addi .. => some { role := .enable, sat := true }
  | .andi .. => some { role := .enable }
  | .slti .. => some { role := .enable }
  | .sltni .. => some { role := .enable }
  | .ld .. => some { role := .enable }
  | .ldz .. => some { role := .enable }
  | .st .. => some { role := .enable }
  | .br .. => none
  | .loop .. => none
  | .brspawn .. => none
  | .fadd .. => some { role := .enable, rm := true, sat := true }
  | .fsub .. => some { role := .enable, rm := true, sat := true }
  | .fmul .. => some { role := .enable, rm := true, sat := true }
  | .fma .. => some { role := .enable, rm := true, sat := true, rc := true }
  | .fmin .. => some { role := .enable }
  | .fmax .. => some { role := .enable }
  | .fdiv .. => some { role := .enable, rm := true, sat := true }
  | .fcmplt .. => some { role := .enable }
  | .fcmpeq .. => some { role := .enable }
  | .fcmple .. => some { role := .enable }
  | .fcmpun .. => some { role := .enable }
  | .fcopysign .. => some { role := .enable }
  | .fsqrt .. => some { role := .enable, rm := true }
  | .frcp .. => some { role := .enable, rm := true }
  | .frsq .. => some { role := .enable, rm := true }
  | .fexp2 .. => some { role := .enable, rm := true }
  | .flog2 .. => some { role := .enable, rm := true }
  | .fsin .. => some { role := .enable, rm := true }
  | .fcos .. => some { role := .enable, rm := true }
  | .ftanh .. => some { role := .enable, rm := true }
  | .fabs .. => some { role := .enable }
  | .fneg .. => some { role := .enable }
  | .fclass .. => some { role := .enable }
  | .fround .. => some { role := .enable, rm := true }
  | .fcvt .. => some { role := .enable, rm := true, sat := true }
  | .ftoi .. => some { role := .enable, rm := true, sat := true }
  | .itof .. => some { role := .enable, rm := true, sat := true }
  | .fexpt .. => some { role := .enable, rm := true }
  | .padd .. => some { role := .enable, sat := true }
  | .psub .. => some { role := .enable, sat := true }
  | .pmul .. => some { role := .enable, sat := true }
  | .pmin .. => some { role := .enable }
  | .pmax .. => some { role := .enable }
  | .pavg .. => some { role := .enable }
  | .pcmpeq .. => some { role := .enable }
  | .pcmplt .. => some { role := .enable }
  | .shfl .. => some { role := .enable }
  | .shfli .. => some { role := .enable }
  | .bcast .. => some { role := .enable }
  | .gred .. => some { role := .enable, rm := true }
  | .gscan .. => some { role := .enable, rm := true }
  | .vote .. => some { role := .enable }
  | .matchKeys .. => some { role := .enable }
  | .join .. => none
  | .leave .. => none
  | .grank .. => none
  | .xsend .. => none
  | .xrecv .. => none
  | .pshuf .. => some { role := .enable }
  | .ppack .. => some { role := .enable }
  | .punpk .. => some { role := .enable }
  | .segred .. => some { role := .other, rm := true }
  | .ldr .. => none
  | .str .. => none
  | .lda .. => none
  | .stl .. => none
  | .fence .. => none
  | .pref .. => none
  | .ipref .. => none
  | .ragld .. => some { role := .other }
  | .fqpop .. => none
  | .fqpush .. => none
  | .cwb .. => none
  | .cinv .. => none
  | .tileld .. => some { sk := true }
  | .tilest .. => some { sk := true }
  | .copy .. => some { sk := true }
  | .gather .. => some { sk := true }
  | .coll .. => some { sk := true }
  | .waitc .. => none
  | .aadd .. => some { role := .enable }
  | .amin .. => some { role := .enable }
  | .amax .. => some { role := .enable }
  | .aminn .. => some { role := .enable }
  | .amaxn .. => some { role := .enable }
  | .aand .. => some { role := .enable }
  | .aor .. => some { role := .enable }
  | .axor .. => some { role := .enable }
  | .axchg .. => some { role := .enable }
  | .acas .. => some { role := .enable }
  | .acask .. => some { role := .other, rc := true }
  | .aincw .. => some { role := .enable }
  | .afadd .. => some { role := .enable }
  | .afmin .. => some { role := .enable }
  | .afmax .. => some { role := .enable }
  | .aaddW32 .. => some { role := .enable }
  | .aminW32 .. => some { role := .enable }
  | .amaxW32 .. => some { role := .enable }
  | .aminnW32 .. => some { role := .enable }
  | .amaxnW32 .. => some { role := .enable }
  | .aandW32 .. => some { role := .enable }
  | .aorW32 .. => some { role := .enable }
  | .axorW32 .. => some { role := .enable }
  | .axchgW32 .. => some { role := .enable }
  | .acasW32 .. => some { role := .enable }
  | .acaskW32 .. => some { role := .other, rc := true }
  | .aincwW32 .. => some { role := .enable }
  | .afaddW32 .. => some { role := .enable }
  | .afminW32 .. => some { role := .enable }
  | .afmaxW32 .. => some { role := .enable }
  | .mma .. => some { sk := true }
  | .cvdecl .. => none
  | .acalloc .. => none
  | .acfree .. => none
  | .azero .. => none
  | .acommit .. => none
  | .aload .. => some { sk := true }
  | .astore .. => some { sk := true }
  | .scacc .. => none
  | .amovr .. => none
  | .bara .. => none
  | .barw .. => none
  | .bars .. => none
  | .cbara .. => none
  | .cbarw .. => none
  | .gbara .. => none
  | .gbarw .. => none
  | .gset .. => none
  | .gres .. => none
  | .tlaunch .. => none
  | .tnext .. => none
  | .jmpr .. => none
  | .callr .. => none
  | .ret .. => none
  | .exit .. => none
  | .yield .. => none
  | .reconv .. => none
  | .lcset .. => none
  | .trap .. => none
  | .rte .. => none
  | .brk .. => none
  | .winbase .. => none
  | .srd .. => none
  | .swr .. => none
  | .capq .. => none
  | .tstamp .. => none
  | .udf .. => none
  | .lih .. => none
  | .addpc .. => none
  | .call .. => none
  | .teamFormation .. => none
  | .teamFormTimeout .. => none
  | .reconvTimeout .. => none
  | .longLatencyComplete .. => none
  | .engineComplete .. => none
  | .icacheFillComplete .. => none
  | .pageFaultService .. => none
  | .faultServiceResume .. => none
  | .faultReservationTimeout .. => none
  | .commissionLaunch .. => none
  | .notifyWrite .. => none
  | .queueMap .. => none
  | .packetParse .. => none
  | .packetDispatch .. => none
  | .nopPacket .. => none
  | .launchPacket .. => none
  | .deadlinePacket .. => none
  | .graphPacket .. => none
  | .copyPacket .. => none
  | .signalPacket .. => none
  | .waitPacket .. => none
  | .waitPacketTimeout .. => none
  | .indirectPacket .. => none
  | .stampPacket .. => none
  | .fencePacket .. => none
  | .nodePlacement .. => none
  | .easelCapture .. => none
  | .commitWindowClose .. => none
  | .canvasWriteComplete .. => none
  | .canvasRestore .. => none
  | .pentimentoComplete .. => none
  | .uncorrectableError .. => none
  | .scrubberPass .. => none
  | .coreLost .. => none
  | .redundantCompare .. => none
  | .bankRetire .. => none
  | .bankCutover .. => none
  | .dramBankRemove .. => none
  | .regionMigrate .. => none
  | .assistResponse .. => none
  | .assistTimeout .. => none
  | .partitionGo .. => none
  | .partitionReset .. => none
  | .functionLevelReset .. => none
  | .ctxCreate .. => none
  | .ctxSuspend .. => none
  | .ctxResume .. => none
  | .ctxDestroy .. => none
  | .ctxClearerr .. => none
  | .ctxReload .. => none
  | .ctxBadOp .. => none
  | .queueEnable .. => none
  | .queueDisable .. => none
  | .queueRestart .. => none
  | .queueSkip .. => none
  | .shootdown .. => none
  | .shootdownComplete .. => none
  | .objLoad .. => none
  | .objUnload .. => none
  | .unloadComplete .. => none
  | .objSetslot .. => none
  | .objBadOp .. => none
  | .attestationRequest .. => none
  | .ptpLatch .. => none
  | .ptpStep .. => none
  | .isrWrite .. => none
  | .imaskWrite .. => none
  | .frtailWrite .. => none
  | .linkControlWrite .. => none
  | .fidWrite .. => none
  | .registerWrite .. => none
  | .bringUp .. => none
  | .supplySag .. => none
  | .thermalTrip .. => none
  | .thermalPowerOff .. => none
  | .linkTraining .. => none
  | .flitReplay .. => none
  | .remoteRequest .. => none
  | .remoteResponse .. => none
  | .remoteRetransmit .. => none
  | .remoteGiveUp .. => none
  | .reduceContribution .. => none
  | .quorumTimeout .. => none
  | .ingressFrame .. => none
  | .ptpMessage .. => none
  | .hostMemAccess .. => none
  | .hostSnoop .. => none
  | .linkFailed .. => none
  | .modulePowerLimit .. => none

/-- The prefix the instruction carries, if any. -/
def Instr.pfx : Instr → Option Pfx
  | .add p _ _ _ _ _ => p
  | .sub p _ _ _ _ _ => p
  | .and p _ _ _ _ _ => p
  | .or p _ _ _ _ _ => p
  | .xor p _ _ _ _ _ => p
  | .andn p _ _ _ _ _ => p
  | .shl p _ _ _ _ _ => p
  | .shr p _ _ _ _ _ => p
  | .sra p _ _ _ _ _ => p
  | .rot p _ _ _ _ _ => p
  | .min p _ _ _ _ _ => p
  | .max p _ _ _ _ _ => p
  | .minn p _ _ _ _ _ => p
  | .maxn p _ _ _ _ _ => p
  | .slt p _ _ _ _ _ => p
  | .mul p _ _ _ _ _ => p
  | .mulh p _ _ _ _ _ => p
  | .mulhn p _ _ _ _ _ => p
  | .div p _ _ _ _ _ => p
  | .divn p _ _ _ _ _ => p
  | .rem p _ _ _ _ _ => p
  | .remn p _ _ _ _ _ => p
  | .sltn p _ _ _ _ _ => p
  | .clz p _ _ _ => p
  | .ctz p _ _ _ => p
  | .popc p _ _ _ => p
  | .brev p _ _ _ => p
  | .shli p _ _ _ _ => p
  | .shri p _ _ _ _ => p
  | .srai p _ _ _ _ => p
  | .sel p _ _ _ _ _ => p
  | .addi p _ _ _ _ => p
  | .andi p _ _ _ _ => p
  | .slti p _ _ _ _ => p
  | .sltni p _ _ _ _ => p
  | .ld p _ _ _ _ _ => p
  | .ldz p _ _ _ _ _ => p
  | .st p _ _ _ _ _ => p
  | .br .. => none
  | .loop .. => none
  | .brspawn .. => none
  | .fadd p _ _ _ _ _ _ => p
  | .fsub p _ _ _ _ _ _ => p
  | .fmul p _ _ _ _ _ _ => p
  | .fma p _ _ _ _ _ _ => p
  | .fmin p _ _ _ _ _ _ => p
  | .fmax p _ _ _ _ _ _ => p
  | .fdiv p _ _ _ _ _ _ => p
  | .fcmplt p _ _ _ _ _ _ => p
  | .fcmpeq p _ _ _ _ _ _ => p
  | .fcmple p _ _ _ _ _ _ => p
  | .fcmpun p _ _ _ _ _ _ => p
  | .fcopysign p _ _ _ _ _ _ => p
  | .fsqrt p _ _ _ _ _ => p
  | .frcp p _ _ _ _ _ => p
  | .frsq p _ _ _ _ _ => p
  | .fexp2 p _ _ _ _ _ => p
  | .flog2 p _ _ _ _ _ => p
  | .fsin p _ _ _ _ _ => p
  | .fcos p _ _ _ _ _ => p
  | .ftanh p _ _ _ _ _ => p
  | .fabs p _ _ _ _ _ => p
  | .fneg p _ _ _ _ _ => p
  | .fclass p _ _ _ _ _ => p
  | .fround p _ _ _ _ _ => p
  | .fcvt p _ _ _ _ _ => p
  | .ftoi p _ _ _ _ _ => p
  | .itof p _ _ _ _ _ => p
  | .fexpt p _ _ _ _ _ => p
  | .padd p _ _ _ _ _ _ => p
  | .psub p _ _ _ _ _ _ => p
  | .pmul p _ _ _ _ _ _ => p
  | .pmin p _ _ _ _ _ _ => p
  | .pmax p _ _ _ _ _ _ => p
  | .pavg p _ _ _ _ _ _ => p
  | .pcmpeq p _ _ _ _ _ _ => p
  | .pcmplt p _ _ _ _ _ _ => p
  | .shfl p _ _ _ _ _ => p
  | .shfli p _ _ _ _ _ => p
  | .bcast p _ _ _ _ _ => p
  | .gred p _ _ _ _ _ => p
  | .gscan p _ _ _ _ _ => p
  | .vote p _ _ _ _ => p
  | .matchKeys p _ _ _ _ _ => p
  | .join .. => none
  | .leave .. => none
  | .grank .. => none
  | .xsend .. => none
  | .xrecv .. => none
  | .pshuf p _ _ _ _ => p
  | .ppack p _ _ _ _ _ _ => p
  | .punpk p _ _ _ _ _ _ => p
  | .segred p _ _ _ _ _ => p
  | .ldr .. => none
  | .str .. => none
  | .lda .. => none
  | .stl .. => none
  | .fence .. => none
  | .pref .. => none
  | .ipref .. => none
  | .ragld p _ _ _ _ => p
  | .fqpop .. => none
  | .fqpush .. => none
  | .cwb .. => none
  | .cinv .. => none
  | .tileld p _ _ _ => p
  | .tilest p _ _ => p
  | .copy p _ _ => p
  | .gather p _ _ _ => p
  | .coll p _ _ => p
  | .waitc .. => none
  | .aadd p _ _ _ _ => p
  | .amin p _ _ _ _ => p
  | .amax p _ _ _ _ => p
  | .aminn p _ _ _ _ => p
  | .amaxn p _ _ _ _ => p
  | .aand p _ _ _ _ => p
  | .aor p _ _ _ _ => p
  | .axor p _ _ _ _ => p
  | .axchg p _ _ _ _ => p
  | .acas p _ _ _ _ => p
  | .acask p _ _ _ _ => some p
  | .aincw p _ _ _ _ => p
  | .afadd p _ _ _ _ => p
  | .afmin p _ _ _ _ => p
  | .afmax p _ _ _ _ => p
  | .aaddW32 p _ _ _ _ => p
  | .aminW32 p _ _ _ _ => p
  | .amaxW32 p _ _ _ _ => p
  | .aminnW32 p _ _ _ _ => p
  | .amaxnW32 p _ _ _ _ => p
  | .aandW32 p _ _ _ _ => p
  | .aorW32 p _ _ _ _ => p
  | .axorW32 p _ _ _ _ => p
  | .axchgW32 p _ _ _ _ => p
  | .acasW32 p _ _ _ _ => p
  | .acaskW32 p _ _ _ _ => some p
  | .aincwW32 p _ _ _ _ => p
  | .afaddW32 p _ _ _ _ => p
  | .afminW32 p _ _ _ _ => p
  | .afmaxW32 p _ _ _ _ => p
  | .mma p _ _ _ _ _ => p
  | .cvdecl .. => none
  | .acalloc .. => none
  | .acfree .. => none
  | .azero .. => none
  | .acommit .. => none
  | .aload p _ _ _ _ _ _ => p
  | .astore p _ _ _ _ _ _ => p
  | .scacc .. => none
  | .amovr .. => none
  | .bara .. => none
  | .barw .. => none
  | .bars .. => none
  | .cbara .. => none
  | .cbarw .. => none
  | .gbara .. => none
  | .gbarw .. => none
  | .gset .. => none
  | .gres .. => none
  | .tlaunch .. => none
  | .tnext .. => none
  | .jmpr .. => none
  | .callr .. => none
  | .ret .. => none
  | .exit .. => none
  | .yield .. => none
  | .reconv .. => none
  | .lcset .. => none
  | .trap .. => none
  | .rte .. => none
  | .brk .. => none
  | .winbase .. => none
  | .srd .. => none
  | .swr .. => none
  | .capq .. => none
  | .tstamp .. => none
  | .udf .. => none
  | .lih .. => none
  | .addpc .. => none
  | .call .. => none
  | .teamFormation .. => none
  | .teamFormTimeout .. => none
  | .reconvTimeout .. => none
  | .longLatencyComplete .. => none
  | .engineComplete .. => none
  | .icacheFillComplete .. => none
  | .pageFaultService .. => none
  | .faultServiceResume .. => none
  | .faultReservationTimeout .. => none
  | .commissionLaunch .. => none
  | .notifyWrite .. => none
  | .queueMap .. => none
  | .packetParse .. => none
  | .packetDispatch .. => none
  | .nopPacket .. => none
  | .launchPacket .. => none
  | .deadlinePacket .. => none
  | .graphPacket .. => none
  | .copyPacket .. => none
  | .signalPacket .. => none
  | .waitPacket .. => none
  | .waitPacketTimeout .. => none
  | .indirectPacket .. => none
  | .stampPacket .. => none
  | .fencePacket .. => none
  | .nodePlacement .. => none
  | .easelCapture .. => none
  | .commitWindowClose .. => none
  | .canvasWriteComplete .. => none
  | .canvasRestore .. => none
  | .pentimentoComplete .. => none
  | .uncorrectableError .. => none
  | .scrubberPass .. => none
  | .coreLost .. => none
  | .redundantCompare .. => none
  | .bankRetire .. => none
  | .bankCutover .. => none
  | .dramBankRemove .. => none
  | .regionMigrate .. => none
  | .assistResponse .. => none
  | .assistTimeout .. => none
  | .partitionGo .. => none
  | .partitionReset .. => none
  | .functionLevelReset .. => none
  | .ctxCreate .. => none
  | .ctxSuspend .. => none
  | .ctxResume .. => none
  | .ctxDestroy .. => none
  | .ctxClearerr .. => none
  | .ctxReload .. => none
  | .ctxBadOp .. => none
  | .queueEnable .. => none
  | .queueDisable .. => none
  | .queueRestart .. => none
  | .queueSkip .. => none
  | .shootdown .. => none
  | .shootdownComplete .. => none
  | .objLoad .. => none
  | .objUnload .. => none
  | .unloadComplete .. => none
  | .objSetslot .. => none
  | .objBadOp .. => none
  | .attestationRequest .. => none
  | .ptpLatch .. => none
  | .ptpStep .. => none
  | .isrWrite .. => none
  | .imaskWrite .. => none
  | .frtailWrite .. => none
  | .linkControlWrite .. => none
  | .fidWrite .. => none
  | .registerWrite .. => none
  | .bringUp .. => none
  | .supplySag .. => none
  | .thermalTrip .. => none
  | .thermalPowerOff .. => none
  | .linkTraining .. => none
  | .flitReplay .. => none
  | .remoteRequest .. => none
  | .remoteResponse .. => none
  | .remoteRetransmit .. => none
  | .remoteGiveUp .. => none
  | .reduceContribution .. => none
  | .quorumTimeout .. => none
  | .ingressFrame .. => none
  | .ptpMessage .. => none
  | .hostMemAccess .. => none
  | .hostSnoop .. => none
  | .linkFailed .. => none
  | .modulePowerLimit .. => none

/-- The conditions R136 puts on the fields themselves, one line per instruction. -/
def Instr.fieldsOk : Instr → Bool
  | .add .. => true
  | .sub .. => true
  | .and .. => true
  | .or .. => true
  | .xor .. => true
  | .andn .. => true
  | .shl .. => true
  | .shr .. => true
  | .sra .. => true
  | .rot .. => true
  | .min .. => true
  | .max .. => true
  | .minn .. => true
  | .maxn .. => true
  | .slt .. => true
  | .mul .. => true
  | .mulh .. => true
  | .mulhn .. => true
  | .div .. => true
  | .divn .. => true
  | .rem .. => true
  | .remn .. => true
  | .sltn .. => true
  | .clz .. => true
  | .ctz .. => true
  | .popc .. => true
  | .brev .. => true
  | .shli .. => true
  | .shri .. => true
  | .srai .. => true
  | .sel .. => true
  | .addi .. => true
  | .andi .. => true
  | .slti .. => true
  | .sltni .. => true
  | .ld .. => true
  | .ldz .. => true
  | .st .. => true
  | .br ra cond _ => brOk ra cond
  | .loop _ _ disp => disp ≠ 0
  | .brspawn _ _ cond first _ => cond.toNat < 6 && first ≠ 0
  | .fadd .. => true
  | .fsub .. => true
  | .fmul .. => true
  | .fma .. => true
  | .fmin .. => true
  | .fmax .. => true
  | .fdiv .. => true
  | .fcmplt .. => true
  | .fcmpeq .. => true
  | .fcmple .. => true
  | .fcmpun .. => true
  | .fcopysign .. => true
  | .fsqrt _ _ _ dst src _ => arithPair dst src
  | .frcp _ _ _ dst src _ => arithPair dst src
  | .frsq _ _ _ dst src _ => arithPair dst src
  | .fexp2 _ _ _ dst src _ => arithPair dst src
  | .flog2 _ _ _ dst src _ => arithPair dst src
  | .fsin _ _ _ dst src _ => arithPair dst src
  | .fcos _ _ _ dst src _ => arithPair dst src
  | .ftanh _ _ _ dst src _ => arithPair dst src
  | .fabs _ _ _ dst src _ => signPair dst src
  | .fneg _ _ _ dst src _ => signPair dst src
  | .fclass _ _ _ dst src _ => signPair dst src
  | .fround _ _ _ dst src _ => arithPair dst src
  | .fcvt _ _ _ dst src _ => cvtPair dst src
  | .ftoi _ _ _ _ src _ => ftoiPair src
  | .itof _ _ _ _ src _ => itofPair src
  | .fexpt _ _ _ dst src _ => arithPair dst src
  | .padd .. => true
  | .psub .. => true
  | .pmul .. => true
  | .pmin .. => true
  | .pmax .. => true
  | .pavg .. => true
  | .pcmpeq .. => true
  | .pcmplt .. => true
  | .shfl .. => true
  | .shfli .. => true
  | .bcast .. => true
  | .gred _ _ _ op typ _ => groupOpOk false op typ
  | .gscan _ _ _ op typ _ => groupOpOk true op typ
  | .vote .. => true
  | .matchKeys _ _ _ byValue typ _ => !byValue || typ.toNat < 8
  | .join .. => true
  | .leave .. => true
  | .grank .. => true
  | .xsend .. => true
  | .xrecv .. => true
  | .pshuf .. => true
  | .ppack _ _ _ mode _ width _ => mode.toNat < 3 && width.toNat < 3
  | .punpk _ _ _ _ _ width _ => width.toNat < 3
  | .segred _ _ _ op typ _ => groupOpOk false op typ
  | .ldr _ _ _ _ scope _ => scope.toNat < 5
  | .str _ scope _ _ _ _ => scope.toNat < 5
  | .lda _ _ _ _ scope _ => scope.toNat < 5
  | .stl _ scope _ _ _ _ => scope.toNat < 5
  | .fence _ scope => scope.toNat < 5
  | .pref .. => true
  | .ipref .. => true
  | .ragld .. => true
  | .fqpop .. => true
  | .fqpush .. => true
  | .cwb .. => true
  | .cinv .. => true
  | .tileld _ _ _ typ => typ.toNat < 3
  | .tilest .. => true
  | .copy .. => true
  | .gather .. => true
  | .coll .. => true
  | .waitc .. => true
  | .aadd .. => true
  | .amin .. => true
  | .amax .. => true
  | .aminn .. => true
  | .amaxn .. => true
  | .aand .. => true
  | .aor .. => true
  | .axor .. => true
  | .axchg .. => true
  | .acas .. => true
  | .acask _ _ _ _ scope => 2 ≤ scope.toNat
  | .aincw .. => true
  | .afadd .. => true
  | .afmin .. => true
  | .afmax .. => true
  | .aaddW32 .. => true
  | .aminW32 .. => true
  | .amaxW32 .. => true
  | .aminnW32 .. => true
  | .amaxnW32 .. => true
  | .aandW32 .. => true
  | .aorW32 .. => true
  | .axorW32 .. => true
  | .axchgW32 .. => true
  | .acasW32 .. => true
  | .acaskW32 _ _ _ _ scope => 2 ≤ scope.toNat
  | .aincwW32 .. => true
  | .afaddW32 .. => true
  | .afminW32 .. => true
  | .afmaxW32 .. => true
  | .mma _ _ _ ra rb _ => pairOk ra && pairOk rb
  | .cvdecl .. => true
  | .acalloc .. => true
  | .acfree .. => true
  | .azero .. => true
  | .acommit .. => true
  | .aload .. => true
  | .astore .. => true
  | .scacc .. => true
  | .amovr .. => true
  | .bara .. => true
  | .barw .. => true
  | .bars .. => true
  | .cbara .. => true
  | .cbarw .. => true
  | .gbara .. => true
  | .gbarw .. => true
  | .gset .. => true
  | .gres .. => true
  | .tlaunch .. => true
  | .tnext rd => pairOk rd
  | .jmpr .. => true
  | .callr .. => true
  | .ret .. => true
  | .exit .. => true
  | .yield .. => true
  | .reconv .. => true
  | .lcset .. => true
  | .trap .. => true
  | .rte .. => true
  | .brk .. => true
  | .winbase n => n.toNat < 5
  | .srd _ n => srReadable n.toNat
  | .swr _ n _ => srWritable n.toNat
  | .capq .. => true
  | .tstamp .. => true
  | .udf .. => true
  | .lih .. => true
  | .addpc .. => true
  | .call .. => true
  | .teamFormation .. => true
  | .teamFormTimeout .. => true
  | .reconvTimeout .. => true
  | .longLatencyComplete .. => true
  | .engineComplete .. => true
  | .icacheFillComplete .. => true
  | .pageFaultService .. => true
  | .faultServiceResume .. => true
  | .faultReservationTimeout .. => true
  | .commissionLaunch .. => true
  | .notifyWrite .. => true
  | .queueMap .. => true
  | .packetParse .. => true
  | .packetDispatch .. => true
  | .nopPacket .. => true
  | .launchPacket .. => true
  | .deadlinePacket .. => true
  | .graphPacket .. => true
  | .copyPacket .. => true
  | .signalPacket .. => true
  | .waitPacket .. => true
  | .waitPacketTimeout .. => true
  | .indirectPacket .. => true
  | .stampPacket .. => true
  | .fencePacket .. => true
  | .nodePlacement .. => true
  | .easelCapture .. => true
  | .commitWindowClose .. => true
  | .canvasWriteComplete .. => true
  | .canvasRestore .. => true
  | .pentimentoComplete .. => true
  | .uncorrectableError .. => true
  | .scrubberPass .. => true
  | .coreLost .. => true
  | .redundantCompare .. => true
  | .bankRetire .. => true
  | .bankCutover .. => true
  | .dramBankRemove .. => true
  | .regionMigrate .. => true
  | .assistResponse .. => true
  | .assistTimeout .. => true
  | .partitionGo .. => true
  | .partitionReset .. => true
  | .functionLevelReset .. => true
  | .ctxCreate .. => true
  | .ctxSuspend .. => true
  | .ctxResume .. => true
  | .ctxDestroy .. => true
  | .ctxClearerr .. => true
  | .ctxReload .. => true
  | .ctxBadOp .. => true
  | .queueEnable .. => true
  | .queueDisable .. => true
  | .queueRestart .. => true
  | .queueSkip .. => true
  | .shootdown .. => true
  | .shootdownComplete .. => true
  | .objLoad .. => true
  | .objUnload .. => true
  | .unloadComplete .. => true
  | .objSetslot .. => true
  | .objBadOp .. => true
  | .attestationRequest .. => true
  | .ptpLatch .. => true
  | .ptpStep .. => true
  | .isrWrite .. => true
  | .imaskWrite .. => true
  | .frtailWrite .. => true
  | .linkControlWrite .. => true
  | .fidWrite .. => true
  | .registerWrite .. => true
  | .bringUp .. => true
  | .supplySag .. => true
  | .thermalTrip .. => true
  | .thermalPowerOff .. => true
  | .linkTraining .. => true
  | .flitReplay .. => true
  | .remoteRequest .. => true
  | .remoteResponse .. => true
  | .remoteRetransmit .. => true
  | .remoteGiveUp .. => true
  | .reduceContribution .. => true
  | .quorumTimeout .. => true
  | .ingressFrame .. => true
  | .ptpMessage .. => true
  | .hostMemAccess .. => true
  | .hostSnoop .. => true
  | .linkFailed .. => true
  | .modulePowerLimit .. => true

/-- The prefix an instruction carries is one it accepts (06 R133, R135). -/
def Instr.pfxOk (i : Instr) : Bool :=
  match i.pfx, i.accept with
  | none, _ => true
  | some p, some a => p.okFor a
  | some _, none => false

/-- A well-formed instruction: no static line of 06 R136 forbids it. -/
def Instr.wf (i : Instr) : Bool := i.pfxOk && i.fieldsOk

end Sys2Proof
end

