-- ==== Sys2Proof/Machine/State.lean ====
section
/-! DEFINITION. The state of the machine as plain data: the device, its partitions, contexts, launches, blocks, teams and
threads, pending work, and memory. INVENTORY.md lists each field with its rule and reset value. -/

namespace Sys2Proof.Machine

/-- Why the model stops. -/
inductive Fault where
  /-- Raised by an instruction's meaning when the issuing thread (State.cur) is no thread of the state, so there is nothing
  to run it. step never raises it. Safe. -/
  | noThread
deriving DecidableEq, Repr

/-- Why the model refuses. -/
inductive Refusal where
  /-- Raised by exec's arm of an instruction that has no meaning yet. Safe. -/
  | notModelled (mnemonic : String)
deriving DecidableEq, Repr

/-- Core kind (01 R20). -/
inductive CoreKind where
  | mCore | sCore
deriving DecidableEq, Repr

/-- Life of a logical thread (01 R26, 07 R165). -/
inductive Life where
  | running | exited | parked
deriving DecidableEq, Repr

/-- What a thread that is not ready waits at (01 R17, R28). -/
inductive Wait where
  | ready
  /-- An empty register that a producer fills, a full counter, a queue, a full cell, live registers: waits that R28 item 2
  does not count. -/
  | dep
  /-- An instruction line, or the host's check of its page (12 R260, 15 R328). -/
  | fetch
  /-- WAITC, or a register that only a token fills: waits that item 2 does not count and that end a commit window (16 R346). -/
  | engine
  /-- A block, cluster or grid barrier. -/
  | barrier
  /-- The commit barrier (10 R239). -/
  | commit
  | reconv
  /-- XRECV, or a read of the register its claim will fill. -/
  | xrecv
  /-- Signing at a convergence register (10 R231). -/
  | sign
  /-- A set operation (08 R188). -/
  | setOp
  /-- Parking after BRSPAWN, until the live range is full (01 R26). -/
  | park
deriving DecidableEq, Repr

/-- Names of barriers (02 R48, 10 R239). -/
inductive BarId where
  | block (n : Nat) | cluster (n : Nat) | grid (n : Nat) | commit
deriving DecidableEq, Repr

/-- A barrier's wires (02 R48). -/
structure Bar where
  id : BarId
  expected : Nat
  arrived : Nat
  phase : Bool
deriving DecidableEq, Repr

/-- A loop level (02 R43). -/
structure Loop where
  active : Bool
  remaining : BitVec 32
  start : Word
  stop : Word
deriving DecidableEq, Repr

/-- The fault an access meets (15 R321): one that can be served, with the level and the entry the walk stopped at, or the code
of a program fault. -/
inductive FaultKind where
  | serviceable (level : Nat) (entry : Word)
  | program (code : Nat)
deriving DecidableEq, Repr

/-- A fault and the address it was met at. -/
structure AccFault where
  kind : FaultKind
  addr : Word
deriving DecidableEq, Repr

/-- The descriptor a poisoned register or feed-queue cell holds (10 R245). -/
structure Poison where
  addr : Word
  size : Nat
  zx : Bool
  fault : AccFault
deriving DecidableEq, Repr

/-- A page as a walk found it: the page, where its leaf entry lies, the entry and its level, and the page's physical address. -/
structure Path where
  page : Nat
  entryAddr : Nat
  entry : Word
  level : Nat
  pa : Nat
deriving DecidableEq, Repr

/-- A spawn decision still waiting for its live range (01 R26). -/
structure Parking where
  target : Word
  first : Nat
  count : Nat
deriving DecidableEq, Repr

/-- A RECONV that a thread waits in (01 R29): the cycle of its core's clock at which it was issued, the key of its group
(none: the team), its destination and its limit in cycles. -/
structure ReconvWait where
  issued : Nat
  key : Option Word
  rd : Reg
  limit : Nat
deriving DecidableEq, Repr

/-- A thread of the execute slice, or an access thread of the access slice (02 R36 to R45, 10 R243). -/
structure Thread where
  tid : Nat
  slot : Nat
  lane : Nat
  life : Life
  spawned : Bool
  inHandler : Bool
  barsWait : Bool
  /-- Window base WB. -/
  wb : Nat
  /-- y0 to y255. -/
  regs : Vector Word 256
  /-- Full bits of y0 to y255. -/
  full : Vector Bool 256
  pc : Word
  /-- k0 to k7; the cell of k0 is never read (02 R42). -/
  k : Vector Byte 8
  lc : Vector Loop 4
  rm : BitVec 3
  fpst : BitVec 5
  spth : BitVec 5
  tvec : Word
  tcause : BitVec 8
  tpc : Word
  tval : Word
  /-- Outstanding barrier arrivals (09 R222). -/
  outst : List BarId
  wait : Wait
  /-- Cycle at which the thread last became ready (01 R17). -/
  since : Nat
  /-- The RECONV the thread waits in. -/
  reconv : Option ReconvWait
  parking : Option Parking
  /-- Poisoned registers of an access thread, by y number. -/
  poison : List (Nat × Poison)
  /-- The halt's descriptor of an access thread (10 R245). -/
  halted : Option Poison
  /-- Pages an access thread has loaded from and not yet handed to a push (05 R106). -/
  touched : List Path
  /-- The assist request of the thread's ACASK, with the host's verdict once it is there (09 R220, 13 R280). -/
  cmsn : Option (Nat × Option Bool)
deriving DecidableEq, Repr

/-- States of a guard slot (02 R46). -/
inductive GuardState where
  | free | pending | true | false
deriving DecidableEq, Repr

/-- A guard slot and the number of its latest episode (10 R241). -/
structure Guard where
  state : GuardState
  episode : Nat
deriving DecidableEq, Repr

/-- A cell of a feed queue (10 R244, R245). -/
structure FqCell where
  val : Word
  poison : Option Poison
  /-- Pages whose accesses the pop of this cell confirms (05 R106, 15 R316). -/
  touched : List Path
deriving DecidableEq, Repr

/-- The state of a team slot (02 R46, 08 R195, 10 R244, R246). -/
structure Team where
  slot : Nat
  /-- The slot holds a team. -/
  held : Bool
  /-- The quadrant of the core that a team in the slot lies on (01 R15). -/
  quad : Nat
  /-- The team has run .access. -/
  accessRun : Bool
  /-- COPY, MATRIX, GATHER and COLL counters. -/
  ctr : Vector Nat 4
  guards : Vector Guard 16
  /-- Columns of cells, oldest first, at index 32 × queue + lane. -/
  fq : Vector (List FqCell) 128
  /-- Cells popped, at the same index. -/
  pops : Vector Nat 128
  /-- Pushes still to discard after a restart of the access slice. -/
  drop : Vector Nat 128
  /-- Full rendezvous cells by 32 × slot + lane. -/
  cells : List (Nat × Word)
  /-- Unmatched claims by 32 × slot + lane, each with its producer. -/
  claims : List (Nat × Nat)
  /-- Threads that wait to send to a full cell, each with the cell, in the order they issued (08 R195). -/
  senders : List (Nat × Nat)
  /-- x0 to x31 of each lane at the start of .access. -/
  startRegs : List (List Word)
deriving DecidableEq, Repr

/-- Declaration of a convergence register (10 R229). -/
inductive ConvDecl where
  | undeclared | team | group (key : Word)
deriving DecidableEq, Repr

/-- An open round of signatures (10 R231). -/
structure Round where
  cv : Nat
  /-- The team slot in team mode. -/
  slot : Option Nat
  first : Nat
  pfx : Option Pfx
  base : BitVec 32
  acc : Nat
  fmt : Nat
  /-- pA, sA, pB, sB. -/
  pairs : List Word
  signers : List Nat
deriving DecidableEq, Repr

/-- An accumulator handle (10 R226) with its tile as 128 dwords; what it held at the last ACOMMIT. -/
structure Handle where
  map : Nat
  unc : Bool
  skp : Bool
  tile : List Word
deriving DecidableEq, Repr

/-- A sketch shadow (10 R242, 16 R336). -/
structure Shadow where
  handle : Nat
  guard : Nat
  slot : Nat
  episode : Nat
  /-- The operation that opened it. -/
  born : Nat
  /-- Empty until its first sketch MMA has its turn in handle order. -/
  tile : List Word
  fault : Option AccFault
  /-- Pages read for it, whose accesses a resolution TRUE confirms (05 R106). -/
  touched : List Path
deriving DecidableEq, Repr

/-- An arrival at a set operation, with the values supplied (08 R188). -/
structure Arrival where
  tid : Nat
  instr : Instr
  /-- The group's key; none for the team set. -/
  key : Option Word
  rdVal : Word
  raVal : Word
  rbVal : Word
  /-- The mask register the prefix names (0xFF without one). -/
  mask : Byte
  rm : BitVec 3
deriving DecidableEq, Repr

/-- A group (01 R23). -/
structure Group where
  key : Word
  members : List Nat
deriving DecidableEq, Repr

/-- A spawn area entry (01 R26) and the cycle of its core's clock at which it was parked. -/
structure SpawnEntry where
  target : Word
  tid : Nat
  first : Nat
  count : Nat
  slot : Nat
  regs : List Word
  parked : Nat
deriving DecidableEq, Repr

/-- A thread's entry of the restart snapshot (16 R336). -/
structure SnapThread where
  tid : Nat
  slot : Nat
  lane : Nat
  life : Life
  spawned : Bool
  wb : Nat
  spth : BitVec 5
  rm : BitVec 3
  tvec : Word
  fpst : BitVec 5
  live : List Word
deriving DecidableEq, Repr

/-- The restart snapshot (10 R240). -/
structure Snapshot where
  threads : List SnapThread
  spawn : List SpawnEntry
  held : List Bool
  bars : List Bar
  outst : List (List BarId)
  conv : Vector ConvDecl 16
  groups : List Group
  pops : List (Vector Nat 128)
  cursor : Nat
  handles : Vector Handle 64
  /-- The block's own scratchpad (05 R109). -/
  scratch : Cells
  /-- Of each team slot, whether .access has run, and its start registers (10 R246). -/
  ran : List (Bool × List (List Word))
deriving DecidableEq, Repr

/-- The declarations of a kernel parameter block that a block runs under (19 R390), with its addresses after load. -/
structure Kernel where
  kpb : Word
  /-- Base of the instance. -/
  base : Word
  inst : Nat
  text : Word
  access : Option Word
  trap : Option Word
  regs : Nat
  n : Nat
  s : Nat
  scratch : Nat
  spawnEntries : Nat
  acc : Nat
  cluster : Nat
  blockBars : BitVec 64
  clusterBars : BitVec 16
  gridBars : BitVec 8
  restartFirst : Nat
  restartCount : Nat
  staging : List (Nat × Nat)
  prefetch : List Nat
deriving DecidableEq, Repr

/-- Where a commission comes from (05 R111, 15 R330). -/
structure CmsnInfo where
  addr : Word
  desc : Word
  grid : BitVec 32
  blk : Nat
deriving DecidableEq, Repr

/-- A store held in redundant mode (05 R110, 17 R361): thread, address, size, value, and where it will be performed. -/
structure HeldStore where
  tid : Nat
  addr : Word
  size : Nat
  val : Word
deriving DecidableEq, Repr

/-- Run state of a block. -/
inductive BlockState where
  | running
  /-- A capture is wanted: whether the host is still being asked, and where it wants the canvas (0: it has no wish). -/
  | asked (host : Bool) (addr : Word)
  /-- Suspended for a serviceable fault (15 R323): whether its reservation still stands, and its image once it is written: 0
  where the CANVAS area had no room. -/
  | suspended (reserved : Bool) (image : Option Word)
  /-- In the commit window since the given time (16 R346); the address as in asked. -/
  | window (since : Nat) (addr : Word)
  /-- Stopped, its canvas being written (16 R345); rewound says whether it went back to its restart label. -/
  | writing (addr : Word) (rewound : Bool)
  /-- Ended; kept only until its launch takes note. -/
  | ended
deriving DecidableEq, Repr

/-- A block (02 R48, 16 R335). -/
structure Block where
  bid : Nat
  part : Nat
  ctx : Nat
  /-- The launch it belongs to. -/
  launch : Nat
  grid : BitVec 32
  idx : Nat
  nblk : Nat
  crank : Nat
  csize : Nat
  /-- Its cluster. -/
  cluster : Nat
  die : Nat
  core : Nat
  kind : CoreKind
  /-- The kind of core it must be planted on: 0 M, 1 S, 2 either (16 R335). -/
  reqKind : Nat
  cfg : Nat
  kernel : Kernel
  args : List Word
  coresident : Bool
  redundant : Bool
  twin : Option Nat
  primary : Bool
  commission : Option CmsnInfo
  /-- The task-graph node it runs: the descriptor's address, and the descriptor as read. -/
  node : Option (Word × List Byte)
  /-- Order of placement. -/
  placed : Nat
  state : BlockState
  teams : List Team
  threads : List Thread
  access : List Thread
  /-- Own scratchpad, by offset. -/
  scratch : Cells
  spawn : List SpawnEntry
  bars : List Bar
  conv : Vector ConvDecl 16
  rounds : List Round
  handles : Vector Handle 64
  shadows : List Shadow
  groups : List Group
  arrivals : List Arrival
  label : Word
  /-- Acommit's ra values of the threads that have arrived, by tid. -/
  commitVals : List (Nat × Word)
  snap : Option Snapshot
  /-- Total T and tile G of a persistent distribution; T = 0 declares none (10 R248). -/
  distT : Nat
  distG : Nat
  cursor : Nat
  held : List HeldStore
  /-- Compare points whose latest compare mismatched: key, PC, and how many compares of that key and PC had matched without
  stores before it (17 R364). -/
  mismatched : List (Nat × Nat × Nat)
  /-- Key and PC of each compare that matched without stores since one that released stores. -/
  passed : List (Nat × Nat) := []
  /-- Open compare points by key (a thread, a barrier phase, or a thread's store count), each with the counts of held stores
  by tid when the block got there (17 R363). -/
  cmpAt : List (Nat × List (Nat × Nat))
  /-- Keys whose compare has matched; the secondary's entry holds the primary's result once it is there (17 R363). -/
  grants : List (Nat × Option (List Word))
  /-- Results of the primary's engine operations that are over, by number, for the secondary's instances (17 R363). -/
  opDone : List (Nat × Word)
  /-- Instructions issued by the block's busiest thread since a capture request, by tid (16 R346). -/
  issued : List (Nat × Nat)
  /-- Banks in which an uncorrectable error was consumed since the last interval boundary (17 R357). -/
  errorBanks : List (BankArray × Nat)
  /-- A capture was asked for while the block is suspended: its image will stand as the canvas (16 R348). -/
  wanted : Bool
  /-- The last value that the block read of each CAPQ code, which no later one exceeds (04 R88). -/
  capRead : List (Nat × Nat) := []
deriving DecidableEq, Repr

/-- A cluster's barriers. -/
structure Cluster where
  cid : Nat
  bars : List Bar
deriving DecidableEq, Repr

/-- What a long-latency producer is (02 R38), for captures and kills. -/
inductive ProdKind where
  | load | strong | atomic | divide | special | xrecv | amovr | tstamp
deriving DecidableEq, Repr

/-- The part of a pending descriptor that names the instruction (16 R338). -/
structure OpDesc where
  major : Nat
  fn : Nat
  qual : Nat
  rm : Nat
  operands : List Word
deriving DecidableEq, Repr

/-- A long-latency producer in flight. -/
structure Prod where
  id : Nat
  bid : Nat
  tid : Nat
  acc : Bool
  /-- The y register it named at issue; none discards the value. -/
  y : Option Nat
  val : Word
  poison : Option Poison
  flags : BitVec 5
  kind : ProdKind
  /-- An unmatched XRECV or unperformed AMOVR is not ready to complete. -/
  ready : Bool
  /-- Issued after the block's last ACOMMIT (16 R338). -/
  after : Bool := true
  due : Nat
  desc : OpDesc
deriving DecidableEq, Repr

/-- What an engine operation does (04 R82, 09 R211 to R214, 10 R233 to R238). -/
inductive EngKind where
  | tileld (src dst : Word) (ss ds len h typ : Nat)
  | tilest (src dst : Word) (ss ds len h : Nat)
  | copy (src dst : Word) (len : Nat)
  | gather (list base dst : Word) (count size : Nat)
  | coll (desc : List Byte)
  | mma (acc fmt : Nat) (pairs : List Word) (first : Nat) (teams : List Nat)
  | aload (h : Nat) (f64 : Bool) (addr stride : Word)
  | astore (h : Nat) (f64 : Bool) (addr stride : Word)
  | scacc (h part : Nat) (sa sb : Word)
  | azero (h : Nat)
  | amovr (h : Nat) (sel : Word) (prod : Nat)
  /-- The secondary twin's instance of the primary's operation (17 R363). -/
  | twin (op : Nat)
deriving DecidableEq, Repr

/-- What an operation's guard decided or awaits (10 R241). -/
inductive Binding where
  | go | discard | episode (guard n : Nat)
deriving DecidableEq, Repr

/-- An engine operation issued and not yet signalled (09 R209, 16 R338). -/
structure EngOp where
  id : Nat
  bid : Nat
  ctx : Nat
  slot : Nat
  tid : Nat
  /-- 0 COPY, 1 MATRIX, 2 GATHER, 3 COLL; 4 for matrix work no counter counts. -/
  cls : Nat
  kind : EngKind
  /-- The token's y register; none for x0. -/
  tok : Option Nat
  binding : Binding
  /-- The guard slot of a guarded operation (16 R338). -/
  guard : Option Nat := none
  progress : Nat
  /-- The pages of an MMA's operands as they stood when it issued (10 R234). -/
  xlat : List Path
  /-- Issued after the block's last ACOMMIT. -/
  after : Bool
  /-- Performed (or ended) with this result; the signal is still to come. -/
  result : Option Word
  /-- Its team was killed: the result is discarded. -/
  orphan : Bool
  /-- Its handle held no tile when its turn in handle order came: it has no effect (10 R227, R236). -/
  void : Bool := false
  /-- Destination bytes already written by a collective operation whose bytes come in pieces (17 R363), or met a fault. -/
  wrote : Nat := 0
  due : Nat
  desc : OpDesc
deriving DecidableEq, Repr

/-- Who asked for the service of a translation fault (15 R321, R323). -/
inductive Asker where
  | block (bid : Nat) | engine (op : Nat) | packet (pid : Nat) | remote
  /-- The check of the packet at a queue's head, before its commit point (14 R295). -/
  | parse (part q : Nat)
  /-- The snoop filter's watch of a queue's notify dword (14 R289, R290). -/
  | notify (part q : Nat)
  /-- A control core's work for a node or an ended block, by its number (14 R305, R306). -/
  | work (ref : Nat)
deriving DecidableEq, Repr

/-- The issuing thread. -/
structure Cur where
  bid : Nat
  tid : Nat
  /-- An access thread: tid is then 32 × slot + lane. -/
  acc : Bool
deriving DecidableEq, Repr

/-- A translation fault under service. -/
structure FaultReq where
  id : Nat
  part : Nat
  ctx : Nat
  va : Word
  access : Nat
  level : Nat
  entry : Word
  asker : Asker
  /-- The thread whose instruction met it, with that instruction's PC and the access size (15 R322). -/
  who : Option Cur := none
  pc : Word := 0
  size : Nat := 0
  /-- The MMA that met it (10 R234). -/
  mma : Option Nat := none
  served : Bool
  /-- The fault cannot be served: the check it was met in fails (14 R295). -/
  refused : Bool
  /-- Raised in host-assisted mode (13 R279). -/
  host : Bool
  /-- Its request is posted. -/
  posted : Bool
  raised : Nat
deriving DecidableEq, Repr

/-- A packet from its commit point to its completion (14 R291 to R298). -/
structure Packet where
  pid : Nat
  part : Nat
  q : Nat
  ctx : Nat
  typ : Nat
  flags : Byte
  pkid : BitVec 32
  caddr : Word
  /-- Bytes 16 to 63 as six dwords. -/
  body : List Word
  /-- Arguments of a launch, and its extension or the node descriptors of a GRAPH, as read up to the commit point. -/
  args : List Word
  ext : List Byte
  started : Bool
  status : Nat
  finished : Bool
  /-- The INDIRECT packet it belongs to. -/
  parent : Option Nat
  /-- Packets of an INDIRECT buffer still to parse: next index and count. -/
  next : Nat
  /-- PTP time in ns at which it became ready (14 R299). -/
  arrival : Nat
  /-- Its deadline had passed when it became ready, or a forward step of the clock passed it (14 R299, 18 R385). -/
  late : Bool
  /-- Forward steps of the clock since the packet's arrival, for those of its buffer. -/
  steps : List (Nat × Nat) := []
  /-- The handle of an INDIRECT's buffer, with its generation (19 R399). -/
  cap : Option (Nat × Nat) := none
  /-- Time at which it started. -/
  startedAt : Nat
  /-- Bytes of a COPY, nodes accepted of a GRAPH; 1 once a launch or an INDIRECT has begun. -/
  progress : Nat
deriving DecidableEq, Repr

/-- A launch: a grid placed by a packet, a node or a commission (14 R296, R301). -/
structure Launch where
  lid : Nat
  /-- The packet that awaits it. -/
  pid : Option Nat
  part : Nat
  ctx : Nat
  grid : BitVec 32
  /-- KPBs of the primary configuration and the fallbacks. -/
  kpbs : List Word
  args : List Word
  nblk : Nat
  /-- Next block index to place. -/
  next : Nat
  coresident : Bool
  redundant : Bool
  deadline : Option Word
  canvas : Word
  distT : Nat
  distG : Nat
  fixBase : Word
  fixSize : Word
  bars : List Bar
  firstIssued : Bool
  /-- 0 DEADLINE, 1 FRAME, 2 BULK, of the queue that issued it. -/
  cls : Nat
  weight : Nat
  status : Nat
  /-- What a block of it has last read of the capacity codes of the partition (04 R88). -/
  capRead : List (Nat × Nat) := []
deriving DecidableEq, Repr

/-- An accepted node (14 R304, R306). -/
structure Node where
  part : Nat
  ctx : Nat
  addr : Word
  desc : List Byte
  remaining : Nat
  /-- The launch whose packet waits for it. -/
  launch : Nat
  pid : Option Nat
  order : Nat
deriving DecidableEq, Repr

/-- Decrements kept for a node not yet accepted (14 R306). -/
structure Credit where
  ctx : Nat
  addr : Word
  count : Nat
deriving DecidableEq, Repr

/-- A reserved launch entry of a slice (05 R111, 14 R308). -/
structure Commission where
  id : Nat
  part : Nat
  ctx : Nat
  die : Nat
  slice : Nat
  old : Word
  /-- The kernel of the table entry as the ACASK's check read it (14 R297). -/
  kpb : Nat
  info : CmsnInfo
  scope : Nat
  launch : Nat
  pid : Option Nat
deriving DecidableEq, Repr

/-- A block of a canvas that is to be restored: its place in the block directory, its launch, and what a block record has no
field for (log 16). fresh: it is to be relaunched from its kernel entry instead, as block idx of the grid (17 R368). -/
structure CapBlock where
  idx : Nat
  launch : Nat
  node : Option (Word × List Byte)
  commission : Option CmsnInfo
  held : List HeldStore
  grants : List (Nat × Option (List Word))
  /-- Handles that were mapped at the last ACOMMIT and whose tiles have changed since. -/
  committed : List Nat := []
  /-- Its pending operations as they stood, in the order of their descriptors, and what its pending divisions and special
  functions give. -/
  kept : List EngOp := []
  vals : List (Option (Word × BitVec 5)) := []
  /-- Of its sketch shadows: no sketch MMA has had its turn in it. -/
  unborn : List Bool := []
  capRead : List (Nat × Nat) := []
  fresh : Bool
deriving DecidableEq, Repr

/-- A canvas whose blocks wait to be restored (14 R309, 16 R344, R349), by its address; 0 for blocks to relaunch. -/
structure Captured where
  id : Nat
  part : Nat
  ctx : Nat
  addr : Word
  blocks : List CapBlock
  /-- The canvas of a launch packet that has not been restored yet (14 R301). -/
  fromPacket : Bool := false
  /-- Its atelier and graph sections are still to be written, with its first blocks (16 R349). -/
  sections : Bool := false
  /-- The packet that the graph section's work is for, and the kernels of its commissions as the table had them (14 R297). -/
  graph : Option (Nat × List Nat) := none
deriving DecidableEq, Repr

/-- States of a context (13 R282). -/
inductive CtxState where
  | free | active | suspended | faulted
deriving DecidableEq, Repr

/-- A context: its record as last read, its state and sticky bits (13 R281 to R283). -/
structure Ctx where
  id : Nat
  part : Nat
  state : CtxState
  redundant : Bool
  coresident : Bool
  ptroot : Nat
  /-- Valid atelier-map entries: window page, die, slice. -/
  atl : List (Nat × Nat × Nat)
  cmsnN : Nat
  cmsnTab : Word
  canvasBase : Word
  canvasSize : Nat
  cfault : Word
  cfaultN : Nat
  lcap : Nat
  sticky : Byte
  /-- Canvas allocations in the CANVAS area: offset and size in bytes. -/
  canvases : List (Nat × Nat)
  /-- Canvas written by SUSPEND. -/
  suspendCanvas : Option Word
  nextGrid : Nat
deriving DecidableEq, Repr

/-- States of a queue (14 R288). -/
inductive QState where
  | disabled | unmapped | mapped | stopped
deriving DecidableEq, Repr

/-- A write of a queue's notify dword that moved its tail: the new tail, its PTP time in ns, and the forward steps of the clock
since then, as the times from which and to which each went (18 R385). -/
structure TailMark where
  tail : Nat
  time : Nat
  steps : List (Nat × Nat) := []
deriving DecidableEq, Repr

/-- A queue's registers and what the device holds for it (14 R288 to R290). -/
structure Queue where
  base : Word
  en : Bool
  cls : Nat
  weight : Nat
  size : Nat
  ctx : Nat
  naddr : Word
  head : Nat
  state : QState
  err : Nat
  /-- A notify write was seen since the dword was last read. -/
  notified : Bool
  tail : Nat
  /-- QMAP was the host's function when that write was seen (13 R279). -/
  byHost : Bool := false
  /-- Cycle of the last notify write. -/
  lastNotify : Nat
  /-- Tails that notify writes gave, oldest first. -/
  marks : List TailMark
  /-- The generation of the handle of its ring (19 R399). -/
  gen : Nat := 0
  /-- The packet at its commit point, not yet started. -/
  ready : Option Packet
  /-- Packets started in this weighted round (14 R299). -/
  spent : Nat
deriving DecidableEq, Repr

/-- An open assist request (13 R280). -/
structure Assist where
  seq : Nat
  fn : Nat
  ctx : Nat
  args : List Byte
  /-- What asked: the fault request, the queue, the block, or the like, as its function has it. -/
  ref : Nat
  /-- Time at which it was posted, and the time the host has to answer as it stood then (13 R279). -/
  posted : Nat
  limit : Nat
  /-- Raised, and not in the ring yet for want of room. -/
  waiting : Bool := false
deriving DecidableEq, Repr

/-- States of a partition (13 R277). -/
inductive PState where
  | off | active | resetting | configuring
deriving DecidableEq, Repr

/-- Partition configuration values (13 R277). -/
structure PCfg where
  dies : BitVec 8
  atl : Nat
  nq : Nat
  far : Nat
  cfirst : Nat
  ccount : Nat
deriving DecidableEq, Repr

/-- A partition's registers (13, 14 R288, 15 R319, 17 R371, 18 R375, 19 R391). -/
structure Part where
  /-- PCFG0 and PCFG1 as held, as the raw registers read. -/
  pcfg0 : Word
  pcfg1 : Word
  /-- The applied configuration. -/
  cfg : PCfg
  state : PState
  cfgerr : Nat
  aret : Nat
  scrub : Bool
  dsplit : BitVec 7
  atmo : Nat
  ctxbase : Word
  ccmdBusy : Bool
  ccmdResult : Nat
  ccmdCleared : Byte
  /-- The SUSPEND (2) or RESUME (3) in progress, its context, and EXPORT. -/
  ccmdOp : Nat
  ccmdCtx : Nat
  ccmdExpo : Bool
  frbase : Word
  frsize : Nat
  frhead : BitVec 32
  frtail : BitVec 32
  frlost : BitVec 32
  asbase : Word
  asReqHead : BitVec 16
  asRespTail : BitVec 16
  asReqTail : BitVec 16
  asRespHead : BitVec 16
  asSeq : Nat
  assists : List Assist
  isr : BitVec 5
  imask : BitVec 5
  /-- Bits of ISR whose message has been sent since they were set (13 R285). -/
  sent : BitVec 5
  /-- MSI-X messages sent, oldest first. -/
  msgs : List Nat
  tinva : Word
  tinvCtx : Nat
  tinvScope : Nat
  tinvSize : Nat
  tinvDone : Bool
  tinvRej : Bool
  regb : Nat
  spb : Nat
  accb : Nat
  l1b : Nat
  dramb : Nat
  coresLost : Nat
  mig : Bool
  migWm : Nat
  migDie : Nat
  /-- Time at which the migration engine took up the region being moved. -/
  migAt : Nat
  fgtBase : Word
  fgtN : Nat
  ocmdBusy : Bool
  ocmdResult : Nat
  ocmdIndex : Nat
  okeyBase : Word
  okeyN : Nat
  queues : Vector Queue 64
deriving DecidableEq, Repr

/-- A kernel or exported symbol of a loaded instance: name, entry offset, parameter block offset (19 R389). -/
structure KernelSym where
  name : List Byte
  entry : Nat
  kpb : Nat
deriving DecidableEq, Repr

/-- A relocation record of an object (19 R389), with its symbol resolved where it is external. -/
structure Reloc where
  off : Nat
  typ : Nat
  /-- The symbol's address after load, or the slot's value. -/
  sym : Int
  addend : Int
  pair : Nat
deriving DecidableEq, Repr

/-- A loaded instance (19 R392, R396). -/
structure Inst where
  iid : Nat
  part : Nat
  hash : List Byte
  base : Word
  image : Nat
  gotBytes : Nat
  slots : List Int
  ext : List Word
  refs : Nat
  /-- Contexts it is mapped in. -/
  ctxs : List Nat
  /-- The file: host physical address, and the offsets of its image and page hash table. -/
  file : Nat
  imgOff : Nat
  hashOff : Nat
  fileSize : Nat
  kernels : List KernelSym
  globals : List KernelSym
  relocs : List Reloc
  /-- Pages of the image that hold code. -/
  codePages : List Nat
  /-- Pages in memory: index from the base and physical address. -/
  pages : List (Nat × Nat)
  /-- Contexts in which its UNLOAD has begun (19 R397). -/
  unloading : List Nat
  /-- Code pages hash-checked since they came (15 R328). -/
  checked : List Nat
deriving DecidableEq, Repr

/-- A fabric link (18 R374). -/
structure Link where
  en : Bool
  ethernet : Bool
  state : Nat
  modeErr : Bool
  peer : BitVec 12
  replay : BitVec 32
  crcErr : BitVec 32
deriving DecidableEq, Repr

/-- An ingress filter (18 R386). -/
structure Filter where
  en : Bool
  link : Nat
  part : Nat
  ctx : Nat
  slotSz : Nat
  nslot : Nat
  mtch : Word
  mask : Word
  base : Word
  drops : BitVec 32
deriving DecidableEq, Repr

/-- What became of a core's arrays (17 R365 to R368): banks retired, spares included. -/
structure CoreStat where
  die : Nat
  core : Nat
  regs : List Nat
  scratch : List Nat
  acc : List Nat
  l1 : List Nat
  lost : Bool
deriving DecidableEq, Repr

/-- An entry of the control cores' handle table: a range of a context's addresses and what may be done there (19 R399). -/
structure CapEntry where
  base : Nat
  len : Nat
  r : Bool
  w : Bool
  x : Bool
  owner : Nat
  gen : Nat
  valid : Bool
deriving DecidableEq, Repr

/-- A firmware image: its public key, its signature, its version, its pages of 4 KiB and their digests (19 R399). -/
structure Firmware where
  key : List Byte
  sig : List Byte
  version : BitVec 32
  pages : List (List Byte)
  hashes : List (List Byte)
deriving DecidableEq, Repr

/-- A PTP frame with the time at which it passed its link (18 R385). -/
structure PtpFrame where
  way : PtpWay
  link : Nat
  sec : Nat
  ns : Nat
  frac : Nat
  bytes : List Byte
deriving DecidableEq, Repr

/-- What the host gets for an access: bytes, marked poisoned or not; a completer abort; or the answer to an unsupported request
(18 R372, R373). -/
inductive HostAnswer where
  | data (bytes : List Byte) (poisoned : Bool) | abort | unsupported
deriving DecidableEq, Repr

/-- A bank that is draining (17 R367). -/
structure Drain where
  arr : BankArray
  die : Nat
  core : Nat
  bank : Nat
deriving DecidableEq, Repr

/-- A byte in which the scrubber found an error that nothing has consumed yet, and the bank it lies in (17 R353): an address of
memory, or an index of the atelier store. -/
structure Mark where
  atelier : Bool
  addr : Nat
  bank : MemBank
deriving DecidableEq, Repr

/-- An instruction cache line, most recently used first, or a fill outstanding (12 R260). -/
structure ICLine where
  die : Nat
  core : Nat
  ctx : Nat
  line : Nat
deriving DecidableEq, Repr

/-- A line that a core has requested, and the cycle in which it comes (12 R260). -/
structure LineFill where
  line : ICLine
  due : Nat
deriving DecidableEq, Repr

/-- What a message of this device over the fabric says (18 R377 to R384). -/
inductive FabricBody where
  /-- Requests, performed in a context of the target. -/
  | put (ctx : Nat) (addr : Word) (data : List Byte)
  | get (ctx : Nat) (addr : Word) (len : Nat)
  | atomic (ctx aop width : Nat) (addr x q : Word)
  /-- A member's contribution to a reduction, for its root. -/
  | contribution (con : Contribution)
  /-- The source's bytes of a MULTICAST, with the mirror's state where the receiver is the buddy. -/
  | multicast (group step : Nat) (data : List Byte)
  /-- The answer to a request: performed, with an atomic's old value or a GET's bytes; or REFUSED. again: for want of a cache
  entry. -/
  | answer (done again : Bool) (old : Word) (data : List Byte)
  /-- What a reduction's root tells a member: the header and result of an ALLREDUCE, no bytes of a REDUCE; not done: −4. -/
  | result (group step : Nat) (done : Bool) (data : List Byte)
deriving DecidableEq, Repr

/-- A message that left the device: over which link, to which fabric id, under which sequence number. -/
structure FabricMsg where
  link : Nat
  target : BitVec 12
  seq : BitVec 32
  body : FabricBody
deriving DecidableEq, Repr

/-- A remote request of this device without a response yet (18 R379). -/
structure Outbound where
  op : Nat
  seq : BitVec 32
  target : BitVec 12
  body : FabricBody
  sends : Nat
  /-- Sends that the target answered for want of a cache entry. -/
  refusals : Nat
  /-- Times of the first and the last send. -/
  firstAt : Nat
  lastAt : Nat
deriving DecidableEq, Repr

/-- A cached response to a remote ATOMIC (18 R379). -/
structure Cached where
  src : BitVec 12
  seq : BitVec 32
  old : Word
  performedAt : Nat
deriving DecidableEq, Repr

/-- A reduction in progress at its root (18 R381 to R383). -/
structure Reduction where
  part : Nat
  group : Nat
  step : Nat
  members : Nat
  key : ReduceKey
  minc : Nat
  qto : Nat
  mismatch : Bool
  got : List (Nat × List (Int × Bool × Bool))
  closed : Bool
  /-- Time of the first contribution. -/
  firstAt : Nat
deriving DecidableEq, Repr

/-- A complete or unfinished pentimento (17 R354, R355): the block as it stood at the boundary, and the operations and
producers in flight. -/
structure Pentimento where
  bid : Nat
  complete : Bool
  /-- The boundary followed an irrevocable action (17 R356). -/
  irrev : Bool
  image : Block
  ops : List EngOp
  prods : List Prod
deriving DecidableEq, Repr

/-- A notify dword that the snoop filter watches: its queue and physical address (14 R289, R290). -/
structure Watch where
  part : Nat
  q : Nat
  pa : Nat
deriving DecidableEq, Repr

/-- The clock of a group of 8 cores that sags have held back (19 R402). -/
structure Sag where
  group : Nat
  /-- The clock that a sag holds it at now; 0 without one. -/
  mhz : Nat
  /-- Quadrant cycles that its clock is behind the main clock, and what is left over in units of a cycle over MHz. -/
  lag : Nat
  sub : Nat
deriving DecidableEq, Repr

/-- The state of the device. -/
structure State where
  /-- Cycles of the main arithmetic clock. -/
  cycle : Nat
  /-- Wall-clock time in units of 2^-16 ns (00 R6), and what is left over in units of that over MHz. -/
  time : Nat
  timeSub : Nat
  freeCount : Nat
  nextId : Nat
  inbox : List Instr
  cur : Option Cur
  /-- The issue group that is issuing, all its threads (01 R17, 07 R162). -/
  group : List Cur
  /-- The picker has chosen in this cycle. -/
  picked : Bool
  /-- Those of them still to issue. -/
  todo : List Cur
  mem : Cells
  poison : List Nat
  atelier : Cells
  atelierPoison : List Nat
  /-- Slices in atelier mode and retired slices, as die and number. -/
  atlSlices : List (Nat × Nat)
  deadSlices : List (Nat × Nat)
  cores : List CoreStat
  drains : List Drain
  /-- Banks to retire whose decision has not been taken yet (17 R366). -/
  repairs : List Drain
  /-- Corrected errors of the last second: bank and time (17 R366). -/
  corrected : List (Drain × Nat)
  deadDram : List (Nat × Nat)
  /-- Banks of near DRAM whose removal has not been decided yet (17 R369). -/
  dramWant : List (Nat × Nat)
  /-- Errors that the scrubber found. -/
  marks : List Mark
  /-- Warm slots: die, context and KPB, most recently used first (14 R307). -/
  warm : List (Nat × Nat × Word)
  icache : List ICLine
  fills : List LineFill
  mhz : Nat
  /-- Groups of 8 cores whose clock a sag has held below mhz (19 R402). -/
  sags : List Sag
  powered : Bool
  ptpSec : Nat
  ptpNs : Nat
  ptpFrac : Nat
  /-- What is left of a cycle below 2^-16 ns, in units of 2^-16 ns over MHz × 10^6. -/
  ptpSub : Nat
  ptpLatchSec : Nat
  ptpLatchNs : Nat
  ptpFreq : BitVec 32
  stage : Nat
  halt : Bool
  dieOut : BitVec 8
  atex : Bool
  therm : Bool
  /-- Time of the thermal trip (19 R402). -/
  thermAt : Nat
  /-- What bring-up will meet: the stage that fails, and the dies that fail training. -/
  failStage : Option Nat
  failDies : BitVec 8
  /-- Cores that stage 4 will find without a valid palette map. -/
  failCores : List (Nat × Nat)
  /-- The firmware image that the boot ROM will check; none: one that it accepts, of the digest and version below (log 23). -/
  firmware : Option Firmware
  /-- The digest of the firmware signing key that the boot ROM holds (19 R399). -/
  fwKeyDigest : List Byte
  attestIdx : Nat
  attestEnd : Nat
  fwDigest : List Byte
  fwVersion : BitVec 32
  fid : BitVec 12
  links : Vector Link 16
  filters : Vector Filter 64
  ptpFrames : List PtpFrame
  /-- The last access of the host's that got an answer other than plain completion. -/
  hostAnswer : Option HostAnswer
  /-- HDMBASE, once the host has set the decoder (18 R372). -/
  hdmBase : Option Nat
  /-- The handle table: index and entry (19 R399). -/
  caps : List (Nat × CapEntry)
  parts : Vector Part 8
  ctxs : List Ctx
  insts : List Inst
  poisoned : List (List Byte)
  /-- Notify dwords that are watched; enabled queues, by partition and number, whose dword is still to be found; and those
  whose dword was written and is still to be read (14 R290). -/
  watch : List Watch
  unarmed : List (Nat × Nat)
  snooped : List (Nat × Nat)
  /-- Queues whose EN was cleared and that wait for packets in progress (14 R288). -/
  closing : List (Nat × Nat)
  packets : List Packet
  launches : List Launch
  clusters : List Cluster
  blocks : List Block
  captured : List Captured
  nodes : List Node
  credits : List Credit
  commissions : List Commission
  prods : List Prod
  ops : List EngOp
  faults : List FaultReq
  pents : List Pentimento
  outbound : List Outbound
  /-- Next sequence numbers, by source and target fabric id (18 R379). -/
  nextSeq : List ((BitVec 12 × BitVec 12) × BitVec 32)
  /-- Messages that this device has sent over the fabric, oldest first. -/
  fabricOut : List FabricMsg
  /-- The link that leads to a fabric id: the routing that firmware loads at bring-up (18 R374, 19 R401). -/
  routes : List (BitVec 12 × Nat)
  results : List Cached
  reductions : List Reduction
  /-- Fabric requests that wait for the service of a translation fault (18 R377), and responses that wait for one. -/
  remoteHeld : List RemoteReq
  respHeld : List RemoteResp
deriving DecidableEq, Repr

/-- A queue after reset (14 R288). -/
def Queue.reset : Queue :=
  { base := 0, en := false, cls := 2, weight := 1, size := 0, ctx := 0, naddr := 0, head := 0, state := .disabled, err := 0,
    notified := false, tail := 0, lastNotify := 0, marks := [], ready := none, spent := 0 }

/-- The partition page after reset, with a configuration (13 R277 to R286). The spec gives FRSIZE no reset value; the model takes
16, the least that it allows (DESIGN CHOICE, log 5). -/
def Part.resetWith (c0 c1 : Word) (cfg : PCfg) (st : PState) : Part :=
  { pcfg0 := c0, pcfg1 := c1, cfg := cfg, state := st, cfgerr := 0, aret := 0, scrub := false, dsplit := 0, atmo := 2000,
    ctxbase := 0, ccmdBusy := false, ccmdResult := 0, ccmdCleared := 0, ccmdOp := 0, ccmdCtx := 0, ccmdExpo := false, frbase := 0, frsize := 16, frhead := 0, frtail := 0,
    frlost := 0, asbase := 0, asReqHead := 0, asRespTail := 0, asReqTail := 0, asRespHead := 0, asSeq := 0, assists := [],
    isr := 0, imask := 0, sent := 0, msgs := [], tinva := 0, tinvCtx := 0, tinvScope := 0, tinvSize := 0, tinvDone := true,
    tinvRej := false, regb := 0, spb := 0, accb := 0, l1b := 0, dramb := 0, coresLost := 0, mig := false, migWm := 0,
    migDie := 0, migAt := 0, fgtBase := 0, fgtN := 0, ocmdBusy := false, ocmdResult := 0, ocmdIndex := 0, okeyBase := 0, okeyN := 0,
    queues := Vector.replicate 64 Queue.reset }

/-- Partition 0 holds the whole device (13 R277). -/
def Part.reset0 : Part :=
  Part.resetWith 0x804004FF 0x1000_0000
    { dies := 0xFF, atl := 4, nq := 64, far := 128, cfirst := 0, ccount := 4096 } .active

/-- The other partitions are OFF (13 R277). -/
def Part.resetOff : Part :=
  Part.resetWith 0x400 0 { dies := 0, atl := 4, nq := 0, far := 0, cfirst := 0, ccount := 0 } .off

def Link.reset : Link :=
  { en := false, ethernet := false, state := 0, modeErr := false, peer := 0, replay := 0, crcErr := 0 }

def Filter.reset : Filter :=
  { en := false, link := 0, part := 0, ctx := 0, slotSz := 7, nslot := 0, mtch := 0, mask := 0, base := 0, drops := 0 }

/-- The atelier slices of each die at the default split: 768 to 1,023 (00 R1, 13 R278). -/
def defaultAtelier : List (Nat × Nat) :=
  (List.range Config.dies).flatMap fun d => (List.range 256).map fun i => (d, 768 + i)

/-- The machine right after reset, before bring-up has run a stage (13 R277, 14 R288, 18, 19 R401). -/
def State.reset : State :=
  { cycle := 0, time := 0, timeSub := 0, freeCount := 0, nextId := 0, inbox := [], cur := none, group := [], picked := false, todo := [], mem := [], poison := [],
    atelier := [], atelierPoison := [], atlSlices := defaultAtelier, deadSlices := [], cores := [], drains := [], repairs := [], corrected := [],
    deadDram := [], dramWant := [], marks := [], warm := [], icache := [], fills := [], mhz := Config.nominalMHz, sags := [], powered := true,
    ptpSec := 0, ptpNs := 0, ptpFrac := 0, ptpSub := 0, ptpLatchSec := 0, ptpLatchNs := 0, ptpFreq := 0, stage := 0, halt := false,
    dieOut := 0, atex := false, therm := false, thermAt := 0, failStage := none, failDies := 0, failCores := [], firmware := none, fwKeyDigest := List.replicate 32 0, attestIdx := 0, attestEnd := 1048576,
    fwDigest := List.replicate 32 0, fwVersion := 0, fid := 0, links := Vector.replicate 16 Link.reset,
    filters := Vector.replicate 64 Filter.reset, ptpFrames := [], hostAnswer := none, hdmBase := none, caps := [],
    parts := (Vector.replicate 8 Part.resetOff).set 0 Part.reset0, ctxs := [], insts := [], poisoned := [],
    watch := [], unarmed := [], snooped := [], closing := [], packets := [], launches := [], clusters := [], blocks := [], captured := [], nodes := [], credits := [],
    commissions := [], prods := [], ops := [], faults := [], pents := [], outbound := [], nextSeq := [], fabricOut := [], routes := [], results := [],
    reductions := [], remoteHeld := [], respHeld := [] }

end Sys2Proof.Machine
end

