-- ==== Sys2Proof/Machine/Flags.lean ====
section
/-! DEFINITION. The floating-point flags of sr.fpst (02 R45) and the numbers they are raised on: exact values, rounding
(03 R58 to R62), and the binary and tapered formats (03 R50 to R56). -/

namespace Sys2Proof.Machine

/-- Flags in the bit order of sr.fpst (02 R45). -/
abbrev Flags := BitVec 5

def flNV : Flags := 16

def flDZ : Flags := 8

def flOF : Flags := 4

def flUF : Flags := 2

def flNX : Flags := 1

def flIf (b : Bool) (f : Flags) : Flags := if b then f else 0

/-- An exact value (03 R64 Decode): a finite one is (-1)^neg × m × 2^e with m > 0, plus something positive below one unit of
m when st holds (a value known to lie strictly between two units). NaR is a quiet NaN (03 R60). -/
inductive Num where
  | zero (neg : Bool)
  | fin (neg : Bool) (m : Nat) (e : Int) (st : Bool)
  | inf (neg : Bool)
  | nan (signalling : Bool)
deriving DecidableEq, Repr

/-- Rounding modes (03 R58). -/
inductive RM where
  | rne | rtz | rup | rdn | rna
deriving DecidableEq, Repr

/-- The code of a mode (02 R45). -/
def RM.code : RM → Nat
  | .rne => 0
  | .rtz => 1
  | .rup => 2
  | .rdn => 3
  | .rna => 4

/-- The mode of a code 0 to 4; the codes 5 to 7 never stand in sr.rm (02 R45). -/
def RM.ofCode (c : BitVec 3) : RM :=
  match c.toNat with
  | 0 => .rne | 1 => .rtz | 2 => .rup | 3 => .rdn | _ => .rna

/-- The eight floating-point formats (03 R50). -/
inductive Fmt where
  | f64 | f32 | f16 | bf16 | e4m3 | e5m2 | tf8 | tf6
deriving DecidableEq, Repr

def Fmt.ofCode (n : Nat) : Fmt :=
  match n with
  | 0 => .f64 | 1 => .f32 | 2 => .f16 | 3 => .bf16 | 4 => .e4m3 | 5 => .e5m2 | 6 => .tf8 | _ => .tf6

/-- Width of the slot an element occupies (08 R176). -/
def Fmt.slot : Fmt → Nat
  | .f64 => 64 | .f32 => 32 | .f16 => 16 | .bf16 => 16 | _ => 8

/-- Bits of a code. -/
def Fmt.bits : Fmt → Nat
  | .tf6 => 6
  | f => f.slot

/-- Fraction bits of a binary format (03 R51). -/
def Fmt.frac : Fmt → Nat
  | .f64 => 52 | .f32 => 23 | .f16 => 10 | .bf16 => 7 | .e4m3 => 3 | .e5m2 => 2 | _ => 0

/-- Exponent bias of a binary format (03 R51). -/
def Fmt.bias : Fmt → Nat
  | .f64 => 1023 | .f32 => 127 | .f16 => 15 | .bf16 => 127 | .e4m3 => 7 | .e5m2 => 15 | _ => 0

def Fmt.tapered : Fmt → Bool
  | .tf8 => true | .tf6 => true | _ => false

/-- The sign bit's position. -/
def Fmt.signPos (f : Fmt) : Nat := f.bits - 1

/-- Canonical NaN or NaR (03 R52). -/
def Fmt.canonNaN : Fmt → Nat
  | .f64 => 0x7FF8000000000000
  | .f32 => 0x7FC00000
  | .f16 => 0x7E00
  | .bf16 => 0x7FC0
  | .e5m2 => 0x7E
  | .e4m3 => 0x7F
  | .tf8 => 0x80
  | .tf6 => 0x20

/-- The code of the largest finite magnitude (03 R51, R53). -/
def Fmt.maxCode : Fmt → Nat
  | .f64 => 0x7FEFFFFFFFFFFFFF
  | .f32 => 0x7F7FFFFF
  | .f16 => 0x7BFF
  | .bf16 => 0x7F7F
  | .e5m2 => 0x7B
  | .e4m3 => 0x7E
  | .tf8 => 0x7F
  | .tf6 => 0x1F

/-- The code of +∞ in a format that has one. -/
def Fmt.infCode (f : Fmt) : Nat := f.maxCode + 1

def Fmt.hasInf : Fmt → Bool
  | .e4m3 => false | .tf8 => false | .tf6 => false | _ => true

/-- A code with its sign bit set. -/
def Fmt.signed (f : Fmt) (neg : Bool) (c : Nat) : Nat := if neg then c + 2 ^ f.signPos else c

/-- The run of bits equal to b at the top of an n-bit body (03 R53). -/
def tfRun (body : Nat) (b : Bool) : Nat → Nat
  | 0 => 0
  | n + 1 => if body.testBit n = b then 1 + tfRun body b n else 0

/-- The magnitude of a non-zero tapered body of n bits, as significand and exponent (03 R53 DecodeTF). -/
def tfMag (body n : Nat) : Nat × Int :=
  let b := body.testBit (n - 1)
  let m := tfRun body b n
  let k : Int := if b then (m : Int) - 1 else -(m : Int)
  let restLen := n - m - 1
  let rest := body % 2 ^ restLen
  if restLen = 0 then (1, 2 * k)
  else
    let e := rest / 2 ^ (restLen - 1)
    let fl := restLen - 1
    (2 ^ fl + rest % 2 ^ fl, 2 * k + (e : Int) - (fl : Int))

/-- Decode of a tapered code (03 R53, R54). -/
def decodeTF (f : Fmt) (bits : Nat) : Num :=
  let n := f.bits - 1
  let s := bits.testBit n
  let body := bits % 2 ^ n
  if body = 0 then (if s then .nan false else .zero false)
  else
    let (m, e) := tfMag body n
    .fin s m e false

/-- Decode of a binary code (03 R51). -/
def decodeBin (f : Fmt) (bits : Nat) : Num :=
  let p := f.frac
  let s := bits.testBit f.signPos
  let ew := f.bits - 1 - p
  let ex := bits / 2 ^ p % 2 ^ ew
  let fr := bits % 2 ^ p
  if ex = 0 then
    if fr = 0 then .zero s else .fin s fr (1 - (f.bias : Int) - (p : Int)) false
  else if f = .e4m3 ∧ ex = 15 ∧ fr = 7 then .nan false
  else if f ≠ .e4m3 ∧ ex = 2 ^ ew - 1 then
    if fr = 0 then .inf s else .nan (!fr.testBit (p - 1))
  else .fin s (2 ^ p + fr) ((ex : Int) - (f.bias : Int) - (p : Int)) false

/-- Decode (03 R64). -/
def decodeNum (f : Fmt) (bits : Nat) : Num :=
  if f.tapered then decodeTF f bits else decodeBin f bits

/-- Exp(t) of a non-zero magnitude m × 2^e (03 R64). -/
def expOf (m : Nat) (e : Int) : Int := (Nat.log2 m : Int) + e

/-- Should a magnitude n + r units, with r described by (above half, exactly half, above zero), be rounded up? Odd says that
the lower neighbour's code is odd. -/
def roundUp (rm : RM) (neg odd gtHalf half pos : Bool) : Bool :=
  match rm with
  | .rne => gtHalf || (half && odd)
  | .rtz => false
  | .rup => !neg && pos
  | .rdn => neg && pos
  | .rna => gtHalf || half

/-- The magnitude m × 2^e (and more, when st) in units of 2^q, floored; and what is left: above half, exactly half, above
zero. -/
def splitAt (m : Nat) (e : Int) (st : Bool) (q : Int) : Nat × Bool × Bool × Bool :=
  if q ≤ e then (m * 2 ^ (e - q).toNat, false, false, st)
  else
    let sh := (q - e).toNat
    let n := m / 2 ^ sh
    let r := m % 2 ^ sh
    let h := 2 ^ (sh - 1)
    (n, decide (h < r) || (decide (r = h) && st), decide (r = h) && !st, decide (0 < r) || st)

/-- The magnitude m × 2^e rounded to a multiple of 2^q, and whether it changed. -/
def roundUnits (rm : RM) (neg : Bool) (m : Nat) (e : Int) (st : Bool) (q : Int) : Nat × Bool :=
  let (n, gt, h, pos) := splitAt m e st q
  (if roundUp rm neg (n % 2 == 1) gt h pos then n + 1 else n, pos)

/-- RoundTo of a finite value to a binary format (03 R58, R61, R62): the code and the flags. -/
def roundBin (f : Fmt) (rm : RM) (sat neg : Bool) (m : Nat) (e : Int) (st : Bool) : Nat × Flags :=
  let p := f.frac
  let emin : Int := 1 - (f.bias : Int)
  let ex := expOf m e
  let qmin := emin - (p : Int)
  let q := max (ex - (p : Int)) qmin
  let (n, inexact) := roundUnits rm neg m e st q
  let code := (q - qmin).toNat * 2 ^ p + n
  let (nu, _) := roundUnits rm neg m e st (ex - (p : Int))
  let tiny := decide (ex < emin) && !(decide (ex = emin - 1) && nu == 2 ^ (p + 1))
  if f.maxCode < code then
    let toMax :=
      sat || (match rm with
        | .rne => false | .rna => false | .rtz => true | .rup => neg | .rdn => !neg)
    if f = .e4m3 then
      (if sat then f.signed neg f.maxCode else f.canonNaN, flOF ||| flNX)
    else (f.signed neg (if toMax then f.maxCode else f.infCode), flOF ||| flNX)
  else (f.signed neg code, flIf (tiny && inexact) flUF ||| flIf inexact flNX)

/-- The magnitude of a tapered body in units of 2^-15; every code and every midpoint is a whole number of them. -/
def tfUnits (f : Fmt) (body : Nat) : Nat :=
  if body = 0 then 0
  else
    let (m, e) := tfMag body (f.bits - 1)
    m * 2 ^ (e + 15).toNat

/-- The largest body whose magnitude is at most n units, found bit by bit. -/
def tfFloor (f : Fmt) (n : Nat) : Nat → Nat → Nat
  | 0, b => b
  | k + 1, b =>
    let c := b + 2 ^ k
    tfFloor f n k (if tfUnits f c ≤ n then c else b)

/-- RoundTo of a finite value to a tapered format (03 R58, R61, R62). -/
def roundTF (f : Fmt) (rm : RM) (neg : Bool) (m : Nat) (e : Int) (st : Bool) : Nat × Flags :=
  let (n, _, _, rest) := splitAt m e st (-15)
  let top := tfUnits f f.maxCode
  if top < n ∨ (n = top ∧ rest) then (f.signed neg f.maxCode, flOF ||| flNX)
  else
    let b := tfFloor f n (f.bits - 1) 0
    let lo := tfUnits f b
    if lo = n ∧ !rest then (f.signed neg b, 0)
    else
      let mid2 := lo + tfUnits f (b + 1)
      let gt := decide (mid2 < 2 * n) || (decide (2 * n = mid2) && rest)
      let h := decide (2 * n = mid2) && !rest
      let c := if roundUp rm neg (b % 2 == 1) gt h true then b + 1 else b
      (if c = 0 then 0 else f.signed neg c, flIf (b == 0) flUF ||| flNX)

/-- RoundTo (03 R62): the code of format f for an exact value, with the flags of the rounding. -/
def roundTo (f : Fmt) (rm : RM) (sat : Bool) : Num → Nat × Flags
  | .zero neg => (if f.tapered then 0 else f.signed neg 0, 0)
  | .nan _ => (f.canonNaN, 0)
  | .inf neg =>
    if f.tapered then (f.canonNaN, flNV)
    else if f = .e4m3 then (if sat then f.signed neg f.maxCode else f.canonNaN, flNV)
    else if sat then (f.signed neg f.maxCode, flNV)
    else (f.signed neg f.infCode, 0)
  | .fin neg m e st => if f.tapered then roundTF f rm neg m e st else roundBin f rm sat neg m e st

def Num.isNaN : Num → Bool
  | .nan _ => true
  | _ => false

def Num.isSNaN : Num → Bool
  | .nan s => s
  | _ => false

def Num.isInf : Num → Bool
  | .inf _ => true
  | _ => false

def Num.isZero : Num → Bool
  | .zero _ => true
  | _ => false

def Num.sign : Num → Bool
  | .zero n => n
  | .fin n _ _ _ => n
  | .inf n => n
  | .nan _ => false

def Num.neg : Num → Num
  | .zero n => .zero (!n)
  | .fin n m e st => .fin (!n) m e st
  | .inf n => .inf (!n)
  | .nan s => .nan s

/-- A finite value as a signed count of 2^q, for q at most its exponent. -/
def Num.units (q : Int) : Num → Int
  | .fin n m e _ => (if n then -1 else 1) * ((m * 2 ^ (e - q).toNat : Nat) : Int)
  | _ => 0

/-- The value of a signed count of 2^q; z is the sign of a zero. -/
def numOfUnits (z : Bool) (v : Int) (q : Int) : Num :=
  if v = 0 then .zero z else .fin (decide (v < 0)) v.natAbs q false

def Num.exponent : Num → Int
  | .fin _ _ e _ => e
  | _ => 0

/-- Flags of a NaN operand (03 R60). -/
def snanFlag (x : Num) : Flags := flIf x.isSNaN flNV

/-- The exact sum, with NV where it is invalid (03 R59, R61). -/
def addNum (rm : RM) (x y : Num) : Num × Flags :=
  let fl := snanFlag x ||| snanFlag y
  match x, y with
  | .nan _, _ => (.nan false, fl)
  | _, .nan _ => (.nan false, fl)
  | .inf a, .inf b => if a = b then (.inf a, 0) else (.nan false, flNV)
  | .inf a, _ => (.inf a, 0)
  | _, .inf b => (.inf b, 0)
  | .zero a, .zero b => (if a = b then .zero a else .zero (decide (rm = .rdn)), 0)
  | .zero _, v => (v, 0)
  | v, .zero _ => (v, 0)
  | v, w =>
    let q := min v.exponent w.exponent
    (numOfUnits (decide (rm = .rdn)) (v.units q + w.units q) q, 0)

/-- The exact product, with NV where it is invalid. -/
def mulNum (x y : Num) : Num × Flags :=
  let fl := snanFlag x ||| snanFlag y
  let s := x.sign ^^ y.sign
  match x, y with
  | .nan _, _ => (.nan false, fl)
  | _, .nan _ => (.nan false, fl)
  | .inf _, .zero _ => (.nan false, flNV)
  | .zero _, .inf _ => (.nan false, flNV)
  | .inf _, _ => (.inf s, 0)
  | _, .inf _ => (.inf s, 0)
  | .zero _, _ => (.zero s, 0)
  | _, .zero _ => (.zero s, 0)
  | .fin _ m e _, .fin _ n g _ => (.fin s (m * n) (e + g) false, 0)

/-- x × y + z unrounded (08 R179). -/
def fmaNum (rm : RM) (x y z : Num) : Num × Flags :=
  let (p, f1) := mulNum x y
  let (r, f2) := addNum rm p z
  (r, f1 ||| f2)

/-- The exact quotient, its significand cut at 128 bits or more with the rest told by st (03 R61). -/
def divNum (x y : Num) : Num × Flags :=
  let fl := snanFlag x ||| snanFlag y
  let s := x.sign ^^ y.sign
  match x, y with
  | .nan _, _ => (.nan false, fl)
  | _, .nan _ => (.nan false, fl)
  | .inf _, .inf _ => (.nan false, flNV)
  | .zero _, .zero _ => (.nan false, flNV)
  | .inf _, _ => (.inf s, 0)
  | _, .inf _ => (.zero s, 0)
  | .zero _, _ => (.zero s, 0)
  | .fin .., .zero _ => (.inf s, flDZ)
  | .fin _ m e _, .fin _ n g _ =>
    let num := m * 2 ^ 192
    (.fin s (num / n) (e - g - 192) (num % n ≠ 0), 0)

/-- The order of two values that are no NaN: zeros are equal (03 R60, 08 R180). -/
def numLt (x y : Num) : Bool :=
  match x, y with
  | .nan _, _ => false
  | _, .nan _ => false
  | .inf a, .inf b => a && !b
  | .inf a, _ => a
  | _, .inf b => !b
  | v, w =>
    let q := min v.exponent w.exponent
    decide (v.units q < w.units q)

def numEq (x y : Num) : Bool := !x.isNaN && !y.isNaN && !numLt x y && !numLt y x

/-- A value rounded to an integer by a mode, and whether it changed. -/
def toInteger (rm : RM) : Num → Int × Bool
  | .fin neg m e st =>
    let (n, inexact) := roundUnits rm neg m e st 0
    (if neg then -(n : Int) else n, inexact)
  | _ => (0, false)

/-- The range of an integer type of width w (03 R57). -/
def intMin (signed : Bool) (w : Nat) : Int := if signed then -(2 ^ (w - 1) : Int) else 0

def intMax (signed : Bool) (w : Nat) : Int := if signed then 2 ^ (w - 1) - 1 else 2 ^ w - 1

/-- WrapInt as a code of w bits (03 R57). -/
def wrapInt (w : Nat) (v : Int) : Nat := (v % (2 ^ w : Int)).toNat

/-- SatInt as a code of w bits (03 R57). -/
def satInt (signed : Bool) (w : Nat) (v : Int) : Nat :=
  wrapInt w (max (intMin signed w) (min (intMax signed w) v))

/-- WrapInt, or SatInt when sat holds. -/
def reduceInt (sat signed : Bool) (w : Nat) (v : Int) : Nat :=
  if sat then satInt signed w v else wrapInt w v

/-- The value of a code of w bits. -/
def intVal (signed : Bool) (w : Nat) (c : Nat) : Int :=
  if signed && c.testBit (w - 1) then (c : Int) - 2 ^ w else c

/-- ToInt (03 R63): the code and the flags of FTOI. -/
def toInt (signed : Bool) (w : Nat) (rm : RM) (sat : Bool) (x : Num) : Nat × Flags :=
  match x with
  | .nan _ => (0, flNV)
  | .inf neg => (if sat then satInt signed w (if neg then -(2 ^ 70 : Int) else 2 ^ 70) else 0, flNV)
  | .zero _ => (0, 0)
  | .fin .. =>
    let (v, inexact) := toInteger rm x
    if intMin signed w ≤ v ∧ v ≤ intMax signed w then (wrapInt w v, flIf inexact flNX)
    else (reduceInt sat signed w v, flNV)

/-- An integer as an exact value. -/
def numOfInt (v : Int) : Num := numOfUnits false v 0

/-- WindowSum (03 R66) of the non-zero finite terms. -/
def windowSum (terms : List Num) : Num :=
  let nz := terms.filterMap fun t => match t with
    | .fin n m e _ => some (n, m, e)
    | _ => none
  match nz with
  | [] => .zero false
  | (_, m0, e0) :: rest =>
    let top := rest.foldl (fun a t => max a (expOf t.2.1 t.2.2)) (expOf m0 e0)
    let q := top - 63
    let v := nz.foldl (fun (a : Int) (t : Bool × Nat × Int) =>
      let (n, _, _, _) := splitAt t.2.1 t.2.2 false q
      if t.1 then a - n else a + n) 0
    numOfUnits false v q

/-- The exact sum of finite terms (03 R67); an exact zero of several terms is +0 (03 R59), and a sum of zeros has the sign they
share. -/
def exactSum (terms : List Num) : Num :=
  match terms with
  | [] => .zero false
  | t :: rest => rest.foldl (fun a b => (addNum .rne a b).1) t

end Sys2Proof.Machine
end

