-- ==== Sys2Proof/Machine/Special.lean ====
section
/-! DEFINITION. The special functions of 08 R183. Square roots and reciprocals are cut exactly; the transcendental ones are
enclosed between two integers at a working precision that is doubled until both ends round to the same code (log 10). -/

namespace Sys2Proof.Machine

/-- The largest r with r² at most n, found bit by bit from bit k - 1 down. -/
def isqrtFrom (n : Nat) : Nat → Nat → Nat
  | 0, r => r
  | k + 1, r =>
    let c := r + 2 ^ k
    isqrtFrom n k (if c * c ≤ n then c else r)

def isqrt (n : Nat) : Nat := isqrtFrom n (Nat.log2 n / 2 + 1) 0

/-- √x cut at 128 bits or more. -/
def sqrtNum (x : Num) : Num × Flags :=
  match x with
  | .nan s => (.nan false, flIf s flNV)
  | .zero s => (.zero s, 0)
  | .inf false => (.inf false, 0)
  | .inf true => (.nan false, flNV)
  | .fin true _ _ _ => (.nan false, flNV)
  | .fin false m e _ =>
    let (m, e) := if e % 2 = 0 then (m, e) else (2 * m, e - 1)
    let n := m * 2 ^ 256
    let r := isqrt n
    (.fin false r (e / 2 - 128) (r * r ≠ n), 0)

/-- 1 / √x cut at 128 bits or more. -/
def rsqrtNum (x : Num) : Num × Flags :=
  match x with
  | .nan s => (.nan false, flIf s flNV)
  | .zero s => (.inf s, flDZ)
  | .inf false => (.zero false, 0)
  | .inf true => (.nan false, flNV)
  | .fin true _ _ _ => (.nan false, flNV)
  | .fin false m e _ =>
    let (m, e) := if e % 2 = 0 then (m, e) else (2 * m, e - 1)
    let r := isqrt (2 ^ 400 / m)
    (.fin false r (-(e / 2) - 200) (r * r * m ≠ 2 ^ 400), 0)

/-- An enclosure lo × 2^e to hi × 2^e of a positive real. -/
structure Enclosure where
  lo : Nat
  hi : Nat
  e : Int
deriving DecidableEq, Repr

/-- Slack in units of the working precision: an upper bound of what the truncations of one evaluation add up to. -/
def encSlack : Nat := 2 ^ 24

/-- a at exponent -p, give or take the slack. -/
def encOf (a p : Nat) : Enclosure := { lo := a - encSlack, hi := a + encSlack, e := -(p : Int) }

/-- Σ over k < n of the terms of 2 × artanh(z) / z = 2 (1 + z²/3 + z⁴/5 + …) at precision p; t is z^2k, z2 is z². -/
def artanhSum (p z2 : Nat) : Nat → Nat → Nat → Nat
  | 0, _, _ => 0
  | n + 1, k, t => 2 * t / (2 * k + 1) + artanhSum p z2 n (k + 1) (t * z2 / 2 ^ p)

/-- ln 2 at precision p, from 2 artanh(1/3). -/
def ln2At (p : Nat) : Nat := artanhSum p (2 ^ p / 9) (p / 3 + 8) 0 (2 ^ p / 3)

/-- artanh-like alternating sum for arctan(1/d) at precision p: t is 1/d^(2k+1). -/
def arctanSum (p d2 : Nat) : Nat → Nat → Nat → Int
  | 0, _, _ => 0
  | n + 1, k, t => (if k % 2 = 0 then 1 else -1) * ((t / (2 * k + 1) : Nat) : Int) + arctanSum p d2 n (k + 1) (t / d2)

/-- π at precision p, by Machin's formula. -/
def piAt (p : Nat) : Nat :=
  (16 * arctanSum p 25 (p / 4 + 8) 0 (2 ^ p / 5) - 4 * arctanSum p 57121 (p / 15 + 8) 0 (2 ^ p / 239)).toNat

/-- Σ t^k/k! at precision p for 0 ≤ y < 1; t is the running term. -/
def expSum (p y : Nat) : Nat → Nat → Nat → Nat
  | 0, _, _ => 0
  | n + 1, k, t => t + expSum p y n (k + 1) (t * y / ((k + 1) * 2 ^ p))

/-- Σ (-1)^k y^2k / (2k+1)! at precision p, with y2 = y². -/
def sincSum (p y2 : Nat) : Nat → Nat → Nat → Int
  | 0, _, _ => 0
  | n + 1, k, t =>
    (if k % 2 = 0 then 1 else -1) * (t : Int) + sincSum p y2 n (k + 1) (t * y2 / ((2 * k + 2) * (2 * k + 3) * 2 ^ p))

/-- m × 2^e at precision p, floored. -/
def fixAt (m : Nat) (e : Int) (p : Nat) : Nat := (splitAt m e false (-(p : Int))).1

/-- 2^r for 0 ≤ r < 1, r = m × 2^e. -/
def exp2Frac (m : Nat) (e : Int) (p : Nat) : Enclosure :=
  let y := fixAt m e p * ln2At p / 2 ^ p
  encOf (expSum p y (p / 2 + 8) 0 (2 ^ p)) p

/-- 2^x for a finite x that is no integer; |x| is below 2^12. -/
def exp2Enc (neg : Bool) (m : Nat) (e : Int) (p : Nat) : Enclosure :=
  let d := (-e).toNat
  let ip : Int := (if neg then -(m : Int) else m) / (2 ^ d : Nat)
  let fr := ((if neg then -(m : Int) else m) % (2 ^ d : Nat)).toNat
  let en := exp2Frac fr e p
  { en with e := en.e + ip }

/-- |log2 x| for a positive finite x that is no power of two. -/
def log2Enc (m : Nat) (e : Int) (p : Nat) : Bool × Enclosure :=
  -- x = 2^k × (m / 2^l), with m / 2^l between √½ and √2
  let l0 := Nat.log2 m
  let big := decide (2 * 2 ^ (2 * l0) < m * m)
  let l := if big then l0 + 1 else l0
  let k : Int := e + (l : Int)
  let den := m + 2 ^ l
  let up := decide (2 ^ l < m)
  let num := if up then m - 2 ^ l else 2 ^ l - m
  let z := num * 2 ^ p / den
  let s := artanhSum p (z * z / 2 ^ p) (p / 4 + 8) 0 (2 ^ p)
  -- log2 f = s × (num / den) / ln 2
  let q := s * 2 ^ p / ln2At p
  if k = 0 then
    (!up, { lo := (q - encSlack) * num * 2 ^ 64 / den, hi := (q + encSlack) * num * 2 ^ 64 / den + 1,
            e := -(p : Int) - 64 })
  else
    let f : Int := ((q * num / den : Nat) : Int)
    let v : Int := k * 2 ^ p + (if up then f else -f)
    (decide (v < 0), encOf v.natAbs p)

/-- sin(π r) for r = m × 2^e between 0 and ½, r > 0. -/
def sinPiEnc (m : Nat) (e : Int) (p : Nat) : Enclosure :=
  let y := piAt p * fixAt m e p / 2 ^ p
  let s := (sincSum p (y * y / 2 ^ p) (p / 3 + 8) 0 (2 ^ p)).toNat
  let a := s * piAt p / 2 ^ p
  { lo := (a - encSlack) * m, hi := (a + encSlack) * m, e := e - (p : Int) }

/-- tanh |x| for |x| from 2^-60 to 64. -/
def tanhEnc (m : Nat) (e : Int) (p : Nat) : Enclosure :=
  let p := p + 128
  -- t = exp(-2|x|) = 1 / exp(2|x| / 256)^256
  let y := fixAt m (e + 1 - 8) p
  let g := expSum p y (p / 2 + 8) 0 (2 ^ p)
  let sq := fun (a : Nat) => a * a / 2 ^ p
  let r := 2 ^ (2 * p) / g
  let t := sq (sq (sq (sq (sq (sq (sq (sq r)))))))
  let one := 2 ^ p
  let lo := (one - (t + encSlack)) * 2 ^ p / (one + t + encSlack)
  let hi := (one - (t - encSlack)) * 2 ^ p / (one + t - encSlack) + 1
  { lo := lo, hi := hi, e := -(p : Int) }

/-- Both ends of the enclosure round alike at some precision: the exact value's code and flags, which are NX at least. The
last precision's lower end stands when none does (log 10). -/
def zivRound (f : Fmt) (neg : Bool) (enc : Nat → Enclosure) : Nat → Nat → Nat × Flags
  | 0, p => let en := enc p; roundTo f .rne false (.fin neg en.lo en.e true)
  | k + 1, p =>
    let en := enc p
    let a := roundTo f .rne false (.fin neg en.lo en.e true)
    let b := roundTo f .rne false (.fin neg (en.hi - 1) en.e true)
    if 0 < en.lo ∧ a = b then a else zivRound f neg enc k (2 * p)

/-- Precisions tried: 256 to 8192 bits. -/
def ziv (f : Fmt) (neg : Bool) (enc : Nat → Enclosure) : Nat × Flags := zivRound f neg enc 5 256

/-- Is m × 2^e an integer? -/
def isInteger (m : Nat) (e : Int) : Bool := decide (0 ≤ e) || decide (m % 2 ^ (-e).toNat = 0)

def special (f : Fmt) (r : Num × Flags) : Nat × Flags :=
  let (c, fl) := roundTo f .rne false r.1
  (c, fl ||| r.2)

def sqrtOp (f : Fmt) (rm : RM) (x : Num) : Nat × Flags :=
  let (v, fl) := sqrtNum x
  let (c, g) := roundTo f rm false v
  (c, fl ||| g)

def rcpOp (f : Fmt) (rm : RM) (x : Num) : Nat × Flags :=
  let (v, fl) := divNum (.fin false 1 0 false) x
  let (c, g) := roundTo f rm false v
  (c, fl ||| g)

def rsqOp (f : Fmt) (x : Num) : Nat × Flags := special f (rsqrtNum x)

def exp2Op (f : Fmt) (x : Num) : Nat × Flags :=
  match x with
  | .nan s => special f (.nan false, flIf s flNV)
  | .zero _ => special f (.fin false 1 0 false, 0)
  | .inf neg => special f (if neg then .zero false else .inf false, 0)
  | .fin neg m e _ =>
    if 12 ≤ expOf m e then special f (.fin false 1 (if neg then -6000 else 6000) (!isInteger m e), 0)
    else if isInteger m e then
      special f (.fin false 1 (toInteger .rtz x).1 false, 0)
    else ziv f false (exp2Enc neg m e)

def log2Op (f : Fmt) (x : Num) : Nat × Flags :=
  match x with
  | .nan s => special f (.nan false, flIf s flNV)
  | .zero _ => special f (.inf true, flDZ)
  | .inf false => special f (.inf false, 0)
  | .inf true => special f (.nan false, flNV)
  | .fin true _ _ _ => special f (.nan false, flNV)
  | .fin false m e _ =>
    if 2 ^ Nat.log2 m = m then special f (numOfInt (expOf m e), 0)
    else ziv f (log2Enc m e 64).1 (fun p => (log2Enc m e p).2)

/-- x reduced modulo 2: the sign of the result's half-turn and the argument m × 2^e in [0, 1). -/
def halfTurns (m : Nat) (e : Int) : Bool × Nat :=
  let d := (-e).toNat
  let r := if 0 ≤ e then (m * 2 ^ e.toNat) % 2 else m % 2 ^ (d + 1)
  if 0 ≤ e then (r == 1, 0) else (decide (2 ^ d ≤ r), r % 2 ^ d)

/-- sin(π r × 2^e) rounded, for 0 < r × 2^e < 1. -/
def sinPiRound (f : Fmt) (neg : Bool) (r : Nat) (e : Int) : Nat × Flags :=
  let one := 2 ^ (-e).toNat
  let r := if one < 2 * r then one - r else r
  if 2 * r = one then roundTo f .rne false (.fin neg 1 0 false)
  else ziv f neg (sinPiEnc r e)

def sinOp (f : Fmt) (x : Num) : Nat × Flags :=
  match x with
  | .nan s => special f (.nan false, flIf s flNV)
  | .zero s => special f (.zero s, 0)
  | .inf _ => special f (.nan false, flNV)
  | .fin neg m e _ =>
    let (h, r) := halfTurns m e
    if r = 0 then special f (.zero neg, 0) else sinPiRound f (neg ^^ h) r e

def cosOp (f : Fmt) (x : Num) : Nat × Flags :=
  match x with
  | .nan s => special f (.nan false, flIf s flNV)
  | .zero _ => special f (.fin false 1 0 false, 0)
  | .inf _ => special f (.nan false, flNV)
  | .fin _ m e _ =>
    let (h, r) := halfTurns m e
    if r = 0 then special f (.fin h 1 0 false, 0)
    else
      -- cos(π r) = sin(π (½ - r)), negative beyond ½; in units of 2^(e-1)
      let half := 2 ^ (-e).toNat
      let r2 := 2 * r
      if r2 = half then special f (.zero false, 0)
      else
        let neg := decide (half < r2)
        sinPiRound f (h ^^ neg) (if neg then r2 - half else half - r2) (e - 1)

def tanhOp (f : Fmt) (x : Num) : Nat × Flags :=
  match x with
  | .nan s => special f (.nan false, flIf s flNV)
  | .zero s => special f (.zero s, 0)
  | .inf s => special f (.fin s 1 0 false, 0)
  | .fin neg m e _ =>
    let ex := expOf m e
    if ex < -59 then special f (.fin neg (m * 2 ^ 64 - 1) (e - 64) true, 0)
    else if 6 ≤ ex then special f (.fin neg (2 ^ 128 - 1) (-128) true, 0)
    else ziv f neg (tanhEnc m e)

def exptOp (f : Fmt) (x : Num) : Nat × Flags :=
  match x with
  | .nan s => special f (.nan false, flIf s flNV)
  | .zero _ => special f (.inf true, flDZ)
  | .inf _ => special f (.inf false, 0)
  | .fin _ m e _ => special f (numOfInt (expOf m e), 0)

end Sys2Proof.Machine
end

