-- ==== Sys2Proof/Machine/Operands.lean ====
section
/-! DEFINITION. Operands: naming registers through the window (02 R36, R37), mask registers (02 R42), the prefix's fields
(06 R132 to R135), elements of a register (02 R49, 08 R176), immediates, and the element operations of 07 and 08. -/

namespace Sys2Proof.Machine

/-- y register n of a thread. -/
def Thread.y (t : Thread) (n : Nat) : Word := t.regs[n % 256]'(Nat.mod_lt _ (by decide))

/-- Full bit of y register n. -/
def Thread.yFull (t : Thread) (n : Nat) : Bool := t.full[n % 256]'(Nat.mod_lt _ (by decide))

/-- y register n with a value and marked full. -/
def Thread.setY (t : Thread) (n : Nat) (v : Word) : Thread :=
  { t with regs := t.regs.set (n % 256) v (Nat.mod_lt _ (by decide)),
           full := t.full.set (n % 256) true (Nat.mod_lt _ (by decide)) }

/-- y register n marked empty. -/
def Thread.emptyY (t : Thread) (n : Nat) : Thread :=
  { t with full := t.full.set (n % 256) false (Nat.mod_lt _ (by decide)) }

/-- The y register that xi names under the window base (02 R36). -/
def Thread.yOf (t : Thread) (x : Reg) : Nat := t.wb + x.toNat

/-- The value of xi; x0 reads zero (02 R36). -/
def Thread.readX (t : Thread) (x : Reg) : Word := if x = 0 then 0 else t.y (t.yOf x)

/-- The full bit of xi; x0 is always full (02 R36). -/
def Thread.xFull (t : Thread) (x : Reg) : Bool := x == 0 || t.yFull (t.yOf x)

/-- WriteReg without its wait (07 R147); a write to x0 is discarded. -/
def Thread.writeX (t : Thread) (x : Reg) (v : Word) : Thread := if x = 0 then t else t.setY (t.yOf x) v

/-- A long-latency producer marks its destination empty; x0 has no full bit (02 R38). -/
def Thread.emptyX (t : Thread) (x : Reg) : Thread := if x = 0 then t else t.emptyY (t.yOf x)

/-- The y register a producer fills: none for x0 (02 R38). -/
def Thread.dstY (t : Thread) (x : Reg) : Option Nat := if x = 0 then none else some (t.yOf x)

/-- x(i + j) of a register block. One that runs past x127 goes on with y(WB + 128) and up: 02 R36 names x0 to x127 alone (DESIGN
CHOICE, log 90). -/
def regPlus (x : Reg) (j : Nat) : Nat := x.toNat + j

/-- The value of the x register of number n, which in a block of registers may be up to 142: then that of y(WB + n)
(DESIGN CHOICE, log 90). -/
def Thread.readN (t : Thread) (n : Nat) : Word := if n = 0 then 0 else t.y (t.wb + n)

def Thread.nFull (t : Thread) (n : Nat) : Bool := n == 0 || t.yFull (t.wb + n)

def Thread.writeN (t : Thread) (n : Nat) (v : Word) : Thread := if n = 0 then t else t.setY (t.wb + n) v

/-- Mask register i: k0 reads all ones (02 R42). -/
def Thread.kReg (t : Thread) (i : BitVec 3) : Byte := if i = 0 then 0xFF else t.k[i.toNat]'(i.isLt)

/-- A write to mask register i; a write to k0 is discarded (02 R42). -/
def Thread.writeK (t : Thread) (i : BitVec 3) (v : Byte) : Thread :=
  if i = 0 then t else { t with k := t.k.set i.toNat v i.isLt }

/-- Length of the instruction in bytes: 8 with a prefix (06 R122). -/
def pfxLen (p : Option Pfx) : Nat := if p.isSome then 8 else 4

/-- The enabling mask register's contents: all ones without one (06 R134). -/
def enableMask (p : Option Pfx) (t : Thread) : Byte :=
  match p with
  | some q => t.kReg q.mask
  | none => 0xFF

/-- Active() of a whole-thread instruction: bit 0 of the enabling mask (07 R147, 06 R134). -/
def active (p : Option Pfx) (t : Thread) : Bool := (enableMask p t).getLsbD 0

def pfxZero (p : Option Pfx) : Bool := match p with
  | some q => q.zero
  | none => false

def pfxSat (p : Option Pfx) : Bool := match p with
  | some q => q.sat
  | none => false

/-- EffRM (03 R58). -/
def effRM (p : Option Pfx) (t : Thread) : RM :=
  match p with
  | some q => if q.rm = 7 then RM.ofCode t.rm else RM.ofCode q.rm
  | none => RM.ofCode t.rm

/-- EffRM as a descriptor's byte 9 records it (16 R338). -/
def rmAt (p : Option Pfx) (t : Thread) : Nat := (effRM p t).code

/-- ElemOn(m, b) of a mask register's contents (08 R176). -/
def elemOn (k : Byte) (m b : Nat) : Bool := k.getLsbD (m * (b / 8))

/-- Elem(v, m, b) (08 R176). -/
def elem (v : Word) (m b : Nat) : Nat := v.toNat / 2 ^ (m * b) % 2 ^ b

/-- The value ElemWrite builds (08 R176): active elements from r, others merged or zeroed, and the bits above n elements from
hi, which is given the value of the n elements placed. -/
def elemBuild (k : Byte) (zero : Bool) (old : Word) (b n : Nat) (r : Nat → Nat) (hi : Nat → Nat) : Word :=
  let w := (List.range n).foldl (fun acc m =>
    acc + (if elemOn k m b then r m % 2 ^ b else if zero then 0 else elem old m b) * 2 ^ (m * b)) 0
  BitVec.ofNat 64 (w + hi w)

/-- Sign extension of the low b bits to 64. -/
def sextTo (b : Nat) (v : Nat) : Word := BitVec.ofInt 64 (intVal true b (v % 2 ^ b))

/-- The shape of FP-A, FP-B, FP-C (08 R177). -/
def fpFmt (typ : BitVec 2) : Fmt := Fmt.ofCode typ.toNat

/-- Elements of a format in a register. -/
def Fmt.count (f : Fmt) : Nat := 64 / f.slot

/-- A result per active element and the OR of the active elements' flags (08 R178, 03 R61). -/
def elemFlags (k : Byte) (b n : Nat) (r : Nat → Nat × Flags) : Flags :=
  (List.range n).foldl (fun fl m => if elemOn k m b then fl ||| (r m).2 else fl) 0

/-- All ones of b bits, or 0. -/
def maskOf (b : Nat) (c : Bool) : Nat := if c then 2 ^ b - 1 else 0

/-- FADD (08 R178). -/
def opFadd (f : Fmt) (rm : RM) (sat : Bool) (x y : Nat) : Nat × Flags :=
  let (v, fl) := addNum rm (decodeNum f x) (decodeNum f y)
  let (c, g) := roundTo f rm sat v
  (c, fl ||| g)

/-- FSUB (08 R178): x + (-y); a signalling NaN stays one. -/
def opFsub (f : Fmt) (rm : RM) (sat : Bool) (x y : Nat) : Nat × Flags :=
  let (v, fl) := addNum rm (decodeNum f x) (decodeNum f y).neg
  let (c, g) := roundTo f rm sat v
  (c, fl ||| g)

/-- FMUL (08 R178). -/
def opFmul (f : Fmt) (rm : RM) (sat : Bool) (x y : Nat) : Nat × Flags :=
  let (v, fl) := mulNum (decodeNum f x) (decodeNum f y)
  let (c, g) := roundTo f rm sat v
  (c, fl ||| g)

/-- FDIV (08 R178). -/
def opFdiv (f : Fmt) (rm : RM) (sat : Bool) (x y : Nat) : Nat × Flags :=
  let (v, fl) := divNum (decodeNum f x) (decodeNum f y)
  let (c, g) := roundTo f rm sat v
  (c, fl ||| g)

/-- FMA (08 R179): one rounding; 0 × ∞ raises NV whatever the addend. -/
def opFma (f : Fmt) (rm : RM) (sat : Bool) (x y z : Nat) : Nat × Flags :=
  let (v, fl) := fmaNum rm (decodeNum f x) (decodeNum f y) (decodeNum f z)
  let (c, g) := roundTo f rm sat v
  (c, fl ||| g ||| snanFlag (decodeNum f z))

/-- Is x less than y with −0 below +0 (08 R180)? Neither is a NaN. -/
def minLess (x y : Num) : Bool :=
  numLt x y || (x.isZero && y.isZero && x.sign && !y.sign)

/-- FMIN (08 R180). -/
def opFmin (f : Fmt) (x y : Nat) : Nat × Flags :=
  let a := decodeNum f x
  let b := decodeNum f y
  let fl := snanFlag a ||| snanFlag b
  if a.isNaN && b.isNaN then (f.canonNaN, fl)
  else if a.isNaN then (y, fl)
  else if b.isNaN then (x, fl)
  else (if minLess b a then y else x, fl)

/-- FMAX (08 R180). -/
def opFmax (f : Fmt) (x y : Nat) : Nat × Flags :=
  let a := decodeNum f x
  let b := decodeNum f y
  let fl := snanFlag a ||| snanFlag b
  if a.isNaN && b.isNaN then (f.canonNaN, fl)
  else if a.isNaN then (y, fl)
  else if b.isNaN then (x, fl)
  else (if minLess a b then y else x, fl)

/-- FCMPLT (08 R180): signalling. -/
def opFcmplt (f : Fmt) (x y : Nat) : Nat × Flags :=
  let a := decodeNum f x
  let b := decodeNum f y
  (maskOf f.slot (numLt a b), flIf (a.isNaN || b.isNaN) flNV)

/-- FCMPEQ (08 R180): quiet. -/
def opFcmpeq (f : Fmt) (x y : Nat) : Nat × Flags :=
  let a := decodeNum f x
  let b := decodeNum f y
  (maskOf f.slot (numEq a b), snanFlag a ||| snanFlag b)

/-- FCMPLE (08 R180): signalling. -/
def opFcmple (f : Fmt) (x y : Nat) : Nat × Flags :=
  let a := decodeNum f x
  let b := decodeNum f y
  (maskOf f.slot (numLt a b || numEq a b), flIf (a.isNaN || b.isNaN) flNV)

/-- FCMPUN (08 R180): quiet. -/
def opFcmpun (f : Fmt) (x y : Nat) : Nat × Flags :=
  let a := decodeNum f x
  let b := decodeNum f y
  (maskOf f.slot (a.isNaN || b.isNaN), snanFlag a ||| snanFlag b)

/-- FCOPYSIGN (08 R178): bits only. -/
def opFcopysign (f : Fmt) (x y : Nat) : Nat × Flags :=
  (x % 2 ^ f.signPos + (if y.testBit f.signPos then 2 ^ f.signPos else 0), 0)

/-- FABS and FNEG (08 R184): the sign bit alone; a tapered word whose body is zero keeps its code. TF6 is read from bits
[5:0] and written with bits [7:6] zero (03 R54). -/
def opSign (f : Fmt) (flip : Bool) (x : Nat) : Nat × Flags :=
  let c := x % 2 ^ f.bits
  let body := c % 2 ^ f.signPos
  if f.tapered && body == 0 then (c, 0)
  else (f.signed (flip && !c.testBit f.signPos) body, 0)

/-- FROUND (08 R184). A value that rounds to zero keeps its sign. -/
def opFround (f : Fmt) (rm : RM) (x : Nat) : Nat × Flags :=
  match decodeNum f x with
  | .nan s => (f.canonNaN, flIf s flNV)
  | .fin neg m e st =>
    let (v, _) := toInteger rm (.fin neg m e st)
    ((roundTo f rm false (if v = 0 then .zero neg else numOfInt v)).1, 0)
  | _ => (x, 0)

/-- FCLASS (08 R184). -/
def opFclass (f : Fmt) (x : Nat) : Nat × Flags :=
  let c := match decodeNum f x with
    | .inf neg => if neg then 0 else 7
    | .zero neg => if neg then 3 else 4
    | .nan s => if f.tapered then 10 else if s then 8 else 9
    | .fin neg m _ _ =>
      let sub := !f.tapered && decide (m < 2 ^ f.frac)
      match neg, sub with
      | true, false => 1
      | true, true => 2
      | false, true => 5
      | false, false => 6
  (c, snanFlag (decodeNum f x))

/-- FCVT (03 R63). -/
def opFcvt (src dst : Fmt) (rm : RM) (sat : Bool) (x : Nat) : Nat × Flags :=
  let v := decodeNum src x
  let (c, g) := roundTo dst rm sat v
  (c, snanFlag v ||| g)

/-- Signedness and width of an integer format code 8 to 15 (03 R50). -/
def intSigned (code : Nat) : Bool := code < 12

def intWidth (code : Nat) : Nat := 8 * 2 ^ (code % 4)

/-- Width of the slot of any format code (08 R176). -/
def codeWidth (code : Nat) : Nat := if code < 8 then (Fmt.ofCode code).slot else intWidth code

/-- FTOI (03 R63). -/
def opFtoi (src : Fmt) (dst : Nat) (rm : RM) (sat : Bool) (x : Nat) : Nat × Flags :=
  toInt (intSigned dst) (intWidth dst) rm sat (decodeNum src x)

/-- ITOF (03 R63). -/
def opItof (src : Nat) (dst : Fmt) (rm : RM) (sat : Bool) (x : Nat) : Nat × Flags :=
  roundTo dst rm sat (numOfInt (intVal (intSigned src) (intWidth src) x))

/-- Element width of a packed instruction (08 R186). -/
def packWidth (w : BitVec 2) : Nat := 8 * 2 ^ w.toNat

/-- The packed operations (08 R187). -/
def opPadd (sat : Bool) (b u v : Nat) : Nat := reduceInt sat true b (intVal true b u + intVal true b v)

def opPsub (sat : Bool) (b u v : Nat) : Nat := reduceInt sat true b (intVal true b u - intVal true b v)

def opPmul (sat : Bool) (b u v : Nat) : Nat := reduceInt sat true b (intVal true b u * intVal true b v)

def opPmin (b u v : Nat) : Nat := wrapInt b (min (intVal true b u) (intVal true b v))

def opPmax (b u v : Nat) : Nat := wrapInt b (max (intVal true b u) (intVal true b v))

def opPavg (u v : Nat) : Nat := (u + v + 1) / 2

def opPcmpeq (b u v : Nat) : Nat := maskOf b (u == v)

def opPcmplt (b u v : Nat) : Nat := maskOf b (decide (intVal true b u < intVal true b v))

/-- PPACK's narrowing of a 2b-bit element (08 R198): 0 wrap, 1 ssat, 2 usat. -/
def narrow (mode b u : Nat) : Nat :=
  match mode with
  | 0 => u % 2 ^ b
  | 1 => satInt true b (intVal true (2 * b) u)
  | _ => satInt false b (intVal true (2 * b) u)

/-- One combination of GRED, GSCAN, SEGRED (08 R191): op 0 ADD, 1 MIN, 2 MAX, 3 AND, 4 OR, 5 XOR; 6 as ADD. -/
def combine (op code : Nat) (rm : RM) (u v : Nat) : Nat × Flags :=
  let b := codeWidth code
  if code < 8 then
    let f := Fmt.ofCode code
    match op with
    | 1 => opFmin f u v
    | 2 => opFmax f u v
    | _ => opFadd f rm false u v
  else
    let sg := intSigned code
    match op with
    | 1 => (wrapInt b (min (intVal sg b u) (intVal sg b v)), 0)
    | 2 => (wrapInt b (max (intVal sg b u) (intVal sg b v)), 0)
    | 3 => (u &&& v, 0)
    | 4 => (u ||| v, 0)
    | 5 => (u ^^^ v, 0)
    | _ => ((u + v) % 2 ^ b, 0)

/-- One level of GRED's tree: pairs of neighbours, an odd last value passing up (08 R191). -/
def treeLevel (op code : Nat) (rm : RM) : List Nat → List Nat × Flags
  | u :: v :: rest =>
    let (c, fl) := combine op code rm u v
    let (r, g) := treeLevel op code rm rest
    (c :: r, fl ||| g)
  | [u] => ([u], 0)
  | [] => ([], 0)

/-- GRED's root over the active values in ascending rank (08 R191); fuel bounds the levels. -/
def treeReduce (op code : Nat) (rm : RM) : Nat → List Nat → Nat × Flags
  | 0, vs => (vs.headD 0, 0)
  | k + 1, vs =>
    match vs with
    | [] => (0, 0)
    | [u] => (u, 0)
    | _ =>
      let (r, fl) := treeLevel op code rm vs
      let (c, g) := treeReduce op code rm k r
      (c, fl ||| g)

/-- The left folds t0, t1, … of GSCAN and SEGRED (08 R191, R197). -/
def foldScan (op code : Nat) (rm : RM) : Nat → List Nat → List Nat × Flags
  | acc, [] => ([acc], 0)
  | acc, v :: rest =>
    let (c, fl) := combine op code rm acc v
    let (r, g) := foldScan op code rm c rest
    (acc :: r, fl ||| g)

/-- CondHolds (07 R147). -/
def condHolds (c : Nat) (v : Word) : Bool :=
  match c with
  | 0 => v == 0
  | 1 => v != 0
  | 2 => decide (v.toInt < 0)
  | 3 => decide (0 ≤ v.toInt)
  | 4 => decide (0 < v.toInt)
  | _ => decide (v.toInt ≤ 0)

/-- A register-supplied target: bits [1:0] ignored (07 R156). -/
def aligned4 (v : Word) : Word := v &&& ~~~3#64

/-- An SatInt or WrapInt to i64 (07 R148). -/
def toI64 (sat : Bool) (v : Int) : Word := BitVec.ofNat 64 (reduceInt sat true 64 v)

/-- Number of trailing zeros among the low n bits of v, from bit i on. -/
def ctzFrom (v : Nat) : Nat → Nat → Nat
  | 0, i => i
  | n + 1, i => if v.testBit i then i else ctzFrom v n (i + 1)

def popCount (v : Nat) : Nat → Nat
  | 0 => 0
  | n + 1 => (if v.testBit n then 1 else 0) + popCount v n

def bitRev (v : Nat) : Nat → Nat
  | 0 => 0
  | n + 1 => (if v.testBit n then 2 ^ (63 - n) else 0) + bitRev v n

/-- DIV and REM (07 R151). -/
def divSigned (a b : Word) : Word :=
  if b = 0 then BitVec.allOnes 64 else BitVec.ofInt 64 (a.toInt.tdiv b.toInt)

def remSigned (a b : Word) : Word :=
  if b = 0 then a else BitVec.ofInt 64 (a.toInt.tmod b.toInt)

def divUnsigned (a b : Word) : Word := if b = 0 then BitVec.allOnes 64 else a / b

def remUnsigned (a b : Word) : Word := if b = 0 then a else a % b

/-- Atomic operations on w bits (09 R217); none where ACAS writes nothing. -/
def atomicNew (aop w : Nat) (old v q : Nat) : Option Nat :=
  let f : Fmt := if w = 64 then .f64 else .f32
  match aop with
  | 0 => some ((old + v) % 2 ^ w)
  | 1 => some (wrapInt w (min (intVal true w old) (intVal true w v)))
  | 2 => some (wrapInt w (max (intVal true w old) (intVal true w v)))
  | 3 => some (min old v)
  | 4 => some (max old v)
  | 5 => some (old &&& v)
  | 6 => some (old ||| v)
  | 7 => some (old ^^^ v)
  | 8 => some v
  | 9 => if old = q then some v else none
  | 10 => if old = q then some v else none
  | 11 => some (if v ≤ old then 0 else old + 1)
  | 12 => some (opFadd f .rne false old v).1
  | 13 => some (opFmin f old v).1
  | _ => some (opFmax f old v).1

end Sys2Proof.Machine
end

