-- ==== Sys2Proof/Machine/Memory.lean ====
section
/-! DEFINITION. Memory as bytes in canonical form, the virtual address space and its windows (04 R71 to R76), the page-table
walk (15 R311 to R316), and the accesses of threads, engines and control cores. -/

namespace Sys2Proof.Machine

/-- The byte at an address; an unlisted one holds the blank byte (log 1). -/
def cellsGet : Cells → Nat → Byte
  | [], _ => Config.blankByte
  | (x, v) :: rest, a => if x = a then v else cellsGet rest a

/-- The canonical form with one byte written: addresses rising, no blank byte listed. -/
def cellsSet : Cells → Nat → Byte → Cells
  | [], a, v => if v = Config.blankByte then [] else [(a, v)]
  | (x, w) :: rest, a, v =>
    if a < x then (if v = Config.blankByte then (x, w) :: rest else (a, v) :: (x, w) :: rest)
    else if a = x then (if v = Config.blankByte then rest else (a, v) :: rest)
    else (x, w) :: cellsSet rest a v

/-- Addresses rise strictly from above lo, and no listed byte is blank. -/
def cellsFrom : Nat → Cells → Bool
  | _, [] => true
  | lo, (a, v) :: rest => decide (lo ≤ a) && decide (v ≠ Config.blankByte) && cellsFrom (a + 1) rest

/-- The canonical form of a memory. -/
def Memory.wf (m : Cells) : Bool := cellsFrom 0 m

/-- n bytes from address a, little-endian (00 R4). -/
def cellsRead (m : Cells) (a : Nat) : Nat → Nat
  | 0 => 0
  | n + 1 => (cellsGet m a).toNat + 256 * cellsRead m (a + 1) n

/-- The low n bytes of v at address a, little-endian. -/
def cellsWrite (m : Cells) (a : Nat) : Nat → Nat → Cells
  | 0, _ => m
  | n + 1, v => cellsWrite (cellsSet m a (BitVec.ofNat 8 v)) (a + 1) n (v / 256)

/-- The bytes of a list at address a on. -/
def cellsPut (m : Cells) (a : Nat) : List Byte → Cells
  | [] => m
  | b :: rest => cellsPut (cellsSet m a b) (a + 1) rest

def cellsBytes (m : Cells) (a n : Nat) : List Byte := (List.range n).map fun i => cellsGet m (a + i)

/-- Every byte from lo to hi - 1 blank. -/
def cellsClear (m : Cells) (lo hi : Nat) : Cells := m.filter fun c => decide (c.1 < lo) || decide (hi ≤ c.1)

/-- Little-endian number of a list of bytes. -/
def leNat : List Byte → Nat
  | [] => 0
  | b :: rest => b.toNat + 256 * leNat rest

/-- n little-endian bytes of a number. -/
def leBytes : Nat → Nat → List Byte
  | 0, _ => []
  | n + 1, v => BitVec.ofNat 8 v :: leBytes n (v / 256)

/-- Bytes off to off + n - 1 of a list, as a number. -/
def field (bs : List Byte) (off n : Nat) : Nat := leNat ((bs.drop off).take n)

/-! ## Finding things -/

def State.block? (s : State) (bid : Nat) : Option Block := s.blocks.find? fun b => b.bid == bid

def State.setBlock (s : State) (b : Block) : State :=
  { s with blocks := s.blocks.map fun x => if x.bid = b.bid then b else x }

def State.ctx? (s : State) (id : Nat) : Option Ctx := s.ctxs.find? fun c => c.id == id

def State.setCtx (s : State) (c : Ctx) : State := { s with ctxs := s.ctxs.map fun x => if x.id = c.id then c else x }

/-- Partition p; the device has eight. -/
def State.part (s : State) (p : Nat) : Part := s.parts[p % 8]'(Nat.mod_lt _ (by decide))

def State.setPart (s : State) (p : Nat) (x : Part) : State :=
  { s with parts := s.parts.set (p % 8) x (Nat.mod_lt _ (by decide)) }

/-- Queue q of a partition. -/
def Part.queue (p : Part) (q : Nat) : Queue := p.queues[q % 64]'(Nat.mod_lt _ (by decide))

def Part.setQueue (p : Part) (q : Nat) (x : Queue) : Part :=
  { p with queues := p.queues.set (q % 64) x (Nat.mod_lt _ (by decide)) }

def State.link (s : State) (l : Nat) : Link := s.links[l % 16]'(Nat.mod_lt _ (by decide))

/-! ## Physical memory -/

/-- First unit of 16 GiB of a partition's far-memory share: the shares lie in ascending partition number (log 11). -/
def farBase (s : State) (p : Nat) : Nat :=
  (List.range p).foldl (fun a i => a + (s.part i).cfg.far) 0

def farStart : Nat := 0x10000000000

def hostStart : Nat := 0x8000000000000

/-- Bytes of a die's physical range that removed banks leave unbacked, at its top (17 R369). -/
def unbacked (s : State) (die : Nat) : Nat := 805306368 * (s.deadDram.filter fun d => d.1 == die).length

/-- Lies a physical address in a range of R315 that partition p may reach, where DRAM still backs it (17 R369)? -/
def physOk (s : State) (p pa : Nat) : Bool :=
  if pa < 8 * Config.nearBytes then
    (s.part p).cfg.dies.getLsbD (pa / Config.nearBytes)
      && decide (pa % Config.nearBytes < Config.nearBytes - unbacked s (pa / Config.nearBytes))
  else if farStart ≤ pa ∧ pa < farStart + 128 * 2 ^ 34 then
    let u := (pa - farStart) / 2 ^ 34
    decide (farBase s p ≤ u) && decide (u < farBase s p + (s.part p).cfg.far)
  else decide (hostStart ≤ pa) && decide (pa < 2 * hostStart)

/-- Does an aligned unit of 8 bytes hold poison (17 R353)? -/
def State.poisoned8 (s : State) (pa : Nat) : Bool := s.poison.any fun a => a / 8 == pa / 8

/-- Poisoned bytes after a write: it clears a unit's when it overwrites every poisoned byte of the unit (17 R353). -/
def poisonLeft (wrote : Nat → Bool) (l : List Nat) : List Nat :=
  l.filter fun a => l.any fun x => x / 8 == a / 8 && !wrote x

/-! ## Translation (15 R311 to R316) -/

/-- What an access needs of a page. -/
structure Need where
  r : Bool
  w : Bool
  x : Bool
deriving DecidableEq, Repr

def needR : Need := { r := true, w := false, x := false }

def needW : Need := { r := false, w := true, x := false }

def needRW : Need := { r := true, w := true, x := false }

def needX : Need := { r := false, w := false, x := true }

/-- The leaf a walk ends at: where its entry lies, the entry, and the physical address of the byte. -/
structure Leaf where
  entryAddr : Nat
  entry : Word
  level : Nat
  pa : Nat
deriving DecidableEq, Repr

inductive WalkResult where
  | leaf (l : Leaf)
  | bad (k : FaultKind)
deriving DecidableEq, Repr

/-- Fault codes of 15 R321. -/
def codeUnmapped : Nat := 1

def codePermission : Nat := 2

def codeAttribute : Nat := 3

def codeWindow : Nat := 4

def codeAlignment : Nat := 5

def codeOperand : Nat := 6

def codeWalk : Nat := 11

def codeData : Nat := 13

/-- A non-present entry (15 R314, R324). -/
def absent (pf : Bool) (level : Nat) (e : Word) : FaultKind :=
  if level = 1 then
    let src := (e.toNat / 2) % 8
    if 4 ≤ src then .program codeAttribute
    else if src = 3 ∧ (e.toNat / 2 ^ 9 ≠ 0 ∨ (e.toNat / 2 ^ 7) % 4 = 3) then .program codeAttribute
    else if pf then .serviceable level e
    else if src = 0 then .program codeUnmapped
    else .serviceable level e
  else if pf then .serviceable level e
  else .program codeUnmapped

/-- Reserved forms of a leaf at a level (15 R312). -/
def leafReserved (level : Nat) (e : Word) : Bool :=
  e.getLsbD 11 || (e.toNat / 2 ^ 52) % 128 != 0 || (e.toNat / 2 ^ 6) % 4 == 3
  || (decide (1 < level) && e.getLsbD 10)
  || (level == 2 && (e.toNat / 2 ^ 12) % 2 ^ 9 != 0)
  || (level == 3 && (e.toNat / 2 ^ 12) % 2 ^ 18 != 0)

/-- Reserved forms of a non-leaf entry (15 R312). -/
def tableReserved (e : Word) : Bool := (e.toNat / 4) % 2 ^ 10 != 0 || (e.toNat / 2 ^ 52) % 128 != 0

/-- The walk from a level's table down (15 R311, R418 step 7). -/
def walkFrom (s : State) (p va : Nat) : Nat → Nat → WalkResult
  | 0, _ => .bad (.program codeUnmapped)
  | l + 1, table =>
    let level := l + 1
    let ea := table + 8 * (va / 2 ^ (12 + 9 * l) % 512)
    if !physOk s p ea then .bad (.program codeAttribute)
    else if s.poisoned8 ea then .bad (.program codeWalk)
    else
      let e := BitVec.ofNat 64 (cellsRead s.mem ea 8)
      let base := e.toNat / 2 ^ 12 % 2 ^ 40 * 2 ^ 12
      if !e.getLsbD 0 then .bad (absent ((s.part p).dsplit.getLsbD 0) level e)
      else if level = 1 ∨ e.getLsbD 1 then
        if 3 < level ∨ leafReserved level e then .bad (.program codeAttribute)
        else
          let pa := base + va % 2 ^ (12 + 9 * l)
          if !physOk s p pa then .bad (.program codeAttribute)
          else .leaf { entryAddr := ea, entry := e, level := level, pa := pa }
      else if tableReserved e then .bad (.program codeAttribute)
      else walkFrom s p va l base

/-- The walk and the permission it must find (15 R311, R316). -/
def translate (s : State) (p root va : Nat) (need : Need) : WalkResult :=
  match walkFrom s p va 5 root with
  | .bad k => .bad k
  | .leaf l =>
    if (need.r && !l.entry.getLsbD 2) || (need.w && !l.entry.getLsbD 3) || (need.x && !l.entry.getLsbD 4)
    then .bad (.program codePermission)
    else .leaf l

/-- Ordering attribute of a leaf (15 R312): 1 is SO. -/
def leafOrd (e : Word) : Nat := e.toNat / 2 ^ 6 % 4

/-- The A bit, and the D bit of a write, set in the entry (15 R316). -/
def setAD (s : State) (l : Leaf) (write : Bool) : State :=
  let e := l.entry ||| 0x100#64 ||| (if write then 0x200#64 else 0)
  if e = l.entry then s else { s with mem := cellsWrite s.mem l.entryAddr 8 e.toNat }

/-! ## Places (04 R71 to R76) -/

/-- Where a byte lies. -/
inductive Place where
  | phys (pa : Nat)
  | scratch (bid off : Nat)
  | atelier (idx : Nat)
deriving DecidableEq, Repr

/-- Whose addresses: a partition, a context, and the block whose scratchpad window it is, if any. -/
structure View where
  part : Nat
  ctx : Nat
  bid : Option Nat
  /-- Translations held from an earlier walk: those of an issued MMA (10 R234). -/
  held : List Path := []
deriving DecidableEq, Repr

/-- A context's addresses, without a scratchpad window. -/
def ctxView (part ctx : Nat) : View := { part := part, ctx := ctx, bid := none }

def Block.view (b : Block) : View := { part := b.part, ctx := b.ctx, bid := some b.bid }

/-- Regions of the address space (04 R71). -/
inductive Region where
  | global | atelierWindow (off : Nat) | scratchWindow (off : Nat) | nothing
deriving DecidableEq, Repr

def regionOf (va : Nat) : Region :=
  if va < 2 ^ 56 then .global
  else if va < 0xFFFFFE0000000000 then .nothing
  else if va < 0xFFFFFF0000000000 then .atelierWindow (va - 0xFFFFFE0000000000)
  else .scratchWindow (va - 0xFFFFFF0000000000)

/-- The block and offset a scratchpad window offset names (04 R73). -/
def scratchPlace (s : State) (bid off : Nat) : Option (Nat × Nat) :=
  match s.block? bid with
  | none => none
  | some b =>
    let w := off / 2 ^ 24
    let o := off % 2 ^ 24
    let target := if w = 0 ∨ w = b.crank + 1 then some b
      else if 16 < w ∨ b.csize < w then none
      else s.blocks.find? fun x => x.cluster == b.cluster && x.crank + 1 == w
    match target with
    | none => none
    | some x => if o < x.kernel.scratch then some (x.bid, o) else none

/-- The slice of a window page: that of a context's map entry, which is valid while the slice is in atelier mode
(13 R281). -/
def State.atlEntry (s : State) (c : Ctx) (page : Nat) : Option (Nat × Nat) :=
  match c.atl.find? fun e => e.1 == page with
  | some (_, x) => if s.atlSlices.contains x then some x else none
  | none => none

/-- The atelier byte a window offset names (04 R76). -/
def atelierPlace (s : State) (ctx off : Nat) : Option Nat :=
  match s.ctx? ctx with
  | none => none
  | some c =>
    match s.atlEntry c (off / 65536) with
    | some (d, n) => some ((d * 1024 + n) * 65536 + off % 65536)
    | none => none

/-- Is a byte outside everything that the window rules assign (04 R71)? -/
def windowBad (s : State) (v : View) (va : Nat) : Bool :=
  match regionOf va with
  | .global => false
  | .nothing => true
  | .atelierWindow off => (atelierPlace s v.ctx off).isNone
  | .scratchWindow off => match v.bid with
    | none => true
    | some b => (scratchPlace s b off).isNone

/-- Byte addresses of an access of n bytes. -/
def addrs (va n : Nat) : List Nat := (List.range n).map fun i => (va + i) % 2 ^ 64

/-- The first byte of an access that the window rules do not assign, as a window fault (15 R418 step 5). -/
def windowFault (s : State) (v : View) (va n : Nat) : Option AccFault :=
  match (addrs va n).find? (windowBad s v) with
  | some a => some { kind := .program codeWindow, addr := BitVec.ofNat 64 a }
  | none => none

/-- A located byte: its place and the leaf it was translated through. -/
structure Located where
  place : Place
  leaf : Option Leaf
deriving DecidableEq, Repr

inductive LocResult where
  | ok (l : Located)
  | bad (f : AccFault)
deriving DecidableEq, Repr

/-- The leaf of a held translation, where it permits the access. -/
def heldLeaf (v : View) (va : Nat) (need : Need) : Option Leaf :=
  match v.held.find? fun p => p.page == va / 4096 with
  | none => none
  | some p =>
    if (need.r && !p.entry.getLsbD 2) || (need.w && !p.entry.getLsbD 3) || (need.x && !p.entry.getLsbD 4) then none
    else some { entryAddr := p.entryAddr, entry := p.entry, level := p.level, pa := p.pa + va % 4096 }

/-- Are two entries the same but for A and D? -/
def sameEntry (x y : Word) : Bool := (x ||| 0x300#64) == (y ||| 0x300#64)

/-- The leaf by which an access through a held translation is made. Where its A bit is still to be set and the entry has
changed, the walk is repeated and the new entry decides (15 R316); one that no longer permits the access takes effect only once
the MMA is over (10 R234). -/
def confirmHeld (s : State) (v : View) (root va : Nat) (need : Need) (l : Leaf) : Leaf :=
  if l.entry.getLsbD 8 || sameEntry (BitVec.ofNat 64 (cellsRead s.mem l.entryAddr 8)) l.entry then l
  else match translate s v.part root va need with
    | .leaf l' => l'
    | .bad _ => l

/-- One byte's place (04 R71, 15 R418 steps 5 and 7). -/
def locate (s : State) (v : View) (need : Need) (va : Nat) : LocResult :=
  let bad := fun (k : FaultKind) => LocResult.bad { kind := k, addr := BitVec.ofNat 64 va }
  match regionOf va with
  | .nothing => bad (.program codeWindow)
  | .atelierWindow off =>
    if need.x then bad (.program codeWindow)
    else match atelierPlace s v.ctx off with
      | some i => .ok { place := .atelier i, leaf := none }
      | none => bad (.program codeWindow)
  | .scratchWindow off =>
    if need.x then bad (.program codeWindow)
    else match v.bid.bind (fun b => scratchPlace s b off) with
      | some (b, o) => .ok { place := .scratch b o, leaf := none }
      | none => bad (.program codeWindow)
  | .global =>
    match s.ctx? v.ctx with
    | none => bad (.program codeUnmapped)
    | some c =>
      match heldLeaf v va need with
      | some l =>
        let l := confirmHeld s v c.ptroot va need l
        .ok { place := .phys l.pa, leaf := some l }
      | none =>
        match translate s v.part c.ptroot va need with
        | .bad k => bad k
        | .leaf l => .ok { place := .phys l.pa, leaf := some l }

/-- The places of a list of bytes, or the fault of the lowest one that meets one. -/
def locateAll (s : State) (v : View) (need : Need) : List Nat → List Located ⊕ AccFault
  | [] => .inl []
  | a :: rest =>
    match locate s v need a with
    | .bad f => .inr f
    | .ok l =>
      match locateAll s v need rest with
      | .inr f => .inr f
      | .inl ls => .inl (l :: ls)

/-- Is a place poisoned (17 R353)? -/
def placePoisoned (s : State) : Place → Bool
  | .phys pa => s.poison.contains pa
  | .scratch .. => false
  | .atelier i => s.atelierPoison.contains i

/-- The byte at a place. -/
def placeGet (s : State) : Place → Byte
  | .phys pa => cellsGet s.mem pa
  | .scratch b o => match s.block? b with
    | some x => cellsGet x.scratch o
    | none => Config.blankByte
  | .atelier i => cellsGet s.atelier i

/-- A byte written at a place. -/
def placeSet (s : State) (p : Place) (v : Byte) : State :=
  match p with
  | .phys pa => { s with mem := cellsSet s.mem pa v }
  | .scratch b o => match s.block? b with
    | some x => s.setBlock { x with scratch := cellsSet x.scratch o v }
    | none => s
  | .atelier i => { s with atelier := cellsSet s.atelier i v }

/-- The number the places hold, the first lowest. -/
def readPlaces (s : State) : List Located → Nat
  | [] => 0
  | l :: rest => (placeGet s l.place).toNat + 256 * readPlaces s rest

/-- A number written over the places. -/
def writePlaces (s : State) : List Located → Nat → State
  | [], _ => s
  | l :: rest, v => writePlaces (placeSet s l.place (BitVec.ofNat 8 v)) rest (v / 256)

/-- A and D set for every leaf that was translated through, unless its entry has changed since (15 R316, R318). -/
def touch (s : State) (write : Bool) : List Located → State
  | [] => s
  | l :: rest =>
    match l.leaf with
    | none => touch s write rest
    | some f =>
      let f' := { f with entry := BitVec.ofNat 64 (cellsRead s.mem f.entryAddr 8) }
      touch (if sameEntry f'.entry f.entry then setAD s f' write else s) write rest

/-- Queues whose notify dword a write meets (14 R290). -/
def snoopHits (s : State) (wrote : Nat → Bool) : List (Nat × Nat) :=
  (s.watch.filter fun w => (List.range 8).any fun i => wrote (w.pa + i)).map fun w => (w.part, w.q)

/-- What every write of places does beside them: it clears poison (17 R353), and the snoop filter sees it (14 R289). -/
def noteWrite (s : State) (ls : List Located) : State :=
  { s with snooped := s.snooped ++ snoopHits s (fun a => ls.any fun l => l.place == .phys a),
           poison := poisonLeft (fun a => ls.any fun l => l.place == .phys a) s.poison,
           atelierPoison := poisonLeft (fun a => ls.any fun l => l.place == .atelier a) s.atelierPoison }

/-- The fault of consuming poisoned bytes (17 R353). -/
def dataFault (s : State) (ls : List Located) (va : Nat) : Option AccFault :=
  if ls.any (fun l => placePoisoned s l.place) then
    some { kind := .program codeData, addr := BitVec.ofNat 64 va }
  else none

def Mark.at (m : Mark) : Place → Bool
  | .phys pa => !m.atelier && m.addr == pa
  | .atelier i => m.atelier && m.addr == i
  | .scratch .. => false

/-- The marked errors that an access consumed: of a data fault, those of the bytes it read, which are 8 at most. -/
def consumed (s : State) (v : View) (f : AccFault) : List Mark :=
  if s.marks.isEmpty || f.kind != .program codeData then []
  else s.marks.filter fun m => (addrs f.addr.toNat 8).any fun a =>
    match locate s v { r := false, w := false, x := false } a with
    | .ok l => m.at l.place
    | .bad _ => false

/-- A load of n bytes: its value and the state with A bits set, or the fault. -/
def loadAt (s : State) (v : View) (va n : Nat) : (Nat × State) ⊕ AccFault :=
  match windowFault s v va n with
  | some f => .inr f
  | none =>
    match locateAll s v needR (addrs va n) with
    | .inr f => .inr f
    | .inl ls =>
      match dataFault s ls va with
      | some f => .inr f
      | none => .inl (readPlaces s ls, touch s false ls)

/-- A store of the low n bytes of x, or the fault. -/
def storeAt (s : State) (v : View) (va n x : Nat) : State ⊕ AccFault :=
  match windowFault s v va n with
  | some f => .inr f
  | none =>
    match locateAll s v needW (addrs va n) with
    | .inr f => .inr f
    | .inl ls => .inl (writePlaces (touch (noteWrite s ls) true ls) ls x)

/-- An atomic on n bytes (05 R90): the old value, and the state after the update f gives, if it gives one. -/
def atomicAt (s : State) (v : View) (va n : Nat) (f : Nat → Option Nat) : (Nat × State) ⊕ AccFault :=
  match windowFault s v va n with
  | some e => .inr e
  | none =>
    match locateAll s v needRW (addrs va n) with
    | .inr e => .inr e
    | .inl ls =>
      match dataFault s ls va with
      | some e => .inr e
      | none =>
        let old := readPlaces s ls
        match f old with
        | none => .inl (old, touch s false ls)
        | some x => .inl (old, writePlaces (touch (noteWrite s ls) true ls) ls x)

/-- Bytes of a range read by an engine or a control core in ascending order, by aligned 8-byte elements (05 R83); on a fault,
the bytes before it. Fuel bounds the elements. -/
def loadRun (s : State) (v : View) : Nat → Nat → Nat → List Byte × State × Option AccFault
  | 0, _, _ => ([], s, none)
  | k + 1, va, n =>
    if n = 0 then ([], s, none)
    else
      let a := va % 2 ^ 64
      let c := min n (8 - a % 8)
      match loadAt s v a c with
      | .inr f => ([], s, some f)
      | .inl (x, s') =>
        let (bs, s'', f) := loadRun s' v k (va + c) (n - c)
        (leBytes c x ++ bs, s'', f)

/-- n bytes at va, or the fault. -/
def loadBytes (s : State) (v : View) (va n : Nat) : (List Byte × State) ⊕ AccFault :=
  match loadRun s v (n / 8 + 2) va n with
  | (_, _, some f) => .inr f
  | (bs, s', none) => .inl (bs, s')

/-- Bytes of a range written in ascending order, by aligned 8-byte elements; on a fault, the state with those before it
written. Fuel bounds the elements. -/
def storeRun (s : State) (v : View) : Nat → Nat → List Byte → State × Option AccFault
  | 0, _, _ => (s, none)
  | k + 1, va, bs =>
    if bs.isEmpty then (s, none)
    else
      let a := va % 2 ^ 64
      let c := min bs.length (8 - a % 8)
      match storeAt s v a c (leNat (bs.take c)) with
      | .inr f => (s, some f)
      | .inl s' => storeRun s' v k (va + c) (bs.drop c)

def storeBytes (s : State) (v : View) (va : Nat) (bs : List Byte) : State × Option AccFault :=
  storeRun s v (bs.length / 8 + 2) va bs

/-- Bytes stored together: on a fault, nothing is written. -/
def storeWhole (s : State) (v : View) (va : Nat) (bs : List Byte) : State ⊕ AccFault :=
  match windowFault s v va bs.length with
  | some f => .inr f
  | none =>
    match locateAll s v needW (addrs va bs.length) with
    | .inr f => .inr f
    | .inl ls => .inl (writePlaces (touch (noteWrite s ls) true ls) ls (leNat bs))

/-- The page of a leaf that an address was translated through. -/
def pathOf (va : Nat) (l : Leaf) : Path :=
  { page := va / 4096, entryAddr := l.entryAddr, entry := l.entry, level := l.level, pa := l.pa - va % 4096 }

/-- The pages of bytes read, as walks find them. -/
def pathsOf (s : State) (v : View) (as : List Nat) : List Path :=
  ((as.map (· / 4096)).eraseDups).filterMap fun p => match locate s v needR (4096 * p) with
    | .ok l => l.leaf.map (pathOf (4096 * p))
    | .bad _ => none

/-- The A bits of accesses that are confirmed after they were made; an entry that has changed since is walked for again
(05 R106, 15 R316). -/
def confirmPaths (s : State) (v : View) (ps : List Path) : State :=
  ps.foldl (fun s p =>
    let e := BitVec.ofNat 64 (cellsRead s.mem p.entryAddr 8)
    if sameEntry e p.entry then
      setAD s { entryAddr := p.entryAddr, entry := e, level := p.level, pa := p.pa } false
    else match locate s v needR (p.page * 4096) with
      | .ok l => touch s false [l]
      | .bad _ => s) s

/-- Does an address lie in the block's own scratchpad, in bytes lo to lo + n - 1? Gives the offset (04 R73). -/
def ownScratch (b : Block) (va n : Nat) : Option Nat :=
  match regionOf va with
  | .scratchWindow off =>
    let w := off / 2 ^ 24
    let o := off % 2 ^ 24
    if (w = 0 ∨ w = b.crank + 1) ∧ o + n ≤ b.kernel.scratch then some o else none
  | _ => none

/-- A held store's byte over an address, if it covers it. -/
def heldByte (ws : List HeldStore) (a : Nat) : Option Nat :=
  ws.foldl (fun acc w =>
    let d := (BitVec.ofNat 64 a - w.addr).toNat
    if d < w.size then some (w.val.toNat / 2 ^ (8 * d) % 256) else acc) none

/-- A loaded number with the block's own held stores over it (17 R361). -/
def overlay (b : Block) (va n x : Nat) : Nat :=
  if b.held.isEmpty then x
  else (List.range n).foldl (fun acc i =>
    acc + ((heldByte b.held (va + i)).getD (x / 2 ^ (8 * i) % 256)) * 2 ^ (8 * i)) 0

/-- Lies an access in any scratchpad window? -/
def inScratch (va : Nat) : Bool := match regionOf va with
  | .scratchWindow _ => true
  | _ => false

/-- Is a global page SO (05 R93)? Its walk must succeed. -/
def pageSO (s : State) (v : View) (va : Nat) : Bool :=
  match regionOf va with
  | .global => match s.ctx? v.ctx with
    | none => false
    | some c => match walkFrom s v.part va 5 c.ptroot with
      | .leaf l => leafOrd l.entry == 1
      | .bad _ => false
  | _ => false

/-- The word at an instruction address (15 R316 fetch): the word and the state with A set, or the fault. -/
def fetchAt (s : State) (v : View) (va : Nat) : (Nat × State) ⊕ AccFault :=
  match locateAll s v needX (addrs va 4) with
  | .inr f => .inr f
  | .inl ls =>
    match dataFault s ls va with
    | some f => .inr f
    | none => .inl (readPlaces s ls, touch s false ls)

end Sys2Proof.Machine
end

