-- ==== Sys2Proof/Machine/Ops.lean ====
section
/-! DEFINITION. The named operations every meaning is built from: threads and blocks, the end of an instruction (07 R158,
R159), barriers (09 R222), interval boundaries (01 R31), team kills (01 R30), fault records (13 R284), context and commission
faults (13 R282, 15 R330), taking a trap and returning (07 R168, R169), faults of accesses (15 R321 to R323), and the issue
of an instruction by the current thread. -/

namespace Sys2Proof.Machine

abbrev Out := Host.Outcome State Fault Refusal

/-! ## Threads in the state -/

def Block.setThread (b : Block) (acc : Bool) (t : Thread) : Block :=
  if acc then { b with access := b.access.map fun x => if x.tid = t.tid then t else x }
  else { b with threads := b.threads.map fun x => if x.tid = t.tid then t else x }

def Block.thread? (b : Block) (acc : Bool) (tid : Nat) : Option Thread :=
  (if acc then b.access else b.threads).find? fun t => t.tid == tid

def State.setThread (s : State) (bid : Nat) (acc : Bool) (t : Thread) : State :=
  { s with blocks := s.blocks.map fun b => if b.bid = bid then b.setThread acc t else b }

def State.thread? (s : State) (bid : Nat) (acc : Bool) (tid : Nat) : Option Thread :=
  (s.block? bid).bind fun b => b.thread? acc tid

/-- A change of one block. -/
def State.onBlock (s : State) (bid : Nat) (f : Block → Block) : State :=
  { s with blocks := s.blocks.map fun b => if b.bid = bid then f b else b }

def Thread.running (t : Thread) : Bool := t.life == .running

/-- Threads of a team slot that are live: neither exited nor spawned away (08 R188). -/
def Block.live (b : Block) (slot : Nat) : List Thread := b.threads.filter fun t => t.running && t.slot == slot

def Block.team? (b : Block) (slot : Nat) : Option Team := b.teams.find? fun t => t.slot == slot

def Block.setTeam (b : Block) (t : Team) : Block :=
  { b with teams := b.teams.map fun x => if x.slot = t.slot then t else x }

/-! ## The end of an instruction -/

/-- Does an instruction of len bytes at pc contain the word at a? -/
def containsWord (pc : Word) (len : Nat) (a : Word) : Bool := (a - pc).toNat < len && (a - pc).toNat % 4 == 0

/-- The end test from level n - 1 down (07 R158). -/
def endTest (pc : Word) (len : Nat) : Nat → Thread → Thread
  | 0, t => t
  | n + 1, t =>
    if h : n < 4 then
      let l := t.lc[n]
      if l.active && containsWord pc len l.stop then
        if 1 < l.remaining.toNat then
          { t with lc := t.lc.set n { l with remaining := l.remaining - 1 }, pc := l.start }
        else endTest pc len n { t with lc := t.lc.set n { l with active := false, remaining := 0 } }
      else endTest pc len n t
    else endTest pc len n t

/-- The next PC in sequence, after the end test (07 R158). -/
def Thread.advance (t : Thread) (len : Nat) : Thread :=
  { endTest t.pc len 4 { t with pc := t.pc + BitVec.ofNat 64 len } with wait := .ready }

/-- Bytes of the instruction that the word at a begins: 8 when it is a prefix and can be read (07 R147 NextAfter). -/
def lenAt (s : State) (v : View) (a : Word) : Nat :=
  match fetchAt s v a.toNat with
  | .inl (w, _) => if w / 2 ^ 27 = 0x1B then 8 else 4
  | .inr _ => 4

/-- Levels whose body holds the transfer's address and not its target end (07 R159). -/
def leaveBodies (s : State) (v : View) (pc target : Word) (t : Thread) : Thread :=
  { t with
    lc := t.lc.map fun l =>
      if l.active then
        let size := (l.stop - l.start).toNat + lenAt s v l.stop
        if (pc - l.start).toNat < size && !((target - l.start).toNat < size) then
          { l with active := false, remaining := 0 }
        else l
      else l }

/-- The thread at a transfer's target (07 R156). -/
def Thread.goto (t : Thread) (target : Word) : Thread := { t with pc := target, wait := .ready }

/-! ## Barriers (02 R48, 09 R222) -/

def BarId.inBlock : BarId → Bool
  | .block _ => true | .commit => true | _ => false

def Block.bars? (b : Block) (id : BarId) : Option Bar := b.bars.find? fun x => x.id == id

def setBarIn (bars : List Bar) (x : Bar) : List Bar := bars.map fun y => if y.id = x.id then x else y

/-- A barrier as block b names it. -/
def getBar (s : State) (b : Block) (id : BarId) : Option Bar :=
  match id with
  | .cluster _ => ((s.clusters.find? fun c => c.cid == b.cluster).map (·.bars)).bind fun l => l.find? fun x => x.id == id
  | .grid _ => ((s.launches.find? fun l => l.lid == b.launch).map (·.bars)).bind fun l => l.find? fun x => x.id == id
  | _ => b.bars.find? fun x => x.id == id

def setBar (s : State) (b : Block) (x : Bar) : State :=
  match x.id with
  | .cluster _ => { s with
    clusters := s.clusters.map fun c =>
      if c.cid = b.cluster then { c with bars := setBarIn c.bars x } else c }
  | .grid _ => { s with
    launches := s.launches.map fun l =>
      if l.lid = b.launch then { l with bars := setBarIn l.bars x } else l }
  | _ => s.onBlock b.bid fun y => { y with bars := setBarIn y.bars x }

/-- Does block x share barrier id with block b? -/
def sharesBar (b x : Block) (id : BarId) : Bool :=
  match id with
  | .cluster _ => x.cluster == b.cluster
  | .grid _ => x.launch == b.launch
  | _ => x.bid == b.bid

/-! ## Interval boundaries (01 R31, 17 R355, R358) -/

/-- A new pentimento of a block begins; the image before it is complete by then (17 R355). -/
def takePentimento (s : State) (irrev : Bool) (bid : Nat) : State :=
  match s.block? bid with
  | none => s
  | some b =>
    let old := ((s.pents.filter fun p => p.bid == bid).getLast?).toList.map fun p => { p with complete := true }
    let new : Pentimento :=
      { bid := bid, complete := false, irrev := irrev, image := b,
        ops := s.ops.filter fun o => o.bid == bid,
        prods := s.prods.filter fun p => p.bid == bid }
    let s : State := { s with pents := (s.pents.filter fun p => p.bid != bid) ++ old ++ [new] }
    s.onBlock bid fun x => { x with errorBanks := [] }

/-- The boundary of a block on its own; in a cluster of several blocks there is none (17 R358). -/
def blockBoundary (s : State) (b : Block) : State := if b.csize = 1 then takePentimento s false b.bid else s

/-- The boundary of an irrevocable action or a cluster barrier phase: common to the whole cluster (17 R358). -/
def clusterBoundary (s : State) (b : Block) : State :=
  if b.csize = 1 then takePentimento s true b.bid
  else (s.blocks.filter fun x => x.cluster == b.cluster).foldl (fun a x => takePentimento a true x.bid) s

/-! ## Completing a phase -/

/-- Is matrix work of the block still to be performed that a commit awaits: all but sketch MMAs whose guard is unresolved
(10 R239)? -/
def matrixBusy (s : State) (bid : Nat) : Bool :=
  s.ops.any fun o => o.bid == bid && (o.cls == 1 || o.cls == 4) && o.result.isNone && match o.kind, o.binding with
    | .mma .., .episode _ _ => false
    | _, _ => true

/-- An empty signing state. -/
def snapThread (b : Block) (t : Thread) : SnapThread :=
  { tid := t.tid, slot := t.slot, lane := t.lane, life := t.life, spawned := t.spawned, wb := t.wb, spth := t.spth,
    rm := t.rm, tvec := t.tvec, fpst := t.fpst,
    live := (List.range b.kernel.restartCount).map fun i => t.readN (b.kernel.restartFirst + i) }

/-- The restart snapshot of 10 R240. -/
def snapshot (b : Block) : Snapshot :=
  { threads := b.threads.map (snapThread b), spawn := b.spawn, held := b.teams.map (·.held), bars := b.bars,
    outst := b.threads.map (·.outst), conv := b.conv, groups := b.groups, pops := b.teams.map (·.pops),
    cursor := b.cursor, handles := b.handles, scratch := b.scratch,
    ran := b.teams.map fun tm => (tm.accessRun, tm.startRegs) }

/-- What ACOMMIT does when its phase completes (10 R239): the label, UNC lowered, the snapshot. -/
def commitDone (b : Block) : Block :=
  let low := b.commitVals.foldl (fun (a : Option (Nat × Word)) v =>
    match a with
    | none => some v
    | some w => if v.1 < w.1 then some v else some w) none
  let b : Block := { b with
                    label := (match low with
                      | some v => aligned4 v.2
                      | none => b.label),
                    commitVals := [],
                    handles := b.handles.map fun x => { x with unc := false } }
  { b with snap := some (snapshot b) }

/-- CompletePhase (09 R222): every arrival of the phase is complete; the boundaries of 01 R31 and R34. -/
def completePhase (s : State) (b : Block) (id : BarId) : State :=
  match getBar s b id with
  | none => s
  | some x =>
    let s := setBar s b { x with arrived := 0, phase := !x.phase }
    let s : State := { s with
    blocks := s.blocks.map fun y =>
      if sharesBar b y id then
        { y with threads := y.threads.map fun t => { t with outst := t.outst.filter (· != id) } }
      else y }
    match id with
    | .block _ => blockBoundary s b
    | .cluster _ => clusterBoundary s b
    | .grid _ => s
    | .commit =>
      let s : State := { s with
        ops := s.ops.map fun o => if o.bid = b.bid then { o with after := false } else o,
        prods := s.prods.map fun p => if p.bid = b.bid then { p with after := false } else p }
      blockBoundary (s.onBlock b.bid commitDone) b

/-! ## Compare points of redundant mode (05 R110, 17 R360 to R363) -/

/-- Does the block run beside a twin? -/
def twinned (b : Block) : Bool := b.redundant && b.twin.isSome

/-- Stores the block holds for each of its threads. -/
def heldCounts (b : Block) : List (Nat × Nat) :=
  b.threads.map fun t => (t.tid, (b.held.filter fun w => w.tid == t.tid).length)

/-- The key of a barrier phase's compare point. -/
def barKey : BarId → Nat
  | .block n => 2 ^ 20 + n
  | .cluster n => 2 ^ 20 + 128 + n
  | _ => 2 ^ 20 + 64

/-- The key of the compare that a thread's 2,048th held store triggers. -/
def countKey (tid : Nat) : Nat := 2 ^ 21 + tid

/-- The key of the compare that an engine operation makes before each of its pieces (17 R363). -/
def pieceKey (op : Nat) : Nat := 2 ^ 22 + op

/-- The block gets to a compare point. -/
def openCompare (b : Block) (key : Nat) (counts : List (Nat × Nat)) : Block :=
  if (b.cmpAt.any fun c => c.1 == key) || (b.grants.any fun g => g.1 == key) then b
  else { b with cmpAt := b.cmpAt ++ [(key, counts)] }

def dropGrant (b : Block) (key : Nat) : Block := { b with grants := b.grants.filter fun g => g.1 != key }

/-- Has the block the label operand of every thread that has arrived at the commit barrier? A restored thread gives it again. -/
def commitKnown (b : Block) : Bool :=
  b.threads.all fun t => !t.outst.contains .commit || b.commitVals.any fun v => v.1 == t.tid

/-- Is the completion of a barrier's phase a compare point (01 R34)? -/
def BarId.compared : BarId → Bool
  | .grid _ => false
  | _ => true

/-- Blocks that share a barrier and whose compare at its phase is still to be made. -/
def uncompared (s : State) (b : Block) (id : BarId) : List Nat :=
  (s.blocks.filter fun y => id.compared && twinned b && sharesBar b y id && twinned y && y.state != .ended
    && !(y.grants.any fun g => g.1 == barKey id)).map (·.bid)

/-- The phase completes when the expected count is reached (09 R222, 01 R22); ACOMMIT's also waits for the matrix unit, and a
redundant block's for its compare (01 R34). -/
def tryPhase (s : State) (bid : Nat) (id : BarId) : State :=
  match s.block? bid with
  | none => s
  | some b =>
    match getBar s b id with
    | none => s
    | some x =>
      if x.expected ≤ x.arrived ∧ !(id == .commit && (matrixBusy s bid || !commitKnown b)) then
        match uncompared s b id with
        | [] =>
          completePhase { s with
            blocks := s.blocks.map fun y => if sharesBar b y id then dropGrant y (barKey id) else y } b id
        | left => left.foldl (fun s i => s.onBlock i fun y => openCompare y (barKey id) (heldCounts y)) s
      else s

/-- An arrival of a thread (09 R222). -/
def arrive (s : State) (bid tid : Nat) (id : BarId) : State :=
  match s.block? bid with
  | none => s
  | some b =>
    match getBar s b id with
    | none => s
    | some x =>
      let s := setBar s b { x with arrived := x.arrived + 1 }
      let s := s.onBlock bid fun y =>
        { y with threads := y.threads.map fun t => if t.tid = tid then { t with outst := t.outst ++ [id] } else t }
      tryPhase s bid id

/-- An instruction that arrives and then waits goes on at once when its own arrival completed the phase. -/
def afterArrival (s : State) (bid tid : Nat) (id : BarId) (len : Nat) : State :=
  match s.thread? bid false tid with
  | none => s
  | some t => if t.outst.contains id then s else s.setThread bid false ({ t with barsWait := false }.advance len)

/-- The names of every barrier a block's threads count in; a pair of twins counts once in the grid's, as its primary. -/
def allBars (s : State) (b : Block) : List BarId :=
  b.bars.map (·.id)
  ++ (((s.clusters.find? fun c => c.cid == b.cluster).map (·.bars)).getD []).map (·.id)
  ++ if twinned b && !b.primary then []
     else (((s.launches.find? fun l => l.lid == b.launch).map (·.bars)).getD []).map (·.id)

/-- A thread leaves one barrier: its expected count falls, and an outstanding arrival is withdrawn (01 R22, 09 R223). -/
def leaveBar (s : State) (bid : Nat) (outst : List BarId) (id : BarId) : State :=
  match s.block? bid with
  | none => s
  | some b =>
    match getBar s b id with
    | none => s
    | some x =>
      tryPhase (setBar s b { x with
                                    expected := x.expected - 1,
                                    arrived := if outst.contains id then x.arrived - 1 else x.arrived }) bid id

/-! ## Threads that end -/

/-- Is the team slot free of live threads, with its counters at zero (01 R14)? -/
def slotIdle (b : Block) (tm : Team) : Bool := (b.live tm.slot).isEmpty && tm.ctr.toList.all (· == 0)

/-- A slot is given up once idle, and a block with nothing left ends (01 R14, R30). Access threads of a team without live
threads end with it (log 12). -/
def settleBlock (b : Block) : Block :=
  let idle := fun (slot : Nat) => (b.teams.find? fun tm => tm.slot == slot).any (slotIdle b)
  let b : Block := { b with
                    teams := b.teams.map fun tm => if slotIdle b tm then { tm with held := false } else tm,
                    access := b.access.map fun t =>
                      if t.running && (b.live t.slot).isEmpty then { t with life := .exited } else t }
  let live := match b.state with
    | .running => true
    | .asked _ _ => true
    | .window _ _ => true
    | _ => false
  if live && b.threads.all (fun t => t.life == .exited) && b.teams.all (fun tm => idle tm.slot)
  then { b with state := .ended } else b

/-- The threads leave every group, signing round, set operation and barrier, and their pending producers are discarded
(01 R30, 07 R165); life is what becomes of them. A producer's flags go with its value, also where the thread only parks, of
which the spec says nothing (DESIGN CHOICE, log 72). -/
def dropThreads (s : State) (bid : Nat) (tids : List Nat) (life : Life) (leave : Bool) : State :=
  let outs := ((s.block? bid).map fun b =>
    (b.threads.filter fun t => tids.contains t.tid).map fun t => t.outst).getD []
  let s : State := { s with
    prods := s.prods.filter fun p => !(p.bid == bid && !p.acc && tids.contains p.tid),
    ops := s.ops.map fun o => if o.bid = bid ∧ tids.contains o.tid then { o with tok := none } else o }
  let s := s.onBlock bid fun b =>
    { b with
      threads := b.threads.map fun t =>
        if tids.contains t.tid then
          { t with
                   life := life, wait := .ready, reconv := none, barsWait := false,
                   outst := if leave then [] else t.outst, inHandler := false }
        else t,
      groups := if leave then
          (b.groups.map fun g => { g with members := g.members.filter fun m => !tids.contains m }).filter
            fun g => !g.members.isEmpty
        else b.groups,
      arrivals := b.arrivals.filter fun a => !tids.contains a.tid,
      rounds := (b.rounds.map fun r => { r with signers := r.signers.filter fun m => !tids.contains m }).filter
        fun r => !r.signers.isEmpty,
      commitVals := b.commitVals.filter fun v => !tids.contains v.1,
      cmpAt := b.cmpAt.filter fun c => !tids.contains c.1,
      teams := b.teams.map fun tm =>
        { tm with
          claims := tm.claims.filter fun c =>
            !((b.threads.any fun t => tids.contains t.tid && 32 * 16 * t.slot + t.lane == 32 * 16 * tm.slot + c.1 % 32)),
          senders := tm.senders.filter fun c => !tids.contains c.2 } }
  if leave then
    outs.foldl (fun a o =>
      ((a.block? bid).map (allBars a)).getD [] |>.foldl (fun c id => leaveBar c bid o id) a) s
  else s

/-- Every thread of a team ends at once, its cells, claims, queues and shadows are discarded, and its outstanding engine
operations complete with their results discarded (01 R30, 08 R195, 10 R249). An operation still bound to a PENDING guard is
discarded with nothing transferred: the guard goes with the team and can no longer resolve (DESIGN CHOICE, log 71). -/
def killThreads (s : State) (bid slot : Nat) : State :=
  match s.block? bid with
  | none => s
  | some b =>
    let tids := (b.live slot).map (·.tid)
    let s := dropThreads s bid tids .exited true
    let s : State := { s with
      prods := s.prods.filter fun p => !(p.bid == bid && p.acc && p.tid / 32 == slot),
      ops := s.ops.map fun o =>
        if o.bid = bid ∧ o.slot = slot then
          { o with
                   orphan := true, tok := none,
                   binding := (match o.binding with
                     | .episode _ _ => .discard
                     | x => x) }
        else o }
    s.onBlock bid fun b => settleBlock
      { b with
        access := b.access.map fun t => if t.slot = slot then { t with life := .exited } else t,
        shadows := b.shadows.filter fun x => x.slot != slot,
        handles := b.handles.mapIdx fun i x =>
          { x with skp := x.skp && b.shadows.any fun y => y.handle == i && y.slot != slot },
        teams := b.teams.map fun tm =>
          if tm.slot = slot then
            { tm with
                      cells := [], claims := [], senders := [], fq := Vector.replicate 128 [],
                      guards := Vector.replicate 16 { state := .free, episode := 0 } }
          else tm }

/-! ## Records and interrupts (13 R283 to R285) -/

/-- A bit of ISR is set; its message is sent once where the mask lets it (13 R285). -/
def isrSet (s : State) (p bit : Nat) : State :=
  let x := s.part p
  let send := !x.isr.getLsbD bit && x.imask.getLsbD bit
  let m := BitVec.ofNat 5 (2 ^ bit)
  s.setPart p { x with
    isr := x.isr ||| m, sent := if send then x.sent ||| m else x.sent, msgs := if send then x.msgs ++ [bit] else x.msgs }

/-- Does a partition's page take requests: its virtual function is enabled, and not RESETTING (13 R287, 18 R372, R373)? -/
def barOpen (s : State) (p : Nat) : Bool := (s.part p).state != .resetting && (s.part p).state != .off

/-- Sticky bits of a context are set (13 R283). -/
def stick (s : State) (ctx : Nat) (bits : Byte) : State :=
  { s with ctxs := s.ctxs.map fun c => if c.id = ctx then { c with sticky := c.sticky ||| bits } else c }

def stickIllegal : Byte := 1

def stickDouble : Byte := 2

def stickCmsn : Byte := 4

def stickCodeint : Byte := 8

def stickOvercap : Byte := 16

def stickRedund : Byte := 32

def stickCapf : Byte := 64

def stickAssist : Byte := 128

/-- A 64-byte fault record (13 R284); detail is bytes 44 to 63. -/
def recordBytes (s : State) (cause ctx q grid blk pc addr : Nat) (detail : List Byte) : List Byte :=
  leBytes 4 cause ++ leBytes 2 ctx ++ leBytes 2 q ++ leBytes 4 grid ++ leBytes 4 blk ++ leBytes 8 pc ++ leBytes 8 addr
  ++ leBytes 6 s.ptpSec ++ leBytes 4 s.ptpNs ++ leBytes 2 0
  ++ (detail ++ List.replicate 20 0).take 20

/-- A record enters the partition's fault report ring, or is dropped and counted (13 R284). -/
def postRecord (s : State) (p : Nat) (rcd : List Byte) : State :=
  let x := s.part p
  if (x.frhead - x.frtail).toNat = x.frsize then
    if x.frlost = BitVec.allOnes 32 then s
    else isrSet (s.setPart p { x with frlost := x.frlost + 1 }) p 4
  else
    let s : State := { s with mem := cellsPut s.mem (x.frbase.toNat + 64 * (x.frhead.toNat % x.frsize)) rcd }
    isrSet (s.setPart p { x with frhead := x.frhead + 1 }) p 0

/-! ## Context faults (13 R282, 15 R322) -/

/-- Blocks of a context end without a canvas; what has been performed stays. -/
def endBlocks (s : State) (bids : List Nat) : State :=
  { s with
    blocks := s.blocks.map fun b =>
      if bids.contains b.bid then
        { b with
                 state := .ended, threads := b.threads.map fun t => { t with life := .exited },
                 access := b.access.map fun t => { t with life := .exited }, spawn := [], held := [],
                 node := none }
      else b,
    prods := s.prods.filter fun p => !bids.contains p.bid,
    ops := s.ops.filter fun o => !bids.contains o.bid,
    pents := s.pents.filter fun p => !bids.contains p.bid,
    faults := s.faults.filter fun f => match f.asker with
      | .block x => !bids.contains x
      | _ => true }

/-- Is a RESUME of a context under way? Blocks of it that have been placed run already. -/
def resuming (s : State) (c : Ctx) : Bool :=
  let p := s.part c.part
  c.state == .suspended && p.ccmdBusy && p.ccmdOp == 3 && p.ccmdCtx == c.id

/-- An ACTIVE context is FAULTED (13 R282 has no other way there), and so is one that a RESUME under way is making ACTIVE
(DESIGN CHOICE, log 23): its blocks end, its pending launches are dropped, its queues stop with ERR 4, and its open launches
will complete FAULTED (13 R282, 14 R289, 15 R322). -/
def contextFault (s : State) (ctx : Nat) : State :=
  match s.ctx? ctx with
  | none => s
  | some c => if c.state ≠ .active ∧ !resuming s c then s else
    let s := endBlocks s ((s.blocks.filter fun b => b.ctx == ctx).map (·.bid))
    let s := s.setCtx { c with state := .faulted }
    let s : State := { s with
      launches := s.launches.map fun l => if l.ctx = ctx then { l with status := max l.status 3, next := l.nblk } else l,
      nodes := s.nodes.filter fun n => n.ctx != ctx,
      credits := s.credits.filter fun n => n.ctx != ctx,
      commissions := s.commissions.filter fun n => n.ctx != ctx,
      captured := s.captured.filter fun n => n.ctx != ctx,
      faults := s.faults.filter fun f => f.ctx != ctx }
    let p := s.part c.part
    let ready := p.queues.toList.filterMap fun q => if q.ctx = ctx then q.ready else none
    let s : State := { s with packets := s.packets ++ ready.map fun x => { x with started := true } }
    s.setPart c.part { p with
      queues := p.queues.map fun q =>
        if q.ctx ≠ ctx then q
        else if q.state = .mapped ∨ q.state = .unmapped then { q with state := .stopped, err := 4, ready := none }
        else { q with ready := none } }

/-! ## Commission faults (15 R329, R330) -/

/-- The record of a commission fault in the context's area, and CMSN set. -/
def commissionRecord (s : State) (b : Block) (info : CmsnInfo) (inner pc addr : Nat) : State :=
  match s.ctx? b.ctx with
  | none => s
  | some c =>
    let v : View := ctxView b.part b.ctx
    let s := match loadAt s v c.cfault.toNat 8, loadAt s v (c.cfault.toNat + 8) 8 with
      | .inl (w, _), .inl (r, _) =>
        if (BitVec.ofNat 64 w - BitVec.ofNat 64 r).toNat < c.cfaultN then
          let rcd := recordBytes s 9 b.ctx 0xFFFF info.grid.toNat info.blk pc addr
            (leBytes 8 info.addr.toNat ++ leBytes 8 info.desc.toNat ++ leBytes 2 inner)
          let (s, f) := storeBytes s v (c.cfault.toNat + 64 * (1 + w % c.cfaultN)) rcd
          if f.isNone then (storeBytes s v c.cfault.toNat (leBytes 8 (w + 1))).1 else s
        else s
      | _, _ => s
    stick s b.ctx stickCmsn

/-! ## The response to an illegal instruction, double faults and traps -/

/-- R30: the team is killed and ILLEGAL is set; in a commission, R330. -/
def illegalAt (s : State) (b : Block) (t : Thread) : State :=
  match b.commission with
  | some info => commissionRecord (killThreads s b.bid t.slot) b info 15 t.pc.toNat 0
  | none => stick (killThreads s b.bid t.slot) b.ctx stickIllegal

/-- DoubleFault (07 R168, 15 R327) at the instruction ipc; cause is the second cause. -/
def doubleFault (s : State) (b : Block) (t : Thread) (ipc : Word) (cause : Nat) : State :=
  match b.commission with
  | some info => commissionRecord (killThreads s b.bid t.slot) b info 8 ipc.toNat 0
  | none =>
    let first := if t.inHandler then t.tcause.toNat else 0
    let ftpc := if t.inHandler then t.tpc.toNat else 0
    let rcd := recordBytes s 8 b.ctx 0xFFFF b.grid.toNat b.idx ipc.toNat 0
      ([BitVec.ofNat 8 first, BitVec.ofNat 8 cause, 0, 0] ++ leBytes 8 ftpc)
    postRecord (stick (killThreads s b.bid t.slot) b.ctx stickDouble) b.part rcd

/-- A producer's value reaches its thread (02 R38, R41): the y register it named becomes full. -/
def deliver (p : Prod) (t : Thread) : Thread :=
  let t := match p.y with
    | none => t
    | some n =>
      let t := t.setY n p.val
      { t with poison := (t.poison.filter fun (q : Nat × Poison) => q.1 != n) ++ (p.poison.map fun d => (n, d)).toList }
  { t with fpst := t.fpst ||| p.flags }

/-- Every earlier load of the thread completes before a handler runs (15 R325). -/
def completeLoads (s : State) (bid tid : Nat) : State :=
  let mine := fun (p : Prod) => p.bid == bid && !p.acc && p.tid == tid && (p.kind == .load || p.kind == .strong)
  let s' : State := { s with prods := s.prods.filter fun p => !mine p }
  s'.onBlock bid fun b =>
    { b with
      threads := b.threads.map fun t =>
        if t.tid = tid then (s.prods.filter mine).foldl (fun a p => deliver p a) t else t }

/-- TrapEntry (07 R168) from the instruction at ipc: the thread enters its handler, or meets a double fault. -/
def trapEntry (s : State) (bid tid : Nat) (ipc : Word) (cause : Nat) (tpc tval : Word) : State :=
  let s := completeLoads s bid tid
  match s.block? bid with
  | none => s
  | some b =>
    match b.thread? false tid with
    | none => s
    | some t =>
      if t.inHandler || t.tvec == 0 then doubleFault s b t ipc cause
      else s.setThread bid false
        { t with
                 tcause := BitVec.ofNat 8 cause, tpc := tpc, tval := tval, inHandler := true, pc := t.tvec, wait := .ready,
                 reconv := none }

/-- RTE (07 R169): the return from a handler to a target. -/
def trapReturn (t : Thread) (target : Word) : Thread := { t.goto target with tcause := 0, inHandler := false }

/-! ## Faults of a thread's instruction (15 R321 to R323) -/

/-- A program fault (15 R322, R330): sr.tpc and sr.tval, then the context fault and its record, or the commission fault. -/
def programFault (s : State) (b : Block) (t : Thread) (acc : Bool) (code : Nat) (pc addr : Word) (cls size : Nat) : State :=
  let s := s.setThread b.bid acc { t with tpc := pc, tval := addr }
  match b.commission with
  | some info => commissionRecord (killThreads s b.bid t.slot) b info code pc.toNat addr.toNat
  | none =>
    let rcd := recordBytes s code b.ctx 0xFFFF b.grid.toNat b.idx pc.toNat addr.toNat
      [BitVec.ofNat 8 cls, BitVec.ofNat 8 size]
    postRecord (contextFault s b.ctx) b.part rcd

/-- Where a fault was met: the thread with its instruction's PC and the access size, or the MMA. -/
structure Site where
  who : Option Cur := none
  pc : Word := 0
  size : Nat := 0
  mma : Option Nat := none

/-- A translation fault is put to service, once for each page and asker (15 R321, R323). -/
def requestService (s : State) (b : Block) (va : Word) (cls level : Nat) (entry : Word) (asker : Asker) (site : Site) :
    State :=
  if s.faults.any fun f => f.ctx == b.ctx && f.va.toNat / 4096 == va.toNat / 4096 && f.asker == asker && f.mma == site.mma then s
  else { s with
    nextId := s.nextId + 1,
    faults := s.faults ++ [{ id := s.nextId, part := b.part, ctx := b.ctx, va := va, access := cls, level := level,
                             entry := entry, asker := asker, who := site.who, pc := site.pc, size := site.size,
                             mma := site.mma, served := false, refused := false,
                             host := (s.part b.part).dsplit.getLsbD 0, posted := false,
                             raised := s.time }] }

/-- A block is suspended; one of which a capture is wanted keeps that wish (16 R348). -/
def suspendOne (x : Block) : Block :=
  match x.state with
  | .running => { x with state := .suspended true none, wanted := false }
  | .asked _ _ => { x with state := .suspended true none, wanted := true }
  | .window _ _ => { x with state := .suspended true none, wanted := true }
  | _ => x

/-- The block, with its cluster, is suspended (15 R323). -/
def suspendBlock (s : State) (b : Block) : State :=
  { s with
    blocks := s.blocks.map fun x =>
      if x.bid = b.bid ∨ (1 < b.csize ∧ x.cluster = b.cluster) then suspendOne x else x }

/-- A serviceable fault suspends the block, with its cluster, until it is served (15 R323). -/
def suspendFor (s : State) (b : Block) (va : Word) (cls level : Nat) (entry : Word) (site : Site) : State :=
  requestService (suspendBlock s b) b va cls level entry (.block b.bid) site

/-! ## Banks (17 R365, R366) -/

/-- Banks retired in an array of a core, the spare's included. -/
def coreStat (s : State) (die core : Nat) : CoreStat :=
  (s.cores.find? fun c => c.die == die && c.core == core).getD
    { die := die, core := core, regs := [], scratch := [], acc := [], l1 := [], lost := false }

/-- Is it a bank, the spare's number one above the others? -/
def Drain.exists' (d : Drain) : Bool :=
  decide (d.die < Config.dies) && match d.arr with
    | .regs => decide (d.core < 96) && decide (d.bank ≤ 24)
    | .scratch => decide (d.core < 96) && decide (d.bank ≤ if d.core < Config.mCores then 32 else 128)
    | .acc => decide (d.core < Config.mCores) && decide (d.bank ≤ 16)
    | .l1 => decide (d.core < 96) && decide (d.bank ≤ 16)
    | .slice => decide (d.bank < Config.slices)

/-- Banks of an array of a core that are retired. -/
def CoreStat.banks (c : CoreStat) : BankArray → List Nat
  | .regs => c.regs
  | .scratch => c.scratch
  | .acc => c.acc
  | .l1 => c.l1
  | .slice => []

def retiredBank (s : State) (d : Drain) : Bool :=
  match d.arr with
  | .slice => s.deadSlices.contains (d.die, d.bank)
  | a => ((coreStat s d.die d.core).banks a).contains d.bank

/-- The retirement of a bank is to be decided. -/
def wantRetire (s : State) (d : Drain) : State :=
  if !d.exists' || retiredBank s d || s.drains.contains d || s.repairs.contains d then s
  else { s with repairs := s.repairs ++ [d] }

/-- The removal of a bank of near DRAM is to be decided (17 R369). -/
def wantDram (s : State) (die bank : Nat) : State :=
  if s.dramWant.contains (die, bank) then s else { s with dramWant := s.dramWant ++ [(die, bank)] }

/-- The bank as one that is retired; far memory and near DRAM have none. -/
def bankDrain : MemBank → Option Drain
  | .dirtyLine die core bank => some { arr := .l1, die := die, core := core, bank := bank }
  | .slice die n => some { arr := .slice, die := die, core := 0, bank := n }
  | _ => none

/-- An uncorrectable error was consumed in a bank (17 R366, R369). -/
def wantRepair (s : State) (m : MemBank) : State :=
  match m with
  | .near die bank => wantDram s die bank
  | m => match bankDrain m with
    | some d => wantRetire s d
    | none => s

/-- A fault consumes the marked errors that it was met at. -/
def consume (s : State) (v : View) (f : AccFault) : State :=
  (consumed s v f).foldl (fun s m => wantRepair { s with marks := s.marks.filter (· != m) } m.bank) s

/-! ## The fate of faults -/

/-- The fate of a fault that a thread's instruction meets before any effect. -/
def accessFault (s : State) (b : Block) (t : Thread) (acc : Bool) (f : AccFault) (pc : Word) (cls size : Nat) : State :=
  match f.kind with
  | .serviceable level entry =>
    suspendFor s b f.addr cls level entry { who := some { bid := b.bid, tid := t.tid, acc := acc }, pc := pc, size := size }
  | .program code => programFault (consume s b.view f) b t acc code pc f.addr cls size

/-! ## Restart regions (01 R32) -/

/-- The block holds uncommitted tiles (10 R226). -/
def uncommitted (b : Block) : Bool := b.handles.toList.any (·.unc)

/-- Lie the bytes from off to stop - 1 in ranges (start and size)? Fuel bounds the ranges gone through. -/
def inRanges (rs : List (Nat × Nat)) : Nat → Nat → Nat → Bool
  | 0, off, stop => decide (stop ≤ off)
  | k + 1, off, stop =>
    decide (stop ≤ off) || match rs.find? fun r => decide (r.1 ≤ off) && decide (off < r.1 + r.2) with
      | some r => inRanges rs k (r.1 + r.2) stop
      | none => false

/-- Lie n bytes of the block's own scratchpad from off on in the declared staging ranges? -/
def inStaging (b : Block) (off n : Nat) : Bool := inRanges b.kernel.staging b.kernel.staging.length off (off + n)

/-- May a store of n bytes at va be made inside a restart region (01 R32)? -/
def regionStoreOk (b : Block) (va n : Nat) : Bool :=
  match ownScratch b va n with
  | some off => inStaging b off n
  | none => false

/-! ## Capacity (04 R87, 17 R365) -/

/-- Retired banks that lower capacity: all but the one the spare stands in for. -/
def lossBanks (l : List Nat) : Nat := l.length - 1

def capRegs (c : CoreStat) : Nat := 49152 - 2048 * lossBanks c.regs

def capScratch (kind : CoreKind) (c : CoreStat) : Nat :=
  (if kind = .mCore then 262144 else 1048576) - 8192 * lossBanks c.scratch

def capTiles (kind : CoreKind) (c : CoreStat) : Nat := if kind = .mCore then 256 - 16 * lossBanks c.acc else 0

def capThreads (c : CoreStat) : Nat := min 1536 (capRegs c / 32)

def dieCount (m : BitVec 8) : Nat := popCount m.toNat 8

/-- CAPQ code 4 (13 R278): the partition's atelier slices less those retired since the last GO. -/
def capAtelier (p : Part) : Nat := (dieCount p.cfg.dies * p.cfg.atl * 64 - p.aret) * 65536

/-- CAPQ code 5: near DRAM of the partition's dies less the removed banks (17 R369). -/
def capNear (s : State) (p : Part) : Nat :=
  dieCount p.cfg.dies * Config.nearBytes
    - 805306368 * (s.deadDram.filter fun d => p.cfg.dies.getLsbD d.1).length

/-- The value of a CAPQ code (04 R87); reserved codes give 0. -/
def capacity (s : State) (b : Block) (code : Nat) : Nat :=
  let c := coreStat s b.die b.core
  match code with
  | 0 => capRegs c
  | 1 => capScratch b.kind c
  | 2 => capTiles b.kind c
  | 3 => capThreads c
  | 4 => capAtelier (s.part b.part)
  | 5 => capNear s (s.part b.part)
  | _ => 0

/-- The launch of a block. -/
def launchOf (s : State) (b : Block) : Option Launch := s.launches.find? fun l => l.lid == b.launch

/-- What was last read of a code, which no later read exceeds (04 R88): the codes of the partition by any block of the launch,
those of the executing core by the block (04 R87's scopes). -/
def capBound (s : State) (b : Block) (code : Nat) : Option Nat :=
  let reads := match if 4 ≤ code then launchOf s b else none with
    | some l => l.capRead
    | none => b.capRead
  (reads.find? fun x => x.1 == code).map (·.2)

/-- A capacity as the block may read it: within its launch no value rises. -/
def boundedCapacity (s : State) (b : Block) (code : Nat) : Nat :=
  let v := capacity s b code
  min v ((capBound s b code).getD v)

/-- What a CAPQ of the block returns (04 R87, R88); code 3 is derived from the code 0 value of the same read. -/
def readCapacity (s : State) (b : Block) (code : Nat) : Nat :=
  if code = 3 then min 1536 (boundedCapacity s b 0 / 32) else boundedCapacity s b code

/-- The block has read a code. -/
def noteCapacity (s : State) (b : Block) (code : Nat) : State :=
  let c := if code = 3 then 0 else code
  let v := boundedCapacity s b c
  let put := fun (l : List (Nat × Nat)) => l.filter (fun x => x.1 != c) ++ [(c, v)]
  match if 4 ≤ c then launchOf s b else none with
  | some l =>
    { s with launches := s.launches.map fun x => if x.lid = l.lid then { x with capRead := put x.capRead } else x }
  | none => s.onBlock b.bid fun x => { x with capRead := put x.capRead }

/-! ## Clocks (00 R6, 19 R402) -/

/-- A number of µs in the units of State.time. -/
def micros (n : Nat) : Nat := n * 65536000

/-- The quadrant cycles of a core (02 R44): the main clock's, less what sags have held its group back. -/
def quadClock (s : State) (die core : Nat) : Nat :=
  s.cycle - ((s.sags.find? fun x => x.group == 12 * die + core / 8).map (·.lag)).getD 0

/-- The quadrant cycles of a block's core. -/
def Block.clk (b : Block) (s : State) : Nat := quadClock s b.die b.core

/-! ## Issue -/

/-- The issuing thread in its state. -/
structure Here where
  s : State
  b : Block
  t : Thread
  acc : Bool
  len : Nat
deriving DecidableEq, Repr

/-- What an instruction names: its sources in the order rd, ra, rb, rc with their trapping forms (02 R39), its destinations,
further registers that R37 checks, whether access-slice code may hold it (10 R243), and whether it is legal here. -/
structure Use where
  pfx : Option Pfx := none
  srcs : List (Reg × Bool) := []
  dsts : List Reg := []
  more : List Nat := []
  slice : Bool := false
  legal : Here → Bool := fun _ => true

/-- R37: x0, or a register the thread has. -/
def regOk (h : Here) (n : Nat) : Bool := n == 0 || (if h.acc then n < 32 else h.t.wb + n < h.b.kernel.regs)

/-- The state with the issuing thread replaced. -/
def Here.put (h : Here) (s : State) (t : Thread) : State := s.setThread h.b.bid h.acc t

/-- The instruction completes: the thread moves on (07 R158). -/
def Here.done (h : Here) (s : State) (t : Thread) : Out := .next (h.put s (t.advance h.len))

/-- The instruction cannot issue yet; nothing has happened (01 R17). -/
def Here.wait (h : Here) (w : Wait) : Out := .next (h.put h.s { h.t with wait := w })

/-- The illegal-instruction response (01 R30). -/
def Here.illegal (h : Here) : Out := .next (illegalAt h.s h.b h.t)

/-- A trap on the instruction, with sr.tpc its PC (15 R326). -/
def Here.trap (h : Here) (cause : Nat) (tval : Word) : Out :=
  .next (trapEntry h.s h.b.bid h.t.tid h.t.pc cause h.t.pc tval)

/-- A fault of the instruction's access. -/
def Here.fault (h : Here) (f : AccFault) (cls size : Nat) : Out :=
  .next (accessFault h.s h.b h.t h.acc f h.t.pc cls size)

/-- The issuing thread, if there is one. -/
def current (s : State) (len : Nat) : Option Here :=
  match s.cur with
  | none => none
  | some c =>
    match s.block? c.bid with
    | none => none
    | some b =>
      match b.thread? c.acc c.tid with
      | none => none
      | some t => some { s := s, b := b, t := t, acc := c.acc, len := len }

/-- Every register the instruction names, as numbers. -/
def Use.regs (u : Use) : List Nat := u.srcs.map (fun p => p.1.toNat) ++ u.dsts.map (·.toNat) ++ u.more

/-- Is the instruction legal for the thread (02 R37, 10 R243, 06 R136)? -/
def Use.legalFor (u : Use) (h : Here) : Bool :=
  u.regs.all (regOk h) && (!h.acc || (u.slice && u.pfx.isNone && u.srcs.all fun p => !p.2)) && u.legal h

/-- The registers that must be full before the instruction issues: blocking sources, and destinations (02 R39, R40). -/
def Use.ready (u : Use) (t : Thread) : Bool :=
  u.srcs.all (fun p => p.2 || t.xFull p.1) && u.dsts.all t.xFull

/-- The first empty trapping source (02 R39, 15 R326). -/
def Use.trapping (u : Use) (t : Thread) : Option Reg :=
  (u.srcs.find? fun p => p.2 && !t.xFull p.1).map (·.1)

/-- sr.tval of EMPTY_READ (02 R39). -/
def emptyReadVal (t : Thread) (x : Reg) : Word := BitVec.ofNat 64 (x.toNat + 256 * t.yOf x)

/-- The wait for y registers that are empty: an unmatched XRECV claim fills one (01 R28), or a token does, or producers do. -/
def regWait (h : Here) (ys : List Nat) : Wait :=
  let ps := ys.map fun y => h.s.prods.find? fun p => p.bid == h.b.bid && p.acc == h.acc && p.tid == h.t.tid && p.y == some y
  if ps.any fun p => p.any (·.kind == .xrecv) then .xrecv
  else if ps.any (·.isNone) then .engine
  else .dep

/-- The wait of an instruction for the registers it names. -/
def emptyWait (h : Here) (u : Use) : Wait :=
  regWait h (((u.srcs.map (·.1) ++ u.dsts).filter fun x => !h.t.xFull x).filterMap h.t.dstY)

/-- The wait for the registers with these numbers, of which some are empty. -/
def numsWait (h : Here) (nums : List Nat) : Wait := regWait h ((nums.filter fun n => !h.t.nFull n).map (h.t.wb + ·))

/-- The issue of an instruction by the current thread in the order of 15 R418: the illegal-instruction response, the waits,
EMPTY_READ, then the instruction's own k. -/
def issue (s : State) (u : Use) (k : Here → Out) : Out :=
  match current s (pfxLen u.pfx) with
  | none => .fault .noThread
  | some h =>
    if !u.legalFor h then h.illegal
    else if !u.ready h.t then h.wait (emptyWait h u)
    else match u.trapping h.t with
      | some x => h.trap 1 (emptyReadVal h.t x)
      | none => k h

/-- The destination a whole-thread instruction waits for: none where an inactive thread merges (06 R134). -/
def dstOf (p : Option Pfx) (s : State) (rd : Reg) : List Reg :=
  match current s 4 with
  | none => [rd]
  | some h => if active p h.t || pfxZero p then [rd] else []

/-- The first poisoned source of an access thread (10 R245). -/
def firstPoison (h : Here) (xs : List Reg) : Option Poison :=
  if h.acc then
    xs.findSome? fun x => if x = 0 then none else (h.t.poison.find? fun q => q.1 == h.t.yOf x).map (·.2)
  else none

/-- A value written to x; an access thread's register takes or loses its poison mark with it (10 R245). -/
def writeP (h : Here) (t : Thread) (x : Reg) (v : Word) (xs : List Reg) : Thread :=
  if !h.acc ∨ x = 0 then t.writeX x v
  else
    let n := t.yOf x
    let t := t.writeX x v
    { t with poison := (t.poison.filter fun q => q.1 != n) ++ ((firstPoison h xs).map fun d => (n, d)).toList }

/-- Result(x, v) of 07 R147, the sources xs passing their poison on. -/
def Here.result (h : Here) (p : Option Pfx) (x : Reg) (v : Word) (xs : List Reg) : Out :=
  if active p h.t then h.done h.s (writeP h h.t x v xs)
  else if pfxZero p then h.done h.s (h.t.writeX x 0)
  else h.done h.s h.t

/-- A long-latency producer starts (02 R38): its destination is marked empty and a completion is due. -/
def Here.produce (h : Here) (s : State) (t : Thread) (rd : Reg) (kind : ProdKind) (val : Word) (flags : Flags)
    (poison : Option Poison) (lat : Nat) (desc : OpDesc) : Out :=
  let p : Prod := { id := s.nextId, bid := h.b.bid, tid := h.t.tid, acc := h.acc, y := t.dstY rd, val := val,
                    poison := poison, flags := flags, kind := kind, ready := true, due := s.cycle + lat, desc := desc }
  h.done { s with nextId := s.nextId + 1, prods := s.prods ++ [p] } (t.emptyX rd)

def noDesc : OpDesc := { major := 0, fn := 0, qual := 0, rm := 0, operands := [] }

end Sys2Proof.Machine
end

