-- ==== Sys2Proof/Machine/Float.lean ====
section
/-! DEFINITION. FP-A, FP-B, FP-C, FUNARY, PACKED-A and PACKED-B, PPACK and PUNPK (08 R176 to R187, R198). -/

namespace Sys2Proof.Machine

/-- RaiseFlags (03 R64). -/
def raiseFlags (t : Thread) (fl : Flags) : Thread := { t with fpst := t.fpst ||| fl }

/-- An element-wise instruction that completes at issue: elements of b bits, n of them, r m their values and flags, hi the
bits above them (08 R176, R178). -/
def Here.elems (h : Here) (p : Option Pfx) (rd : Reg) (b n : Nat) (r : Nat → Nat × Flags) (hi : Nat → Nat) : Out :=
  let k := enableMask p h.t
  let w := elemBuild k (pfxZero p) (h.t.readX rd) b n (fun m => (r m).1) hi
  h.done h.s (raiseFlags (h.t.writeX rd w) (elemFlags k b n r))

/-- An FP-A, FP-B or FP-C instruction on two sources (08 R178). -/
def fp2 (p : Option Pfx) (rd ra rb : Reg) (fea feb : Bool) (typ : BitVec 2) (s : State)
    (op : Fmt → RM → Bool → Nat → Nat → Nat × Flags) : Out :=
  issue s { pfx := p, srcs := [(ra, fea), (rb, feb)], dsts := [rd] } fun h =>
    let f := fpFmt typ
    let a := h.t.readX ra
    let c := h.t.readX rb
    h.elems p rd f.slot f.count
      (fun m => op f (effRM p h.t) (pfxSat p) (elem a m f.slot) (elem c m f.slot)) (fun _ => 0)

/-- FADD (08 R178). -/
def execFadd (p : Option Pfx) (rd ra rb : Reg) (fea feb : Bool) (typ : BitVec 2) (s : State) : Out :=
  fp2 p rd ra rb fea feb typ s fun f rm sat x y => opFadd f rm sat x y

/-- FSUB (08 R178). -/
def execFsub (p : Option Pfx) (rd ra rb : Reg) (fea feb : Bool) (typ : BitVec 2) (s : State) : Out :=
  fp2 p rd ra rb fea feb typ s fun f rm sat x y => opFsub f rm sat x y

/-- FMUL (08 R178). -/
def execFmul (p : Option Pfx) (rd ra rb : Reg) (fea feb : Bool) (typ : BitVec 2) (s : State) : Out :=
  fp2 p rd ra rb fea feb typ s fun f rm sat x y => opFmul f rm sat x y

/-- FDIV (08 R178). -/
def execFdiv (p : Option Pfx) (rd ra rb : Reg) (fea feb : Bool) (typ : BitVec 2) (s : State) : Out :=
  fp2 p rd ra rb fea feb typ s fun f rm sat x y => opFdiv f rm sat x y

/-- FMIN (08 R180). -/
def execFmin (p : Option Pfx) (rd ra rb : Reg) (fea feb : Bool) (typ : BitVec 2) (s : State) : Out :=
  fp2 p rd ra rb fea feb typ s fun f _ _ x y => opFmin f x y

/-- FMAX (08 R180). -/
def execFmax (p : Option Pfx) (rd ra rb : Reg) (fea feb : Bool) (typ : BitVec 2) (s : State) : Out :=
  fp2 p rd ra rb fea feb typ s fun f _ _ x y => opFmax f x y

/-- FCMPLT (08 R180). -/
def execFcmplt (p : Option Pfx) (rd ra rb : Reg) (fea feb : Bool) (typ : BitVec 2) (s : State) : Out :=
  fp2 p rd ra rb fea feb typ s fun f _ _ x y => opFcmplt f x y

/-- FCMPEQ (08 R180). -/
def execFcmpeq (p : Option Pfx) (rd ra rb : Reg) (fea feb : Bool) (typ : BitVec 2) (s : State) : Out :=
  fp2 p rd ra rb fea feb typ s fun f _ _ x y => opFcmpeq f x y

/-- FCMPLE (08 R180). -/
def execFcmple (p : Option Pfx) (rd ra rb : Reg) (fea feb : Bool) (typ : BitVec 2) (s : State) : Out :=
  fp2 p rd ra rb fea feb typ s fun f _ _ x y => opFcmple f x y

/-- FCMPUN (08 R180). -/
def execFcmpun (p : Option Pfx) (rd ra rb : Reg) (fea feb : Bool) (typ : BitVec 2) (s : State) : Out :=
  fp2 p rd ra rb fea feb typ s fun f _ _ x y => opFcmpun f x y

/-- FCOPYSIGN (08 R178). -/
def execFcopysign (p : Option Pfx) (rd ra rb : Reg) (fea feb : Bool) (typ : BitVec 2) (s : State) : Out :=
  fp2 p rd ra rb fea feb typ s fun f _ _ x y => opFcopysign f x y

/-- FMA (08 R179): the addend is the old rd without a prefix, rc with one. -/
def execFma (p : Option Pfx) (rd ra rb : Reg) (fea feb : Bool) (typ : BitVec 2) (s : State) : Out :=
  let addend : List (Reg × Bool) := match p with
    | some q => [(q.rc, q.fec)]
    | none => []
  issue s { pfx := p, srcs := [(ra, fea), (rb, feb)] ++ addend, dsts := [rd] } fun h =>
    let f := fpFmt typ
    let a := h.t.readX ra
    let c := h.t.readX rb
    let z := match p with
      | some q => h.t.readX q.rc
      | none => h.t.readX rd
    h.elems p rd f.slot f.count
      (fun m => opFma f (effRM p h.t) (pfxSat p) (elem a m f.slot) (elem c m f.slot) (elem z m f.slot)) (fun _ => 0)

/-- Elements a FUNARY instruction acts on (08 R182). -/
def unaryCount (ws wd : Nat) : Nat := 64 / max ws wd

/-- A FUNARY instruction that completes at issue (08 R182, R184, R185): ws and wd are the slots of source and destination. -/
def unaryOp (p : Option Pfx) (rd ra : Reg) (fea : Bool) (ws wd : Nat) (s : State)
    (op : RM → Bool → Nat → Nat × Flags) (hi : Nat → Nat) : Out :=
  issue s { pfx := p, srcs := [(ra, fea)], dsts := [rd] } fun h =>
    let a := h.t.readX ra
    h.elems p rd wd (unaryCount ws wd) (fun m => op (effRM p h.t) (pfxSat p) (elem a m ws)) hi

/-- A special function (08 R183): a long-latency producer; a thread without an active element writes rd at once (06 R134). -/
def specialOp (p : Option Pfx) (rd ra : Reg) (dst : BitVec 3) (src : BitVec 4) (fea : Bool) (fn : Nat) (lat : Nat) (s : State)
    (op : Fmt → RM → Num → Nat × Flags) : Out :=
  issue s { pfx := p, srcs := [(ra, fea)], dsts := [rd] } fun h =>
    let f := Fmt.ofCode src.toNat
    let n := f.count
    let a := h.t.readX ra
    let k := enableMask p h.t
    let r := fun m => op f (effRM p h.t) (decodeNum f (elem a m f.slot))
    let w := elemBuild k (pfxZero p) (h.t.readX rd) f.slot n (fun m => (r m).1) (fun _ => 0)
    if (List.range n).any (fun m => elemOn k m f.slot) then
      h.produce h.s h.t rd .special w (elemFlags k f.slot n r) none lat
        { major := 15, fn := fn, qual := 16 * dst.toNat + src.toNat, rm := rmAt p h.t, operands := [a] }
    else h.done h.s (h.t.writeX rd w)

/-- FSQRT (08 R183). -/
def execFsqrt (p : Option Pfx) (rd ra : Reg) (dst : BitVec 3) (src : BitVec 4) (fea : Bool) (s : State) : Out :=
  specialOp p rd ra dst src fea 0 Config.latRoot s fun f rm x => sqrtOp f rm x

/-- FRCP (08 R183). -/
def execFrcp (p : Option Pfx) (rd ra : Reg) (dst : BitVec 3) (src : BitVec 4) (fea : Bool) (s : State) : Out :=
  specialOp p rd ra dst src fea 1 Config.latSpecial s fun f rm x => rcpOp f rm x

/-- FRSQ (08 R183). -/
def execFrsq (p : Option Pfx) (rd ra : Reg) (dst : BitVec 3) (src : BitVec 4) (fea : Bool) (s : State) : Out :=
  specialOp p rd ra dst src fea 2 Config.latSpecial s fun f _ x => rsqOp f x

/-- FEXP2 (08 R183). -/
def execFexp2 (p : Option Pfx) (rd ra : Reg) (dst : BitVec 3) (src : BitVec 4) (fea : Bool) (s : State) : Out :=
  specialOp p rd ra dst src fea 3 Config.latSpecial s fun f _ x => exp2Op f x

/-- FLOG2 (08 R183). -/
def execFlog2 (p : Option Pfx) (rd ra : Reg) (dst : BitVec 3) (src : BitVec 4) (fea : Bool) (s : State) : Out :=
  specialOp p rd ra dst src fea 4 Config.latSpecial s fun f _ x => log2Op f x

/-- FSIN (08 R183). -/
def execFsin (p : Option Pfx) (rd ra : Reg) (dst : BitVec 3) (src : BitVec 4) (fea : Bool) (s : State) : Out :=
  specialOp p rd ra dst src fea 5 Config.latSpecial s fun f _ x => sinOp f x

/-- FCOS (08 R183). -/
def execFcos (p : Option Pfx) (rd ra : Reg) (dst : BitVec 3) (src : BitVec 4) (fea : Bool) (s : State) : Out :=
  specialOp p rd ra dst src fea 6 Config.latSpecial s fun f _ x => cosOp f x

/-- FTANH (08 R183). -/
def execFtanh (p : Option Pfx) (rd ra : Reg) (dst : BitVec 3) (src : BitVec 4) (fea : Bool) (s : State) : Out :=
  specialOp p rd ra dst src fea 7 Config.latSpecial s fun f _ x => tanhOp f x

/-- FEXPT (08 R183). -/
def execFexpt (p : Option Pfx) (rd ra : Reg) (dst : BitVec 3) (src : BitVec 4) (fea : Bool) (s : State) : Out :=
  specialOp p rd ra dst src fea 15 Config.latSpecial s fun f _ x => exptOp f x

/-- FABS (08 R184). -/
def execFabs (p : Option Pfx) (rd ra : Reg) (_dst : BitVec 3) (src : BitVec 4) (fea : Bool) (s : State) : Out :=
  let f := Fmt.ofCode src.toNat
  unaryOp p rd ra fea f.slot f.slot s (fun _ _ x => opSign f false x) (fun _ => 0)

/-- FNEG (08 R184). -/
def execFneg (p : Option Pfx) (rd ra : Reg) (_dst : BitVec 3) (src : BitVec 4) (fea : Bool) (s : State) : Out :=
  let f := Fmt.ofCode src.toNat
  unaryOp p rd ra fea f.slot f.slot s (fun _ _ x => opSign f true x) (fun _ => 0)

/-- FCLASS (08 R184). -/
def execFclass (p : Option Pfx) (rd ra : Reg) (_dst : BitVec 3) (src : BitVec 4) (fea : Bool) (s : State) : Out :=
  let f := Fmt.ofCode src.toNat
  unaryOp p rd ra fea f.slot f.slot s (fun _ _ x => opFclass f x) (fun _ => 0)

/-- FROUND (08 R184). -/
def execFround (p : Option Pfx) (rd ra : Reg) (_dst : BitVec 3) (src : BitVec 4) (fea : Bool) (s : State) : Out :=
  let f := Fmt.ofCode src.toNat
  unaryOp p rd ra fea f.slot f.slot s (fun rm _ x => opFround f rm x) (fun _ => 0)

/-- FCVT (08 R185). -/
def execFcvt (p : Option Pfx) (rd ra : Reg) (dst : BitVec 3) (src : BitVec 4) (fea : Bool) (s : State) : Out :=
  let f := Fmt.ofCode src.toNat
  let g := Fmt.ofCode dst.toNat
  unaryOp p rd ra fea f.slot g.slot s (fun rm sat x => opFcvt f g rm sat x) (fun _ => 0)

/-- The bits above a lone integer element narrower than 64 bits: its extension (08 R182). -/
def ftoiHigh (code n w : Nat) (v : Nat) : Nat :=
  if n = 1 ∧ intSigned code ∧ v.testBit (w - 1) then 2 ^ 64 - 2 ^ w else 0

/-- FTOI (08 R185): the destination code is 8 more than the field. -/
def execFtoi (p : Option Pfx) (rd ra : Reg) (dst : BitVec 3) (src : BitVec 4) (fea : Bool) (s : State) : Out :=
  let f := Fmt.ofCode src.toNat
  let code := dst.toNat + 8
  let w := intWidth code
  unaryOp p rd ra fea f.slot w s (fun rm sat x => opFtoi f code rm sat x) (ftoiHigh code (unaryCount f.slot w) w)

/-- ITOF (08 R185). -/
def execItof (p : Option Pfx) (rd ra : Reg) (dst : BitVec 3) (src : BitVec 4) (fea : Bool) (s : State) : Out :=
  let g := Fmt.ofCode dst.toNat
  unaryOp p rd ra fea (intWidth src.toNat) g.slot s (fun rm sat x => opItof src.toNat g rm sat x) (fun _ => 0)

/-- A packed integer instruction (08 R187). -/
def pack2 (p : Option Pfx) (rd ra rb : Reg) (fea feb : Bool) (width : BitVec 2) (s : State)
    (op : Bool → Nat → Nat → Nat → Nat) : Out :=
  issue s { pfx := p, srcs := [(ra, fea), (rb, feb)], dsts := [rd] } fun h =>
    let b := packWidth width
    let a := h.t.readX ra
    let c := h.t.readX rb
    h.elems p rd b (64 / b) (fun m => (op (pfxSat p) b (elem a m b) (elem c m b), 0)) (fun _ => 0)

/-- PADD (08 R187). -/
def execPadd (p : Option Pfx) (rd ra rb : Reg) (fea feb : Bool) (width : BitVec 2) (s : State) : Out :=
  pack2 p rd ra rb fea feb width s fun sat b u v => opPadd sat b u v

/-- PSUB (08 R187). -/
def execPsub (p : Option Pfx) (rd ra rb : Reg) (fea feb : Bool) (width : BitVec 2) (s : State) : Out :=
  pack2 p rd ra rb fea feb width s fun sat b u v => opPsub sat b u v

/-- PMUL (08 R187). -/
def execPmul (p : Option Pfx) (rd ra rb : Reg) (fea feb : Bool) (width : BitVec 2) (s : State) : Out :=
  pack2 p rd ra rb fea feb width s fun sat b u v => opPmul sat b u v

/-- PMIN (08 R187). -/
def execPmin (p : Option Pfx) (rd ra rb : Reg) (fea feb : Bool) (width : BitVec 2) (s : State) : Out :=
  pack2 p rd ra rb fea feb width s fun _ b u v => opPmin b u v

/-- PMAX (08 R187). -/
def execPmax (p : Option Pfx) (rd ra rb : Reg) (fea feb : Bool) (width : BitVec 2) (s : State) : Out :=
  pack2 p rd ra rb fea feb width s fun _ b u v => opPmax b u v

/-- PAVG (08 R187). -/
def execPavg (p : Option Pfx) (rd ra rb : Reg) (fea feb : Bool) (width : BitVec 2) (s : State) : Out :=
  pack2 p rd ra rb fea feb width s fun _ _ u v => opPavg u v

/-- PCMPEQ (08 R187). -/
def execPcmpeq (p : Option Pfx) (rd ra rb : Reg) (fea feb : Bool) (width : BitVec 2) (s : State) : Out :=
  pack2 p rd ra rb fea feb width s fun _ b u v => opPcmpeq b u v

/-- PCMPLT (08 R187). -/
def execPcmplt (p : Option Pfx) (rd ra rb : Reg) (fea feb : Bool) (width : BitVec 2) (s : State) : Out :=
  pack2 p rd ra rb fea feb width s fun _ b u v => opPcmplt b u v

/-- PPACK's value (08 R198): half h of rd is the narrowed elements, active ones only; the other half keeps its value. -/
def ppackVal (k : Byte) (zero : Bool) (old a : Word) (mode b half : Nat) : Word :=
  let n := 32 / b
  BitVec.ofNat 64 ((List.range (2 * n)).foldl (fun acc m =>
    let o := elem old m b
    let v := if m / n = half then
        (if elemOn k m b then narrow mode b (elem a (m % n) (2 * b)) else if zero then 0 else o)
      else o
    acc + v * 2 ^ (m * b)) 0)

/-- PPACK (08 R198). -/
def execPpack (p : Option Pfx) (rd ra : Reg) (mode : BitVec 2) (half : Bool) (width : BitVec 2) (fea : Bool) (s : State) : Out :=
  issue s { pfx := p, srcs := [(ra, fea)], dsts := [rd] } fun h =>
    h.done h.s (h.t.writeX rd (ppackVal (enableMask p h.t) (pfxZero p) (h.t.readX rd) (h.t.readX ra) mode.toNat
      (packWidth width) (if half then 1 else 0)))

/-- PUNPK (08 R198): half h of ra widened, by zero extension when zx holds. -/
def execPunpk (p : Option Pfx) (rd ra : Reg) (zx : Bool) (half : Bool) (width : BitVec 2) (fea : Bool) (s : State) : Out :=
  issue s { pfx := p, srcs := [(ra, fea)], dsts := [rd] } fun h =>
    let b := packWidth width
    let n := 32 / b
    let a := h.t.readX ra
    h.elems p rd (2 * b) n (fun m =>
      let u := elem a (m + if half then n else 0) b
      (if zx then u else wrapInt (2 * b) (intVal true b u), 0)) (fun _ => 0)

end Sys2Proof.Machine
end

