-- ==== Sys2Proof/Machine/Integer.lean ====
section
/-! DEFINITION. ALU-A, ALU-B, the immediate forms and the U group (07 R148 to R154). -/

namespace Sys2Proof.Machine

/-- An R-format integer instruction on two sources (07 R149): v is the row's result. -/
def alu2 (p : Option Pfx) (rd ra rb : Reg) (fea feb slice : Bool) (s : State) (v : Word → Word → Word) : Out :=
  issue s { pfx := p, srcs := [(ra, fea), (rb, feb)], dsts := dstOf p s rd, more := [rd.toNat], slice := slice } fun h =>
    h.result p rd (v (h.t.readX ra) (h.t.readX rb)) [ra, rb]

/-- An integer instruction on one source. -/
def alu1 (p : Option Pfx) (rd ra : Reg) (fea : Bool) (s : State) (v : Word → Word) : Out :=
  issue s { pfx := p, srcs := [(ra, fea)], dsts := dstOf p s rd, more := [rd.toNat], slice := true } fun h =>
    h.result p rd (v (h.t.readX ra)) [ra]

/-- The division family (07 R151): a long-latency producer. -/
def divOp (p : Option Pfx) (rd ra rb : Reg) (fea feb : Bool) (fn : Nat) (s : State) (v : Word → Word → Word) : Out :=
  issue s { pfx := p, srcs := [(ra, fea), (rb, feb)], dsts := dstOf p s rd, more := [rd.toNat] } fun h =>
    let a := h.t.readX ra
    let b := h.t.readX rb
    if active p h.t then
      h.produce h.s h.t rd .divide (v a b) 0 none Config.latDiv
        { major := 1, fn := fn, qual := rb.toNat, rm := rmAt p h.t, operands := [a, b] }
    else h.result p rd 0 []

/-- Shift amount b[5:0] (07 R149). -/
def shAmt (b : Word) : Nat := b.toNat % 64

def bool64 (c : Bool) : Word := if c then 1 else 0

/-- SHL and SHLI (07 R149): Signed(a) × 2^sh. -/
def shlVal (sat : Bool) (a : Word) (sh : Nat) : Word := toI64 sat (a.toInt * 2 ^ sh)

/-- ADD (07 R149). -/
def execAdd (p : Option Pfx) (rd ra rb : Reg) (fea feb : Bool) (s : State) : Out :=
  alu2 p rd ra rb fea feb true s fun a b => toI64 (pfxSat p) (a.toInt + b.toInt)

/-- SUB (07 R149). -/
def execSub (p : Option Pfx) (rd ra rb : Reg) (fea feb : Bool) (s : State) : Out :=
  alu2 p rd ra rb fea feb true s fun a b => toI64 (pfxSat p) (a.toInt - b.toInt)

/-- AND (07 R149). -/
def execAnd (p : Option Pfx) (rd ra rb : Reg) (fea feb : Bool) (s : State) : Out :=
  alu2 p rd ra rb fea feb true s fun a b => a &&& b

/-- OR (07 R149). -/
def execOr (p : Option Pfx) (rd ra rb : Reg) (fea feb : Bool) (s : State) : Out :=
  alu2 p rd ra rb fea feb true s fun a b => a ||| b

/-- XOR (07 R149). -/
def execXor (p : Option Pfx) (rd ra rb : Reg) (fea feb : Bool) (s : State) : Out :=
  alu2 p rd ra rb fea feb true s fun a b => a ^^^ b

/-- ANDN (07 R149). -/
def execAndn (p : Option Pfx) (rd ra rb : Reg) (fea feb : Bool) (s : State) : Out :=
  alu2 p rd ra rb fea feb true s fun a b => a &&& ~~~b

/-- SHL (07 R149). -/
def execShl (p : Option Pfx) (rd ra rb : Reg) (fea feb : Bool) (s : State) : Out :=
  alu2 p rd ra rb fea feb true s fun a b => shlVal (pfxSat p) a (shAmt b)

/-- SHR (07 R149). -/
def execShr (p : Option Pfx) (rd ra rb : Reg) (fea feb : Bool) (s : State) : Out :=
  alu2 p rd ra rb fea feb true s fun a b => a >>> shAmt b

/-- SRA (07 R149). -/
def execSra (p : Option Pfx) (rd ra rb : Reg) (fea feb : Bool) (s : State) : Out :=
  alu2 p rd ra rb fea feb true s fun a b => a.sshiftRight (shAmt b)

/-- ROT (07 R149). -/
def execRot (p : Option Pfx) (rd ra rb : Reg) (fea feb : Bool) (s : State) : Out :=
  alu2 p rd ra rb fea feb true s fun a b => a.rotateRight (shAmt b)

/-- MIN (07 R149). -/
def execMin (p : Option Pfx) (rd ra rb : Reg) (fea feb : Bool) (s : State) : Out :=
  alu2 p rd ra rb fea feb true s fun a b => if b.toInt < a.toInt then b else a

/-- MAX (07 R149). -/
def execMax (p : Option Pfx) (rd ra rb : Reg) (fea feb : Bool) (s : State) : Out :=
  alu2 p rd ra rb fea feb true s fun a b => if a.toInt < b.toInt then b else a

/-- MINN (07 R149). -/
def execMinn (p : Option Pfx) (rd ra rb : Reg) (fea feb : Bool) (s : State) : Out :=
  alu2 p rd ra rb fea feb true s fun a b => if b.toNat < a.toNat then b else a

/-- MAXN (07 R149). -/
def execMaxn (p : Option Pfx) (rd ra rb : Reg) (fea feb : Bool) (s : State) : Out :=
  alu2 p rd ra rb fea feb true s fun a b => if a.toNat < b.toNat then b else a

/-- SLT (07 R149). -/
def execSlt (p : Option Pfx) (rd ra rb : Reg) (fea feb : Bool) (s : State) : Out :=
  alu2 p rd ra rb fea feb true s fun a b => bool64 (decide (a.toInt < b.toInt))

/-- MUL (07 R150). -/
def execMul (p : Option Pfx) (rd ra rb : Reg) (fea feb : Bool) (s : State) : Out :=
  alu2 p rd ra rb fea feb true s fun a b => toI64 (pfxSat p) (a.toInt * b.toInt)

/-- MULH (07 R150). -/
def execMulh (p : Option Pfx) (rd ra rb : Reg) (fea feb : Bool) (s : State) : Out :=
  alu2 p rd ra rb fea feb true s fun a b => BitVec.ofInt 64 (a.toInt * b.toInt / 2 ^ 64)

/-- MULHN (07 R150). -/
def execMulhn (p : Option Pfx) (rd ra rb : Reg) (fea feb : Bool) (s : State) : Out :=
  alu2 p rd ra rb fea feb true s fun a b => BitVec.ofNat 64 (a.toNat * b.toNat / 2 ^ 64)

/-- SLTN (07 R150). -/
def execSltn (p : Option Pfx) (rd ra rb : Reg) (fea feb : Bool) (s : State) : Out :=
  alu2 p rd ra rb fea feb true s fun a b => bool64 (decide (a.toNat < b.toNat))

/-- DIV (07 R151). -/
def execDiv (p : Option Pfx) (rd ra rb : Reg) (fea feb : Bool) (s : State) : Out :=
  divOp p rd ra rb fea feb 3 s divSigned

/-- DIVN (07 R151). -/
def execDivn (p : Option Pfx) (rd ra rb : Reg) (fea feb : Bool) (s : State) : Out :=
  divOp p rd ra rb fea feb 4 s divUnsigned

/-- REM (07 R151). -/
def execRem (p : Option Pfx) (rd ra rb : Reg) (fea feb : Bool) (s : State) : Out :=
  divOp p rd ra rb fea feb 5 s remSigned

/-- REMN (07 R151). -/
def execRemn (p : Option Pfx) (rd ra rb : Reg) (fea feb : Bool) (s : State) : Out :=
  divOp p rd ra rb fea feb 6 s remUnsigned

/-- CLZ (07 R150). -/
def execClz (p : Option Pfx) (rd ra : Reg) (fea : Bool) (s : State) : Out :=
  alu1 p rd ra fea s fun a => if a = 0 then 64 else BitVec.ofNat 64 (63 - Nat.log2 a.toNat)

/-- CTZ (07 R150). -/
def execCtz (p : Option Pfx) (rd ra : Reg) (fea : Bool) (s : State) : Out :=
  alu1 p rd ra fea s fun a => BitVec.ofNat 64 (ctzFrom a.toNat 64 0)

/-- POPC (07 R150). -/
def execPopc (p : Option Pfx) (rd ra : Reg) (fea : Bool) (s : State) : Out :=
  alu1 p rd ra fea s fun a => BitVec.ofNat 64 (popCount a.toNat 64)

/-- BREV (07 R150). -/
def execBrev (p : Option Pfx) (rd ra : Reg) (fea : Bool) (s : State) : Out :=
  alu1 p rd ra fea s fun a => BitVec.ofNat 64 (bitRev a.toNat 64)

/-- SHLI (07 R150). -/
def execShli (p : Option Pfx) (rd ra : Reg) (sh : BitVec 6) (fea : Bool) (s : State) : Out :=
  alu1 p rd ra fea s fun a => shlVal (pfxSat p) a sh.toNat

/-- SHRI (07 R150). -/
def execShri (p : Option Pfx) (rd ra : Reg) (sh : BitVec 6) (fea : Bool) (s : State) : Out :=
  alu1 p rd ra fea s fun a => a >>> sh.toNat

/-- SRAI (07 R150). -/
def execSrai (p : Option Pfx) (rd ra : Reg) (sh : BitVec 6) (fea : Bool) (s : State) : Out :=
  alu1 p rd ra fea s fun a => a.sshiftRight sh.toNat

/-- SEL's value: each byte from a where the mask bit is set, from b elsewhere (07 R152). -/
def selVal (m : Byte) (a b : Word) : Word :=
  elemBuild m false b 8 8 (fun j => elem a j 8) (fun _ => 0)

/-- SEL (07 R152): the mask register is k1 without a prefix. -/
def execSel (p : Option Pfx) (rd ra rb : Reg) (fea feb : Bool) (s : State) : Out :=
  issue s { pfx := p, srcs := [(ra, fea), (rb, feb)], dsts := [rd] } fun h =>
    let m := match p with
      | some q => h.t.kReg q.mask
      | none => h.t.kReg 1
    h.done h.s (h.t.writeX rd (selVal m (h.t.readX ra) (h.t.readX rb)))

/-- ADDI (07 R153). -/
def execAddi (p : Option Pfx) (rd ra : Reg) (fea : Bool) (imm : BitVec 12) (s : State) : Out :=
  alu1 p rd ra fea s fun a => toI64 (pfxSat p) (a.toInt + imm.toInt)

/-- ANDI (07 R153). -/
def execAndi (p : Option Pfx) (rd ra : Reg) (fea : Bool) (imm : BitVec 12) (s : State) : Out :=
  alu1 p rd ra fea s fun a => a &&& imm.signExtend 64

/-- SLTI (07 R153). -/
def execSlti (p : Option Pfx) (rd ra : Reg) (fea : Bool) (imm : BitVec 12) (s : State) : Out :=
  alu1 p rd ra fea s fun a => bool64 (decide (a.toInt < imm.toInt))

/-- SLTNI (07 R153). -/
def execSltni (p : Option Pfx) (rd ra : Reg) (fea : Bool) (imm : BitVec 12) (s : State) : Out :=
  alu1 p rd ra fea s fun a => bool64 (decide (a.toNat < (imm.signExtend 64).toNat))

/-- imm20 shifted and sign-extended (07 R154). -/
def immU (imm : BitVec 20) : Word := (imm ++ 0#12).signExtend 64

/-- LIH (07 R154). -/
def execLih (rd : Reg) (imm : BitVec 20) (s : State) : Out :=
  issue s { dsts := [rd], slice := true } fun h => h.done h.s (writeP h h.t rd (immU imm) [])

/-- ADDPC (07 R154). -/
def execAddpc (rd : Reg) (imm : BitVec 20) (s : State) : Out :=
  issue s { dsts := [rd], slice := true } fun h => h.done h.s (writeP h h.t rd (h.t.pc + immU imm) [])

/-- CALL (07 R154): the link, then the transfer, which ends no loop level. -/
def execCall (rd : Reg) (imm : BitVec 20) (s : State) : Out :=
  issue s { dsts := [rd] } fun h =>
    .next (h.put h.s ((h.t.writeX rd (h.t.pc + 4)).goto (h.t.pc + (imm ++ 0#2).signExtend 64)))

end Sys2Proof.Machine
end

