-- ==== Sys2Proof/Decode.lean ====
section
/-! DEFINITION. Decoding of instruction words and prefix pairs (06 R121 to R136), total on any bytes and rejecting by name;
after it the encoder. A rejected word is not a stop of the model: the machine meets it with the illegal-instruction
response (01 R30). -/

namespace Sys2Proof

/-- Why a word or pair is no instruction (the lines of 06 R136). -/
inductive DecodeErr where
  /-- A "—" cell of R128, aop 15, U sub 0b11, ALU-A fn 0. -/
  | reservedSelector
  /-- An unused field is not zero (R126). -/
  | unusedField
  /-- A field value R136 forbids. -/
  | badField
  /-- A prefix in front of a prefix. -/
  | prefixAfterPrefix
  /-- A prefix in front of an instruction that takes none (R133). -/
  | prefixNotAccepted
  /-- ACASK without a prefix. -/
  | prefixMissing
  /-- Bits [5:0] of the prefix not zero, or a field R135 forbids. -/
  | prefixField
  /-- Fewer than four bytes, or than eight after a prefix. -/
  | shortInput
deriving DecidableEq, Repr

/-- The len bits of w from bit lo upwards (00 R4). -/
def fld (w : BitVec 32) (lo len : Nat) : BitVec len := w.extractLsb' lo len

/-- Bit n of w. -/
def flag (w : BitVec 32) (n : Nat) : Bool := w.getLsbD n

/-- A base word of an instruction that takes no prefix. -/
def noPfx (p : Option Pfx) (i : Instr) : Except DecodeErr Instr :=
  match p with
  | none => .ok i
  | some _ => .error .prefixNotAccepted

/-- A base word of an instruction that requires a prefix. -/
def needPfx (p : Option Pfx) (f : Pfx → Instr) : Except DecodeErr Instr :=
  match p with
  | none => .error .prefixMissing
  | some p => .ok (f p)

/-- The unused fields of the word hold zero (06 R126). -/
def unused (zero : Bool) (r : Except DecodeErr Instr) : Except DecodeErr Instr :=
  if zero then r else .error .unusedField

/-- The AluA group, major 0x0 (06 R128, R129). -/
def decAluA (p : Option Pfx) (w : BitVec 32) : Except DecodeErr Instr :=
  match (fld w 0 4).toNat with
  | 1 => .ok (.add p (fld w 20 7) (fld w 13 7) (fld w 6 7) (flag w 5) (flag w 4))
  | 2 => .ok (.sub p (fld w 20 7) (fld w 13 7) (fld w 6 7) (flag w 5) (flag w 4))
  | 3 => .ok (.and p (fld w 20 7) (fld w 13 7) (fld w 6 7) (flag w 5) (flag w 4))
  | 4 => .ok (.or p (fld w 20 7) (fld w 13 7) (fld w 6 7) (flag w 5) (flag w 4))
  | 5 => .ok (.xor p (fld w 20 7) (fld w 13 7) (fld w 6 7) (flag w 5) (flag w 4))
  | 6 => .ok (.andn p (fld w 20 7) (fld w 13 7) (fld w 6 7) (flag w 5) (flag w 4))
  | 7 => .ok (.shl p (fld w 20 7) (fld w 13 7) (fld w 6 7) (flag w 5) (flag w 4))
  | 8 => .ok (.shr p (fld w 20 7) (fld w 13 7) (fld w 6 7) (flag w 5) (flag w 4))
  | 9 => .ok (.sra p (fld w 20 7) (fld w 13 7) (fld w 6 7) (flag w 5) (flag w 4))
  | 10 => .ok (.rot p (fld w 20 7) (fld w 13 7) (fld w 6 7) (flag w 5) (flag w 4))
  | 11 => .ok (.min p (fld w 20 7) (fld w 13 7) (fld w 6 7) (flag w 5) (flag w 4))
  | 12 => .ok (.max p (fld w 20 7) (fld w 13 7) (fld w 6 7) (flag w 5) (flag w 4))
  | 13 => .ok (.minn p (fld w 20 7) (fld w 13 7) (fld w 6 7) (flag w 5) (flag w 4))
  | 14 => .ok (.maxn p (fld w 20 7) (fld w 13 7) (fld w 6 7) (flag w 5) (flag w 4))
  | 15 => .ok (.slt p (fld w 20 7) (fld w 13 7) (fld w 6 7) (flag w 5) (flag w 4))
  | _ => .error .reservedSelector

/-- The AluB group, major 0x1 (06 R128, R129). -/
def decAluB (p : Option Pfx) (w : BitVec 32) : Except DecodeErr Instr :=
  match (fld w 0 4).toNat with
  | 0 => .ok (.mul p (fld w 20 7) (fld w 13 7) (fld w 6 7) (flag w 5) (flag w 4))
  | 1 => .ok (.mulh p (fld w 20 7) (fld w 13 7) (fld w 6 7) (flag w 5) (flag w 4))
  | 2 => .ok (.mulhn p (fld w 20 7) (fld w 13 7) (fld w 6 7) (flag w 5) (flag w 4))
  | 3 => .ok (.div p (fld w 20 7) (fld w 13 7) (fld w 6 7) (flag w 5) (flag w 4))
  | 4 => .ok (.divn p (fld w 20 7) (fld w 13 7) (fld w 6 7) (flag w 5) (flag w 4))
  | 5 => .ok (.rem p (fld w 20 7) (fld w 13 7) (fld w 6 7) (flag w 5) (flag w 4))
  | 6 => .ok (.remn p (fld w 20 7) (fld w 13 7) (fld w 6 7) (flag w 5) (flag w 4))
  | 7 => .ok (.sltn p (fld w 20 7) (fld w 13 7) (fld w 6 7) (flag w 5) (flag w 4))
  | 8 => unused (fld w 4 1 == 0 && fld w 6 7 == 0) (.ok (.clz p (fld w 20 7) (fld w 13 7) (flag w 5)))
  | 9 => unused (fld w 4 1 == 0 && fld w 6 7 == 0) (.ok (.ctz p (fld w 20 7) (fld w 13 7) (flag w 5)))
  | 10 => unused (fld w 4 1 == 0 && fld w 6 7 == 0) (.ok (.popc p (fld w 20 7) (fld w 13 7) (flag w 5)))
  | 11 => unused (fld w 4 1 == 0 && fld w 6 7 == 0) (.ok (.brev p (fld w 20 7) (fld w 13 7) (flag w 5)))
  | 12 => unused (fld w 4 1 == 0 && fld w 12 1 == 0) (.ok (.shli p (fld w 20 7) (fld w 13 7) (fld w 6 6) (flag w 5)))
  | 13 => unused (fld w 4 1 == 0 && fld w 12 1 == 0) (.ok (.shri p (fld w 20 7) (fld w 13 7) (fld w 6 6) (flag w 5)))
  | 14 => unused (fld w 4 1 == 0 && fld w 12 1 == 0) (.ok (.srai p (fld w 20 7) (fld w 13 7) (fld w 6 6) (flag w 5)))
  | _ => .ok (.sel p (fld w 20 7) (fld w 13 7) (fld w 6 7) (flag w 5) (flag w 4))

/-- The FpA group, major 0xc (06 R128, R129). -/
def decFpA (p : Option Pfx) (w : BitVec 32) : Except DecodeErr Instr :=
  match (fld w 2 2).toNat with
  | 0 => .ok (.fadd p (fld w 20 7) (fld w 13 7) (fld w 6 7) (flag w 5) (flag w 4) (fld w 0 2))
  | 1 => .ok (.fsub p (fld w 20 7) (fld w 13 7) (fld w 6 7) (flag w 5) (flag w 4) (fld w 0 2))
  | 2 => .ok (.fmul p (fld w 20 7) (fld w 13 7) (fld w 6 7) (flag w 5) (flag w 4) (fld w 0 2))
  | _ => .ok (.fma p (fld w 20 7) (fld w 13 7) (fld w 6 7) (flag w 5) (flag w 4) (fld w 0 2))

/-- The FpB group, major 0xd (06 R128, R129). -/
def decFpB (p : Option Pfx) (w : BitVec 32) : Except DecodeErr Instr :=
  match (fld w 2 2).toNat with
  | 0 => .ok (.fmin p (fld w 20 7) (fld w 13 7) (fld w 6 7) (flag w 5) (flag w 4) (fld w 0 2))
  | 1 => .ok (.fmax p (fld w 20 7) (fld w 13 7) (fld w 6 7) (flag w 5) (flag w 4) (fld w 0 2))
  | 2 => .ok (.fdiv p (fld w 20 7) (fld w 13 7) (fld w 6 7) (flag w 5) (flag w 4) (fld w 0 2))
  | _ => .ok (.fcmplt p (fld w 20 7) (fld w 13 7) (fld w 6 7) (flag w 5) (flag w 4) (fld w 0 2))

/-- The FpC group, major 0xe (06 R128, R129). -/
def decFpC (p : Option Pfx) (w : BitVec 32) : Except DecodeErr Instr :=
  match (fld w 2 2).toNat with
  | 0 => .ok (.fcmpeq p (fld w 20 7) (fld w 13 7) (fld w 6 7) (flag w 5) (flag w 4) (fld w 0 2))
  | 1 => .ok (.fcmple p (fld w 20 7) (fld w 13 7) (fld w 6 7) (flag w 5) (flag w 4) (fld w 0 2))
  | 2 => .ok (.fcmpun p (fld w 20 7) (fld w 13 7) (fld w 6 7) (flag w 5) (flag w 4) (fld w 0 2))
  | _ => .ok (.fcopysign p (fld w 20 7) (fld w 13 7) (fld w 6 7) (flag w 5) (flag w 4) (fld w 0 2))

/-- The Funary group, major 0xf (06 R128, R129). -/
def decFunary (p : Option Pfx) (w : BitVec 32) : Except DecodeErr Instr :=
  match (fld w 0 4).toNat with
  | 0 => unused (fld w 4 1 == 0) (.ok (.fsqrt p (fld w 20 7) (fld w 13 7) (fld w 10 3) (fld w 6 4) (flag w 5)))
  | 1 => unused (fld w 4 1 == 0) (.ok (.frcp p (fld w 20 7) (fld w 13 7) (fld w 10 3) (fld w 6 4) (flag w 5)))
  | 2 => unused (fld w 4 1 == 0) (.ok (.frsq p (fld w 20 7) (fld w 13 7) (fld w 10 3) (fld w 6 4) (flag w 5)))
  | 3 => unused (fld w 4 1 == 0) (.ok (.fexp2 p (fld w 20 7) (fld w 13 7) (fld w 10 3) (fld w 6 4) (flag w 5)))
  | 4 => unused (fld w 4 1 == 0) (.ok (.flog2 p (fld w 20 7) (fld w 13 7) (fld w 10 3) (fld w 6 4) (flag w 5)))
  | 5 => unused (fld w 4 1 == 0) (.ok (.fsin p (fld w 20 7) (fld w 13 7) (fld w 10 3) (fld w 6 4) (flag w 5)))
  | 6 => unused (fld w 4 1 == 0) (.ok (.fcos p (fld w 20 7) (fld w 13 7) (fld w 10 3) (fld w 6 4) (flag w 5)))
  | 7 => unused (fld w 4 1 == 0) (.ok (.ftanh p (fld w 20 7) (fld w 13 7) (fld w 10 3) (fld w 6 4) (flag w 5)))
  | 8 => unused (fld w 4 1 == 0) (.ok (.fabs p (fld w 20 7) (fld w 13 7) (fld w 10 3) (fld w 6 4) (flag w 5)))
  | 9 => unused (fld w 4 1 == 0) (.ok (.fneg p (fld w 20 7) (fld w 13 7) (fld w 10 3) (fld w 6 4) (flag w 5)))
  | 10 => unused (fld w 4 1 == 0) (.ok (.fclass p (fld w 20 7) (fld w 13 7) (fld w 10 3) (fld w 6 4) (flag w 5)))
  | 11 => unused (fld w 4 1 == 0) (.ok (.fround p (fld w 20 7) (fld w 13 7) (fld w 10 3) (fld w 6 4) (flag w 5)))
  | 12 => unused (fld w 4 1 == 0) (.ok (.fcvt p (fld w 20 7) (fld w 13 7) (fld w 10 3) (fld w 6 4) (flag w 5)))
  | 13 => unused (fld w 4 1 == 0) (.ok (.ftoi p (fld w 20 7) (fld w 13 7) (fld w 10 3) (fld w 6 4) (flag w 5)))
  | 14 => unused (fld w 4 1 == 0) (.ok (.itof p (fld w 20 7) (fld w 13 7) (fld w 10 3) (fld w 6 4) (flag w 5)))
  | _ => unused (fld w 4 1 == 0) (.ok (.fexpt p (fld w 20 7) (fld w 13 7) (fld w 10 3) (fld w 6 4) (flag w 5)))

/-- The PackedA group, major 0x10 (06 R128, R129). -/
def decPackedA (p : Option Pfx) (w : BitVec 32) : Except DecodeErr Instr :=
  match (fld w 2 2).toNat with
  | 0 => .ok (.padd p (fld w 20 7) (fld w 13 7) (fld w 6 7) (flag w 5) (flag w 4) (fld w 0 2))
  | 1 => .ok (.psub p (fld w 20 7) (fld w 13 7) (fld w 6 7) (flag w 5) (flag w 4) (fld w 0 2))
  | 2 => .ok (.pmul p (fld w 20 7) (fld w 13 7) (fld w 6 7) (flag w 5) (flag w 4) (fld w 0 2))
  | _ => .ok (.pmin p (fld w 20 7) (fld w 13 7) (fld w 6 7) (flag w 5) (flag w 4) (fld w 0 2))

/-- The PackedB group, major 0x11 (06 R128, R129). -/
def decPackedB (p : Option Pfx) (w : BitVec 32) : Except DecodeErr Instr :=
  match (fld w 2 2).toNat with
  | 0 => .ok (.pmax p (fld w 20 7) (fld w 13 7) (fld w 6 7) (flag w 5) (flag w 4) (fld w 0 2))
  | 1 => .ok (.pavg p (fld w 20 7) (fld w 13 7) (fld w 6 7) (flag w 5) (flag w 4) (fld w 0 2))
  | 2 => .ok (.pcmpeq p (fld w 20 7) (fld w 13 7) (fld w 6 7) (flag w 5) (flag w 4) (fld w 0 2))
  | _ => .ok (.pcmplt p (fld w 20 7) (fld w 13 7) (fld w 6 7) (flag w 5) (flag w 4) (fld w 0 2))

/-- The Group group, major 0x12 (06 R128, R129). -/
def decGroup (p : Option Pfx) (w : BitVec 32) : Except DecodeErr Instr :=
  match (fld w 0 4).toNat with
  | 0 => .ok (.shfl p (fld w 20 7) (fld w 13 7) (fld w 6 7) (flag w 5) (flag w 4))
  | 1 => unused (fld w 4 1 == 0) (.ok (.shfli p (fld w 20 7) (fld w 13 7) (fld w 11 2) (fld w 6 5) (flag w 5)))
  | 2 => .ok (.bcast p (fld w 20 7) (fld w 13 7) (fld w 6 7) (flag w 5) (flag w 4))
  | 3 => unused (fld w 4 1 == 0) (.ok (.gred p (fld w 20 7) (fld w 13 7) (fld w 10 3) (fld w 6 4) (flag w 5)))
  | 4 => unused (fld w 4 1 == 0) (.ok (.gscan p (fld w 20 7) (fld w 13 7) (fld w 10 3) (fld w 6 4) (flag w 5)))
  | 5 => unused (fld w 4 1 == 0 && fld w 8 5 == 0) (.ok (.vote p (fld w 20 7) (fld w 13 7) (fld w 6 2) (flag w 5)))
  | 6 => unused (fld w 4 1 == 0 && fld w 11 2 == 0) (.ok (.matchKeys p (fld w 20 7) (fld w 13 7) (flag w 10) (fld w 6 4) (flag w 5)))
  | 7 => unused (fld w 4 1 == 0 && fld w 6 7 == 0) (noPfx p (.join (fld w 20 7) (fld w 13 7) (flag w 5)))
  | 8 => unused (fld w 4 1 == 0 && fld w 6 7 == 0 && fld w 20 7 == 0) (noPfx p (.leave (fld w 13 7) (flag w 5)))
  | 9 => unused (fld w 4 1 == 0 && fld w 6 7 == 0) (noPfx p (.grank (fld w 20 7) (fld w 13 7) (flag w 5)))
  | 10 => unused (fld w 24 3 == 0) (noPfx p (.xsend (fld w 20 4) (fld w 13 7) (fld w 6 7) (flag w 5) (flag w 4)))
  | 11 => unused (fld w 4 2 == 0 && fld w 10 10 == 0) (noPfx p (.xrecv (fld w 20 7) (fld w 6 4)))
  | 12 => unused (fld w 4 1 == 0 && fld w 8 5 == 0) (.ok (.pshuf p (fld w 20 7) (fld w 13 7) (fld w 6 2) (flag w 5)))
  | 13 => unused (fld w 4 1 == 0 && fld w 11 2 == 0) (.ok (.ppack p (fld w 20 7) (fld w 13 7) (fld w 9 2) (flag w 8) (fld w 6 2) (flag w 5)))
  | 14 => unused (fld w 4 1 == 0 && fld w 10 3 == 0) (.ok (.punpk p (fld w 20 7) (fld w 13 7) (flag w 9) (flag w 8) (fld w 6 2) (flag w 5)))
  | _ => unused (fld w 4 1 == 0) (.ok (.segred p (fld w 20 7) (fld w 13 7) (fld w 10 3) (fld w 6 4) (flag w 5)))

/-- The Memx group, major 0x13 (06 R128, R129). -/
def decMemx (p : Option Pfx) (w : BitVec 32) : Except DecodeErr Instr :=
  match (fld w 0 4).toNat with
  | 0 => unused (fld w 4 1 == 0 && fld w 12 1 == 0) (noPfx p (.ldr (fld w 20 7) (fld w 13 7) (flag w 11) (fld w 9 2) (fld w 6 3) (flag w 5)))
  | 1 => unused (fld w 25 2 == 0) (noPfx p (.str (fld w 23 2) (fld w 20 3) (fld w 13 7) (fld w 6 7) (flag w 5) (flag w 4)))
  | 2 => unused (fld w 4 1 == 0 && fld w 12 1 == 0) (noPfx p (.lda (fld w 20 7) (fld w 13 7) (flag w 11) (fld w 9 2) (fld w 6 3) (flag w 5)))
  | 3 => unused (fld w 25 2 == 0) (noPfx p (.stl (fld w 23 2) (fld w 20 3) (fld w 13 7) (fld w 6 7) (flag w 5) (flag w 4)))
  | 4 => unused (fld w 4 2 == 0 && fld w 10 17 == 0) (noPfx p (.fence (flag w 9) (fld w 6 3)))
  | 5 => unused (fld w 4 1 == 0 && fld w 6 7 == 0 && fld w 20 7 == 0) (noPfx p (.pref (fld w 13 7) (flag w 5)))
  | 6 => unused (fld w 4 1 == 0 && fld w 6 7 == 0 && fld w 20 7 == 0) (noPfx p (.ipref (fld w 13 7) (flag w 5)))
  | 7 => unused (fld w 4 1 == 0 && fld w 8 5 == 0) (.ok (.ragld p (fld w 20 7) (fld w 13 7) (fld w 6 2) (flag w 5)))
  | 8 => unused (fld w 4 2 == 0 && fld w 8 12 == 0) (noPfx p (.fqpop (fld w 20 7) (fld w 6 2)))
  | 9 => unused (fld w 4 1 == 0 && fld w 6 7 == 0 && fld w 22 5 == 0) (noPfx p (.fqpush (fld w 20 2) (fld w 13 7) (flag w 5)))
  | 10 => unused (fld w 4 1 == 0 && fld w 6 7 == 0 && fld w 20 7 == 0) (noPfx p (.cwb (fld w 13 7) (flag w 5)))
  | 11 => unused (fld w 4 1 == 0 && fld w 6 7 == 0 && fld w 20 7 == 0) (noPfx p (.cinv (fld w 13 7) (flag w 5)))
  | _ => .error .reservedSelector

/-- The Async group, major 0x14 (06 R128, R129). -/
def decAsync (p : Option Pfx) (w : BitVec 32) : Except DecodeErr Instr :=
  match (fld w 0 4).toNat with
  | 0 => unused (fld w 4 2 == 0 && fld w 8 5 == 0) (.ok (.tileld p (fld w 20 7) (fld w 13 7) (fld w 6 2)))
  | 1 => unused (fld w 4 9 == 0) (.ok (.tilest p (fld w 20 7) (fld w 13 7)))
  | 2 => unused (fld w 4 9 == 0) (.ok (.copy p (fld w 20 7) (fld w 13 7)))
  | 3 => unused (fld w 4 2 == 0 && fld w 8 5 == 0) (.ok (.gather p (fld w 20 7) (fld w 13 7) (fld w 6 2)))
  | 4 => unused (fld w 4 9 == 0) (.ok (.coll p (fld w 20 7) (fld w 13 7)))
  | 5 => unused (fld w 4 2 == 0 && fld w 9 11 == 0) (noPfx p (.waitc (fld w 20 7) (flag w 8) (fld w 6 2)))
  | _ => .error .reservedSelector

/-- The Atom64 group, major 0x15 (06 R128, R129). -/
def decAtom64 (p : Option Pfx) (w : BitVec 32) : Except DecodeErr Instr :=
  match (fld w 0 4).toNat with
  | 0 => .ok (.aadd p (fld w 20 7) (fld w 13 7) (fld w 6 7) (fld w 4 2))
  | 1 => .ok (.amin p (fld w 20 7) (fld w 13 7) (fld w 6 7) (fld w 4 2))
  | 2 => .ok (.amax p (fld w 20 7) (fld w 13 7) (fld w 6 7) (fld w 4 2))
  | 3 => .ok (.aminn p (fld w 20 7) (fld w 13 7) (fld w 6 7) (fld w 4 2))
  | 4 => .ok (.amaxn p (fld w 20 7) (fld w 13 7) (fld w 6 7) (fld w 4 2))
  | 5 => .ok (.aand p (fld w 20 7) (fld w 13 7) (fld w 6 7) (fld w 4 2))
  | 6 => .ok (.aor p (fld w 20 7) (fld w 13 7) (fld w 6 7) (fld w 4 2))
  | 7 => .ok (.axor p (fld w 20 7) (fld w 13 7) (fld w 6 7) (fld w 4 2))
  | 8 => .ok (.axchg p (fld w 20 7) (fld w 13 7) (fld w 6 7) (fld w 4 2))
  | 9 => .ok (.acas p (fld w 20 7) (fld w 13 7) (fld w 6 7) (fld w 4 2))
  | 10 => needPfx p fun p => .acask p (fld w 20 7) (fld w 13 7) (fld w 6 7) (fld w 4 2)
  | 11 => .ok (.aincw p (fld w 20 7) (fld w 13 7) (fld w 6 7) (fld w 4 2))
  | 12 => .ok (.afadd p (fld w 20 7) (fld w 13 7) (fld w 6 7) (fld w 4 2))
  | 13 => .ok (.afmin p (fld w 20 7) (fld w 13 7) (fld w 6 7) (fld w 4 2))
  | 14 => .ok (.afmax p (fld w 20 7) (fld w 13 7) (fld w 6 7) (fld w 4 2))
  | _ => .error .reservedSelector

/-- The Atom32 group, major 0x16 (06 R128, R129). -/
def decAtom32 (p : Option Pfx) (w : BitVec 32) : Except DecodeErr Instr :=
  match (fld w 0 4).toNat with
  | 0 => .ok (.aaddW32 p (fld w 20 7) (fld w 13 7) (fld w 6 7) (fld w 4 2))
  | 1 => .ok (.aminW32 p (fld w 20 7) (fld w 13 7) (fld w 6 7) (fld w 4 2))
  | 2 => .ok (.amaxW32 p (fld w 20 7) (fld w 13 7) (fld w 6 7) (fld w 4 2))
  | 3 => .ok (.aminnW32 p (fld w 20 7) (fld w 13 7) (fld w 6 7) (fld w 4 2))
  | 4 => .ok (.amaxnW32 p (fld w 20 7) (fld w 13 7) (fld w 6 7) (fld w 4 2))
  | 5 => .ok (.aandW32 p (fld w 20 7) (fld w 13 7) (fld w 6 7) (fld w 4 2))
  | 6 => .ok (.aorW32 p (fld w 20 7) (fld w 13 7) (fld w 6 7) (fld w 4 2))
  | 7 => .ok (.axorW32 p (fld w 20 7) (fld w 13 7) (fld w 6 7) (fld w 4 2))
  | 8 => .ok (.axchgW32 p (fld w 20 7) (fld w 13 7) (fld w 6 7) (fld w 4 2))
  | 9 => .ok (.acasW32 p (fld w 20 7) (fld w 13 7) (fld w 6 7) (fld w 4 2))
  | 10 => needPfx p fun p => .acaskW32 p (fld w 20 7) (fld w 13 7) (fld w 6 7) (fld w 4 2)
  | 11 => .ok (.aincwW32 p (fld w 20 7) (fld w 13 7) (fld w 6 7) (fld w 4 2))
  | 12 => .ok (.afaddW32 p (fld w 20 7) (fld w 13 7) (fld w 6 7) (fld w 4 2))
  | 13 => .ok (.afminW32 p (fld w 20 7) (fld w 13 7) (fld w 6 7) (fld w 4 2))
  | 14 => .ok (.afmaxW32 p (fld w 20 7) (fld w 13 7) (fld w 6 7) (fld w 4 2))
  | _ => .error .reservedSelector

/-- The MatrixH group, major 0x18 (06 R128, R129). -/
def decMatrixH (p : Option Pfx) (w : BitVec 32) : Except DecodeErr Instr :=
  match (fld w 0 4).toNat with
  | 0 => unused (fld w 4 1 == 0 && fld w 6 7 == 0 && fld w 24 3 == 0) (noPfx p (.cvdecl (fld w 20 4) (fld w 13 7) (flag w 5)))
  | 1 => unused (fld w 4 16 == 0 && fld w 26 1 == 0) (noPfx p (.acalloc (fld w 20 6)))
  | 2 => unused (fld w 4 16 == 0 && fld w 26 1 == 0) (noPfx p (.acfree (fld w 20 6)))
  | 3 => unused (fld w 4 16 == 0 && fld w 26 1 == 0) (noPfx p (.azero (fld w 20 6)))
  | 4 => unused (fld w 4 1 == 0 && fld w 6 7 == 0 && fld w 20 7 == 0) (noPfx p (.acommit (fld w 13 7) (flag w 5)))
  | 5 => .ok (.aload p (flag w 26) (fld w 20 6) (fld w 13 7) (fld w 6 7) (flag w 5) (flag w 4))
  | 6 => .ok (.astore p (flag w 26) (fld w 20 6) (fld w 13 7) (fld w 6 7) (flag w 5) (flag w 4))
  | 7 => unused (fld w 4 2 == 0 && fld w 12 1 == 0 && fld w 26 1 == 0) (noPfx p (.scacc (fld w 20 6) (fld w 13 7) (fld w 6 6)))
  | 8 => unused (fld w 5 1 == 0 && fld w 19 1 == 0) (noPfx p (.amovr (fld w 20 7) (fld w 13 6) (fld w 6 7) (flag w 4)))
  | _ => .error .reservedSelector

/-- The Sync group, major 0x19 (06 R128, R129). -/
def decSync (p : Option Pfx) (w : BitVec 32) : Except DecodeErr Instr :=
  match (fld w 0 4).toNat with
  | 0 => unused (fld w 4 2 == 0 && fld w 12 15 == 0) (noPfx p (.bara (fld w 6 6)))
  | 1 => unused (fld w 4 2 == 0 && fld w 12 15 == 0) (noPfx p (.barw (fld w 6 6)))
  | 2 => unused (fld w 4 2 == 0 && fld w 12 15 == 0) (noPfx p (.bars (fld w 6 6)))
  | 3 => unused (fld w 4 2 == 0 && fld w 10 17 == 0) (noPfx p (.cbara (fld w 6 4)))
  | 4 => unused (fld w 4 2 == 0 && fld w 10 17 == 0) (noPfx p (.cbarw (fld w 6 4)))
  | 5 => unused (fld w 4 2 == 0 && fld w 9 18 == 0) (noPfx p (.gbara (fld w 6 3)))
  | 6 => unused (fld w 4 2 == 0 && fld w 9 18 == 0) (noPfx p (.gbarw (fld w 6 3)))
  | 7 => unused (fld w 4 2 == 0 && fld w 10 17 == 0) (noPfx p (.gset (fld w 6 4)))
  | 8 => unused (fld w 4 1 == 0 && fld w 10 3 == 0 && fld w 20 7 == 0) (noPfx p (.gres (fld w 13 7) (fld w 6 4) (flag w 5)))
  | 9 => unused (fld w 4 1 == 0 && fld w 6 7 == 0) (noPfx p (.tlaunch (fld w 20 7) (fld w 13 7) (flag w 5)))
  | 10 => unused (fld w 4 16 == 0) (noPfx p (.tnext (fld w 20 7)))
  | _ => .error .reservedSelector

/-- The Ctrl group, major 0x1a (06 R128, R129). -/
def decCtrl (p : Option Pfx) (w : BitVec 32) : Except DecodeErr Instr :=
  match (fld w 0 4).toNat with
  | 0 => unused (fld w 4 1 == 0 && fld w 6 7 == 0 && fld w 20 7 == 0) (noPfx p (.jmpr (fld w 13 7) (flag w 5)))
  | 1 => unused (fld w 4 1 == 0 && fld w 6 7 == 0) (noPfx p (.callr (fld w 20 7) (fld w 13 7) (flag w 5)))
  | 2 => unused (fld w 4 1 == 0 && fld w 6 7 == 0 && fld w 20 7 == 0) (noPfx p (.ret (fld w 13 7) (flag w 5)))
  | 3 => unused (fld w 4 23 == 0) (noPfx p .exit)
  | 4 => unused (fld w 4 23 == 0) (noPfx p .yield)
  | 5 => noPfx p (.reconv (fld w 20 7) (fld w 13 7) (fld w 6 7) (flag w 5) (flag w 4))
  | 6 => unused (fld w 4 1 == 0 && fld w 6 7 == 0 && fld w 22 5 == 0) (noPfx p (.lcset (fld w 20 2) (fld w 13 7) (flag w 5)))
  | 7 => unused (fld w 4 1 == 0 && fld w 6 7 == 0 && fld w 20 7 == 0) (noPfx p (.trap (fld w 13 7) (flag w 5)))
  | 8 => unused (fld w 4 1 == 0 && fld w 6 7 == 0 && fld w 20 7 == 0) (noPfx p (.rte (fld w 13 7) (flag w 5)))
  | 9 => unused (fld w 4 23 == 0) (noPfx p .brk)
  | 10 => unused (fld w 4 2 == 0 && fld w 9 18 == 0) (noPfx p (.winbase (fld w 6 3)))
  | 11 => unused (fld w 4 2 == 0 && fld w 11 9 == 0) (noPfx p (.srd (fld w 20 7) (fld w 6 5)))
  | 12 => unused (fld w 4 1 == 0 && fld w 11 2 == 0 && fld w 20 7 == 0) (noPfx p (.swr (fld w 13 7) (fld w 6 5) (flag w 5)))
  | 13 => unused (fld w 4 2 == 0 && fld w 10 10 == 0) (noPfx p (.capq (fld w 20 7) (fld w 6 4)))
  | 14 => unused (fld w 4 16 == 0) (noPfx p (.tstamp (fld w 20 7)))
  | _ => noPfx p (.udf (fld w 20 7) (fld w 13 7) (fld w 6 7) (flag w 5) (flag w 4))

/-- The instruction a base word holds behind an optional prefix: the major opcode selects the format (06 R127). -/
def decBase (p : Option Pfx) (w : BitVec 32) : Except DecodeErr Instr :=
  match (fld w 27 5).toNat with
  | 0 => decAluA p w
  | 1 => decAluB p w
  | 2 => .ok (.addi p (fld w 20 7) (fld w 13 7) (flag w 12) (fld w 0 12))
  | 3 => .ok (.andi p (fld w 20 7) (fld w 13 7) (flag w 12) (fld w 0 12))
  | 4 => .ok (.slti p (fld w 20 7) (fld w 13 7) (flag w 12) (fld w 0 12))
  | 5 => .ok (.sltni p (fld w 20 7) (fld w 13 7) (flag w 12) (fld w 0 12))
  | 6 => .ok (.ld p (fld w 20 7) (fld w 13 7) (fld w 11 2) (flag w 10) (fld w 0 10))
  | 7 => .ok (.ldz p (fld w 20 7) (fld w 13 7) (fld w 11 2) (flag w 10) (fld w 0 10))
  | 8 => .ok (.st p (fld w 20 7) (fld w 13 7) (fld w 11 2) (flag w 10) (fld w 0 10))
  | 9 => noPfx p (.br (fld w 20 7) (fld w 16 4) (fld w 0 16))
  | 10 => noPfx p (.loop (fld w 25 2) (fld w 18 7) (fld w 0 18))
  | 11 => noPfx p (.brspawn (fld w 20 7) (fld w 13 7) (fld w 10 3) (fld w 4 6) (fld w 0 4))
  | 12 => decFpA p w
  | 13 => decFpB p w
  | 14 => decFpC p w
  | 15 => decFunary p w
  | 16 => decPackedA p w
  | 17 => decPackedB p w
  | 18 => decGroup p w
  | 19 => decMemx p w
  | 20 => decAsync p w
  | 21 => decAtom64 p w
  | 22 => decAtom32 p w
  | 23 => .ok (.mma p (fld w 21 6) (fld w 17 4) (fld w 10 7) (fld w 3 7) (fld w 0 3))
  | 24 => decMatrixH p w
  | 25 => decSync p w
  | 26 => decCtrl p w
  | 27 => .error .prefixAfterPrefix
  | 28 => noPfx p (.lih (fld w 20 7) (fld w 0 20))
  | 29 => noPfx p (.addpc (fld w 20 7) (fld w 0 20))
  | 30 => noPfx p (.call (fld w 20 7) (fld w 0 20))
  | _ => .error .reservedSelector

/-- The fields of a prefix word (06 R132). -/
def decPfx (w : BitVec 32) : Pfx :=
  { mask := fld w 24 3, rm := fld w 21 3, zero := flag w 20, rc := fld w 13 7, fec := flag w 12, sat := flag w 11,
    sk := flag w 10, guard := fld w 6 4 }

/-- Is this word a prefix (06 R127)? -/
def isPfx (w : BitVec 32) : Bool := fld w 27 5 == 0x1B#5

/-- The field rules of 06 R136 on an instruction read from its words. -/
def checkWf (i : Instr) : Except DecodeErr Instr :=
  if !i.pfxOk then .error .prefixField else if !i.fieldsOk then .error .badField else .ok i

/-- The instruction that begins with word w0; w1 is the word after it, read only when w0 is a prefix. Answers the length in
bytes as well (06 R121, R122). -/
def decode (w0 w1 : BitVec 32) : Except DecodeErr (Instr × Nat) :=
  if isPfx w0 then
    if isPfx w1 then .error .prefixAfterPrefix
    else if fld w0 0 6 ≠ 0 then .error .prefixField
    else ((decBase (some (decPfx w0)) w1).bind checkWf).map (·, 8)
  else ((decBase none w0).bind checkWf).map (·, 4)

/-- A word from four bytes, little-endian (00 R4, 06 R121). -/
def wordOfBytes (b0 b1 b2 b3 : Byte) : BitVec 32 := b3 ++ b2 ++ b1 ++ b0

/-- Decoding a list of bytes: the instruction at its head and the bytes after it. -/
def decodeBytes : List Byte → Except DecodeErr (Instr × List Byte)
  | b0 :: b1 :: b2 :: b3 :: rest =>
    let w0 := wordOfBytes b0 b1 b2 b3
    if isPfx w0 then
      match rest with
      | c0 :: c1 :: c2 :: c3 :: rest' => (decode w0 (wordOfBytes c0 c1 c2 c3)).map fun x => (x.1, rest')
      | _ => .error .shortInput
    else (decode w0 0).map fun x => (x.1, rest)
  | _ => .error .shortInput

/-- The decoder on a word of the opcode table: nbits bits w, numbered from the first word's bit 0, with zeros above. -/
def decodeTableWord (nbits w : Nat) : Option Instr :=
  let v := w % 2 ^ nbits
  match decode (BitVec.ofNat 32 v) (BitVec.ofNat 32 (v >>> 32)) with
  | .ok x => some x.1
  | .error _ => none

/-- One bit as a field. -/
def bit (b : Bool) : BitVec 1 := BitVec.ofBool b

/-- The base word of an instruction, field by field from the highest bit (06 R124, R128 to R131); none for an event. -/
def encBase : Instr → Option (BitVec 32)
  | .add _ rd ra rb fea feb => some (0x0#5 ++ rd ++ ra ++ rb ++ bit fea ++ bit feb ++ 0x1#4)
  | .sub _ rd ra rb fea feb => some (0x0#5 ++ rd ++ ra ++ rb ++ bit fea ++ bit feb ++ 0x2#4)
  | .and _ rd ra rb fea feb => some (0x0#5 ++ rd ++ ra ++ rb ++ bit fea ++ bit feb ++ 0x3#4)
  | .or _ rd ra rb fea feb => some (0x0#5 ++ rd ++ ra ++ rb ++ bit fea ++ bit feb ++ 0x4#4)
  | .xor _ rd ra rb fea feb => some (0x0#5 ++ rd ++ ra ++ rb ++ bit fea ++ bit feb ++ 0x5#4)
  | .andn _ rd ra rb fea feb => some (0x0#5 ++ rd ++ ra ++ rb ++ bit fea ++ bit feb ++ 0x6#4)
  | .shl _ rd ra rb fea feb => some (0x0#5 ++ rd ++ ra ++ rb ++ bit fea ++ bit feb ++ 0x7#4)
  | .shr _ rd ra rb fea feb => some (0x0#5 ++ rd ++ ra ++ rb ++ bit fea ++ bit feb ++ 0x8#4)
  | .sra _ rd ra rb fea feb => some (0x0#5 ++ rd ++ ra ++ rb ++ bit fea ++ bit feb ++ 0x9#4)
  | .rot _ rd ra rb fea feb => some (0x0#5 ++ rd ++ ra ++ rb ++ bit fea ++ bit feb ++ 0xa#4)
  | .min _ rd ra rb fea feb => some (0x0#5 ++ rd ++ ra ++ rb ++ bit fea ++ bit feb ++ 0xb#4)
  | .max _ rd ra rb fea feb => some (0x0#5 ++ rd ++ ra ++ rb ++ bit fea ++ bit feb ++ 0xc#4)
  | .minn _ rd ra rb fea feb => some (0x0#5 ++ rd ++ ra ++ rb ++ bit fea ++ bit feb ++ 0xd#4)
  | .maxn _ rd ra rb fea feb => some (0x0#5 ++ rd ++ ra ++ rb ++ bit fea ++ bit feb ++ 0xe#4)
  | .slt _ rd ra rb fea feb => some (0x0#5 ++ rd ++ ra ++ rb ++ bit fea ++ bit feb ++ 0xf#4)
  | .mul _ rd ra rb fea feb => some (0x1#5 ++ rd ++ ra ++ rb ++ bit fea ++ bit feb ++ 0x0#4)
  | .mulh _ rd ra rb fea feb => some (0x1#5 ++ rd ++ ra ++ rb ++ bit fea ++ bit feb ++ 0x1#4)
  | .mulhn _ rd ra rb fea feb => some (0x1#5 ++ rd ++ ra ++ rb ++ bit fea ++ bit feb ++ 0x2#4)
  | .div _ rd ra rb fea feb => some (0x1#5 ++ rd ++ ra ++ rb ++ bit fea ++ bit feb ++ 0x3#4)
  | .divn _ rd ra rb fea feb => some (0x1#5 ++ rd ++ ra ++ rb ++ bit fea ++ bit feb ++ 0x4#4)
  | .rem _ rd ra rb fea feb => some (0x1#5 ++ rd ++ ra ++ rb ++ bit fea ++ bit feb ++ 0x5#4)
  | .remn _ rd ra rb fea feb => some (0x1#5 ++ rd ++ ra ++ rb ++ bit fea ++ bit feb ++ 0x6#4)
  | .sltn _ rd ra rb fea feb => some (0x1#5 ++ rd ++ ra ++ rb ++ bit fea ++ bit feb ++ 0x7#4)
  | .clz _ rd ra fea => some (0x1#5 ++ rd ++ ra ++ 0x0#7 ++ bit fea ++ 0x8#5)
  | .ctz _ rd ra fea => some (0x1#5 ++ rd ++ ra ++ 0x0#7 ++ bit fea ++ 0x9#5)
  | .popc _ rd ra fea => some (0x1#5 ++ rd ++ ra ++ 0x0#7 ++ bit fea ++ 0xa#5)
  | .brev _ rd ra fea => some (0x1#5 ++ rd ++ ra ++ 0x0#7 ++ bit fea ++ 0xb#5)
  | .shli _ rd ra sh fea => some (0x1#5 ++ rd ++ ra ++ 0x0#1 ++ sh ++ bit fea ++ 0xc#5)
  | .shri _ rd ra sh fea => some (0x1#5 ++ rd ++ ra ++ 0x0#1 ++ sh ++ bit fea ++ 0xd#5)
  | .srai _ rd ra sh fea => some (0x1#5 ++ rd ++ ra ++ 0x0#1 ++ sh ++ bit fea ++ 0xe#5)
  | .sel _ rd ra rb fea feb => some (0x1#5 ++ rd ++ ra ++ rb ++ bit fea ++ bit feb ++ 0xf#4)
  | .addi _ rd ra fea imm => some (0x2#5 ++ rd ++ ra ++ bit fea ++ imm)
  | .andi _ rd ra fea imm => some (0x3#5 ++ rd ++ ra ++ bit fea ++ imm)
  | .slti _ rd ra fea imm => some (0x4#5 ++ rd ++ ra ++ bit fea ++ imm)
  | .sltni _ rd ra fea imm => some (0x5#5 ++ rd ++ ra ++ bit fea ++ imm)
  | .ld _ rd ra size fe imm => some (0x6#5 ++ rd ++ ra ++ size ++ bit fe ++ imm)
  | .ldz _ rd ra size fe imm => some (0x7#5 ++ rd ++ ra ++ size ++ bit fe ++ imm)
  | .st _ rd ra size fe imm => some (0x8#5 ++ rd ++ ra ++ size ++ bit fe ++ imm)
  | .br ra cond disp => some (0x9#5 ++ ra ++ cond ++ disp)
  | .loop lc ra disp => some (0xa#5 ++ lc ++ ra ++ disp)
  | .brspawn ra rb cond first cnt => some (0xb#5 ++ ra ++ rb ++ cond ++ first ++ cnt)
  | .fadd _ rd ra rb fea feb typ => some (0xc#5 ++ rd ++ ra ++ rb ++ bit fea ++ bit feb ++ 0x0#2 ++ typ)
  | .fsub _ rd ra rb fea feb typ => some (0xc#5 ++ rd ++ ra ++ rb ++ bit fea ++ bit feb ++ 0x1#2 ++ typ)
  | .fmul _ rd ra rb fea feb typ => some (0xc#5 ++ rd ++ ra ++ rb ++ bit fea ++ bit feb ++ 0x2#2 ++ typ)
  | .fma _ rd ra rb fea feb typ => some (0xc#5 ++ rd ++ ra ++ rb ++ bit fea ++ bit feb ++ 0x3#2 ++ typ)
  | .fmin _ rd ra rb fea feb typ => some (0xd#5 ++ rd ++ ra ++ rb ++ bit fea ++ bit feb ++ 0x0#2 ++ typ)
  | .fmax _ rd ra rb fea feb typ => some (0xd#5 ++ rd ++ ra ++ rb ++ bit fea ++ bit feb ++ 0x1#2 ++ typ)
  | .fdiv _ rd ra rb fea feb typ => some (0xd#5 ++ rd ++ ra ++ rb ++ bit fea ++ bit feb ++ 0x2#2 ++ typ)
  | .fcmplt _ rd ra rb fea feb typ => some (0xd#5 ++ rd ++ ra ++ rb ++ bit fea ++ bit feb ++ 0x3#2 ++ typ)
  | .fcmpeq _ rd ra rb fea feb typ => some (0xe#5 ++ rd ++ ra ++ rb ++ bit fea ++ bit feb ++ 0x0#2 ++ typ)
  | .fcmple _ rd ra rb fea feb typ => some (0xe#5 ++ rd ++ ra ++ rb ++ bit fea ++ bit feb ++ 0x1#2 ++ typ)
  | .fcmpun _ rd ra rb fea feb typ => some (0xe#5 ++ rd ++ ra ++ rb ++ bit fea ++ bit feb ++ 0x2#2 ++ typ)
  | .fcopysign _ rd ra rb fea feb typ => some (0xe#5 ++ rd ++ ra ++ rb ++ bit fea ++ bit feb ++ 0x3#2 ++ typ)
  | .fsqrt _ rd ra dst src fea => some (0xf#5 ++ rd ++ ra ++ dst ++ src ++ bit fea ++ 0x0#5)
  | .frcp _ rd ra dst src fea => some (0xf#5 ++ rd ++ ra ++ dst ++ src ++ bit fea ++ 0x1#5)
  | .frsq _ rd ra dst src fea => some (0xf#5 ++ rd ++ ra ++ dst ++ src ++ bit fea ++ 0x2#5)
  | .fexp2 _ rd ra dst src fea => some (0xf#5 ++ rd ++ ra ++ dst ++ src ++ bit fea ++ 0x3#5)
  | .flog2 _ rd ra dst src fea => some (0xf#5 ++ rd ++ ra ++ dst ++ src ++ bit fea ++ 0x4#5)
  | .fsin _ rd ra dst src fea => some (0xf#5 ++ rd ++ ra ++ dst ++ src ++ bit fea ++ 0x5#5)
  | .fcos _ rd ra dst src fea => some (0xf#5 ++ rd ++ ra ++ dst ++ src ++ bit fea ++ 0x6#5)
  | .ftanh _ rd ra dst src fea => some (0xf#5 ++ rd ++ ra ++ dst ++ src ++ bit fea ++ 0x7#5)
  | .fabs _ rd ra dst src fea => some (0xf#5 ++ rd ++ ra ++ dst ++ src ++ bit fea ++ 0x8#5)
  | .fneg _ rd ra dst src fea => some (0xf#5 ++ rd ++ ra ++ dst ++ src ++ bit fea ++ 0x9#5)
  | .fclass _ rd ra dst src fea => some (0xf#5 ++ rd ++ ra ++ dst ++ src ++ bit fea ++ 0xa#5)
  | .fround _ rd ra dst src fea => some (0xf#5 ++ rd ++ ra ++ dst ++ src ++ bit fea ++ 0xb#5)
  | .fcvt _ rd ra dst src fea => some (0xf#5 ++ rd ++ ra ++ dst ++ src ++ bit fea ++ 0xc#5)
  | .ftoi _ rd ra dst src fea => some (0xf#5 ++ rd ++ ra ++ dst ++ src ++ bit fea ++ 0xd#5)
  | .itof _ rd ra dst src fea => some (0xf#5 ++ rd ++ ra ++ dst ++ src ++ bit fea ++ 0xe#5)
  | .fexpt _ rd ra dst src fea => some (0xf#5 ++ rd ++ ra ++ dst ++ src ++ bit fea ++ 0xf#5)
  | .padd _ rd ra rb fea feb width => some (0x10#5 ++ rd ++ ra ++ rb ++ bit fea ++ bit feb ++ 0x0#2 ++ width)
  | .psub _ rd ra rb fea feb width => some (0x10#5 ++ rd ++ ra ++ rb ++ bit fea ++ bit feb ++ 0x1#2 ++ width)
  | .pmul _ rd ra rb fea feb width => some (0x10#5 ++ rd ++ ra ++ rb ++ bit fea ++ bit feb ++ 0x2#2 ++ width)
  | .pmin _ rd ra rb fea feb width => some (0x10#5 ++ rd ++ ra ++ rb ++ bit fea ++ bit feb ++ 0x3#2 ++ width)
  | .pmax _ rd ra rb fea feb width => some (0x11#5 ++ rd ++ ra ++ rb ++ bit fea ++ bit feb ++ 0x0#2 ++ width)
  | .pavg _ rd ra rb fea feb width => some (0x11#5 ++ rd ++ ra ++ rb ++ bit fea ++ bit feb ++ 0x1#2 ++ width)
  | .pcmpeq _ rd ra rb fea feb width => some (0x11#5 ++ rd ++ ra ++ rb ++ bit fea ++ bit feb ++ 0x2#2 ++ width)
  | .pcmplt _ rd ra rb fea feb width => some (0x11#5 ++ rd ++ ra ++ rb ++ bit fea ++ bit feb ++ 0x3#2 ++ width)
  | .shfl _ rd ra rb fea feb => some (0x12#5 ++ rd ++ ra ++ rb ++ bit fea ++ bit feb ++ 0x0#4)
  | .shfli _ rd ra mode imm fea => some (0x12#5 ++ rd ++ ra ++ mode ++ imm ++ bit fea ++ 0x1#5)
  | .bcast _ rd ra rb fea feb => some (0x12#5 ++ rd ++ ra ++ rb ++ bit fea ++ bit feb ++ 0x2#4)
  | .gred _ rd ra op typ fea => some (0x12#5 ++ rd ++ ra ++ op ++ typ ++ bit fea ++ 0x3#5)
  | .gscan _ rd ra op typ fea => some (0x12#5 ++ rd ++ ra ++ op ++ typ ++ bit fea ++ 0x4#5)
  | .vote _ rd ra mode fea => some (0x12#5 ++ rd ++ ra ++ 0x0#5 ++ mode ++ bit fea ++ 0x5#5)
  | .matchKeys _ rd ra byValue typ fea => some (0x12#5 ++ rd ++ ra ++ 0x0#2 ++ bit byValue ++ typ ++ bit fea ++ 0x6#5)
  | .join rd ra fea => some (0x12#5 ++ rd ++ ra ++ 0x0#7 ++ bit fea ++ 0x7#5)
  | .leave ra fea => some (0x12#5 ++ 0x0#7 ++ ra ++ 0x0#7 ++ bit fea ++ 0x8#5)
  | .grank rd ra fea => some (0x12#5 ++ rd ++ ra ++ 0x0#7 ++ bit fea ++ 0x9#5)
  | .xsend slot ra rb fea feb => some (0x12#5 ++ 0x0#3 ++ slot ++ ra ++ rb ++ bit fea ++ bit feb ++ 0xa#4)
  | .xrecv rd slot => some (0x12#5 ++ rd ++ 0x0#10 ++ slot ++ 0xb#6)
  | .pshuf _ rd ra width fea => some (0x12#5 ++ rd ++ ra ++ 0x0#5 ++ width ++ bit fea ++ 0xc#5)
  | .ppack _ rd ra mode half width fea => some (0x12#5 ++ rd ++ ra ++ 0x0#2 ++ mode ++ bit half ++ width ++ bit fea ++ 0xd#5)
  | .punpk _ rd ra zx half width fea => some (0x12#5 ++ rd ++ ra ++ 0x0#3 ++ bit zx ++ bit half ++ width ++ bit fea ++ 0xe#5)
  | .segred _ rd ra op typ fea => some (0x12#5 ++ rd ++ ra ++ op ++ typ ++ bit fea ++ 0xf#5)
  | .ldr rd ra zx size scope fea => some (0x13#5 ++ rd ++ ra ++ 0x0#1 ++ bit zx ++ size ++ scope ++ bit fea ++ 0x0#5)
  | .str size scope ra rb fea feb => some (0x13#5 ++ 0x0#2 ++ size ++ scope ++ ra ++ rb ++ bit fea ++ bit feb ++ 0x1#4)
  | .lda rd ra zx size scope fea => some (0x13#5 ++ rd ++ ra ++ 0x0#1 ++ bit zx ++ size ++ scope ++ bit fea ++ 0x2#5)
  | .stl size scope ra rb fea feb => some (0x13#5 ++ 0x0#2 ++ size ++ scope ++ ra ++ rb ++ bit fea ++ bit feb ++ 0x3#4)
  | .fence uo scope => some (0x13#5 ++ 0x0#17 ++ bit uo ++ scope ++ 0x4#6)
  | .pref ra fea => some (0x13#5 ++ 0x0#7 ++ ra ++ 0x0#7 ++ bit fea ++ 0x5#5)
  | .ipref ra fea => some (0x13#5 ++ 0x0#7 ++ ra ++ 0x0#7 ++ bit fea ++ 0x6#5)
  | .ragld _ rd ra width fea => some (0x13#5 ++ rd ++ ra ++ 0x0#5 ++ width ++ bit fea ++ 0x7#5)
  | .fqpop rd q => some (0x13#5 ++ rd ++ 0x0#12 ++ q ++ 0x8#6)
  | .fqpush q ra fea => some (0x13#5 ++ 0x0#5 ++ q ++ ra ++ 0x0#7 ++ bit fea ++ 0x9#5)
  | .cwb ra fea => some (0x13#5 ++ 0x0#7 ++ ra ++ 0x0#7 ++ bit fea ++ 0xa#5)
  | .cinv ra fea => some (0x13#5 ++ 0x0#7 ++ ra ++ 0x0#7 ++ bit fea ++ 0xb#5)
  | .tileld _ rd ra typ => some (0x14#5 ++ rd ++ ra ++ 0x0#5 ++ typ ++ 0x0#6)
  | .tilest _ rd ra => some (0x14#5 ++ rd ++ ra ++ 0x1#13)
  | .copy _ rd ra => some (0x14#5 ++ rd ++ ra ++ 0x2#13)
  | .gather _ rd ra width => some (0x14#5 ++ rd ++ ra ++ 0x0#5 ++ width ++ 0x3#6)
  | .coll _ rd ra => some (0x14#5 ++ rd ++ ra ++ 0x4#13)
  | .waitc nlo nhi cls => some (0x14#5 ++ nlo ++ 0x0#11 ++ bit nhi ++ cls ++ 0x5#6)
  | .aadd _ rd ra rb scope => some (0x15#5 ++ rd ++ ra ++ rb ++ scope ++ 0x0#4)
  | .amin _ rd ra rb scope => some (0x15#5 ++ rd ++ ra ++ rb ++ scope ++ 0x1#4)
  | .amax _ rd ra rb scope => some (0x15#5 ++ rd ++ ra ++ rb ++ scope ++ 0x2#4)
  | .aminn _ rd ra rb scope => some (0x15#5 ++ rd ++ ra ++ rb ++ scope ++ 0x3#4)
  | .amaxn _ rd ra rb scope => some (0x15#5 ++ rd ++ ra ++ rb ++ scope ++ 0x4#4)
  | .aand _ rd ra rb scope => some (0x15#5 ++ rd ++ ra ++ rb ++ scope ++ 0x5#4)
  | .aor _ rd ra rb scope => some (0x15#5 ++ rd ++ ra ++ rb ++ scope ++ 0x6#4)
  | .axor _ rd ra rb scope => some (0x15#5 ++ rd ++ ra ++ rb ++ scope ++ 0x7#4)
  | .axchg _ rd ra rb scope => some (0x15#5 ++ rd ++ ra ++ rb ++ scope ++ 0x8#4)
  | .acas _ rd ra rb scope => some (0x15#5 ++ rd ++ ra ++ rb ++ scope ++ 0x9#4)
  | .acask _ rd ra rb scope => some (0x15#5 ++ rd ++ ra ++ rb ++ scope ++ 0xa#4)
  | .aincw _ rd ra rb scope => some (0x15#5 ++ rd ++ ra ++ rb ++ scope ++ 0xb#4)
  | .afadd _ rd ra rb scope => some (0x15#5 ++ rd ++ ra ++ rb ++ scope ++ 0xc#4)
  | .afmin _ rd ra rb scope => some (0x15#5 ++ rd ++ ra ++ rb ++ scope ++ 0xd#4)
  | .afmax _ rd ra rb scope => some (0x15#5 ++ rd ++ ra ++ rb ++ scope ++ 0xe#4)
  | .aaddW32 _ rd ra rb scope => some (0x16#5 ++ rd ++ ra ++ rb ++ scope ++ 0x0#4)
  | .aminW32 _ rd ra rb scope => some (0x16#5 ++ rd ++ ra ++ rb ++ scope ++ 0x1#4)
  | .amaxW32 _ rd ra rb scope => some (0x16#5 ++ rd ++ ra ++ rb ++ scope ++ 0x2#4)
  | .aminnW32 _ rd ra rb scope => some (0x16#5 ++ rd ++ ra ++ rb ++ scope ++ 0x3#4)
  | .amaxnW32 _ rd ra rb scope => some (0x16#5 ++ rd ++ ra ++ rb ++ scope ++ 0x4#4)
  | .aandW32 _ rd ra rb scope => some (0x16#5 ++ rd ++ ra ++ rb ++ scope ++ 0x5#4)
  | .aorW32 _ rd ra rb scope => some (0x16#5 ++ rd ++ ra ++ rb ++ scope ++ 0x6#4)
  | .axorW32 _ rd ra rb scope => some (0x16#5 ++ rd ++ ra ++ rb ++ scope ++ 0x7#4)
  | .axchgW32 _ rd ra rb scope => some (0x16#5 ++ rd ++ ra ++ rb ++ scope ++ 0x8#4)
  | .acasW32 _ rd ra rb scope => some (0x16#5 ++ rd ++ ra ++ rb ++ scope ++ 0x9#4)
  | .acaskW32 _ rd ra rb scope => some (0x16#5 ++ rd ++ ra ++ rb ++ scope ++ 0xa#4)
  | .aincwW32 _ rd ra rb scope => some (0x16#5 ++ rd ++ ra ++ rb ++ scope ++ 0xb#4)
  | .afaddW32 _ rd ra rb scope => some (0x16#5 ++ rd ++ ra ++ rb ++ scope ++ 0xc#4)
  | .afminW32 _ rd ra rb scope => some (0x16#5 ++ rd ++ ra ++ rb ++ scope ++ 0xd#4)
  | .afmaxW32 _ rd ra rb scope => some (0x16#5 ++ rd ++ ra ++ rb ++ scope ++ 0xe#4)
  | .mma _ acc cv ra rb fmt => some (0x17#5 ++ acc ++ cv ++ ra ++ rb ++ fmt)
  | .cvdecl n ra fea => some (0x18#5 ++ 0x0#3 ++ n ++ ra ++ 0x0#7 ++ bit fea ++ 0x0#5)
  | .acalloc n => some (0x18#5 ++ 0x0#1 ++ n ++ 0x1#20)
  | .acfree n => some (0x18#5 ++ 0x0#1 ++ n ++ 0x2#20)
  | .azero n => some (0x18#5 ++ 0x0#1 ++ n ++ 0x3#20)
  | .acommit ra fea => some (0x18#5 ++ 0x0#7 ++ ra ++ 0x0#7 ++ bit fea ++ 0x4#5)
  | .aload _ f64 n ra rb fea feb => some (0x18#5 ++ bit f64 ++ n ++ ra ++ rb ++ bit fea ++ bit feb ++ 0x5#4)
  | .astore _ f64 n ra rb fea feb => some (0x18#5 ++ bit f64 ++ n ++ ra ++ rb ++ bit fea ++ bit feb ++ 0x6#4)
  | .scacc n ra part => some (0x18#5 ++ 0x0#1 ++ n ++ ra ++ 0x0#1 ++ part ++ 0x7#6)
  | .amovr rd n rb feb => some (0x18#5 ++ rd ++ 0x0#1 ++ n ++ rb ++ 0x0#1 ++ bit feb ++ 0x8#4)
  | .bara n => some (0x19#5 ++ 0x0#15 ++ n ++ 0x0#6)
  | .barw n => some (0x19#5 ++ 0x0#15 ++ n ++ 0x1#6)
  | .bars n => some (0x19#5 ++ 0x0#15 ++ n ++ 0x2#6)
  | .cbara n => some (0x19#5 ++ 0x0#17 ++ n ++ 0x3#6)
  | .cbarw n => some (0x19#5 ++ 0x0#17 ++ n ++ 0x4#6)
  | .gbara n => some (0x19#5 ++ 0x0#18 ++ n ++ 0x5#6)
  | .gbarw n => some (0x19#5 ++ 0x0#18 ++ n ++ 0x6#6)
  | .gset n => some (0x19#5 ++ 0x0#17 ++ n ++ 0x7#6)
  | .gres ra n fea => some (0x19#5 ++ 0x0#7 ++ ra ++ 0x0#3 ++ n ++ bit fea ++ 0x8#5)
  | .tlaunch rd ra fea => some (0x19#5 ++ rd ++ ra ++ 0x0#7 ++ bit fea ++ 0x9#5)
  | .tnext rd => some (0x19#5 ++ rd ++ 0xa#20)
  | .jmpr ra fea => some (0x1a#5 ++ 0x0#7 ++ ra ++ 0x0#7 ++ bit fea ++ 0x0#5)
  | .callr rd ra fea => some (0x1a#5 ++ rd ++ ra ++ 0x0#7 ++ bit fea ++ 0x1#5)
  | .ret ra fea => some (0x1a#5 ++ 0x0#7 ++ ra ++ 0x0#7 ++ bit fea ++ 0x2#5)
  | .exit => some (0x1a#5 ++ 0x3#27)
  | .yield => some (0x1a#5 ++ 0x4#27)
  | .reconv rd ra rb fea feb => some (0x1a#5 ++ rd ++ ra ++ rb ++ bit fea ++ bit feb ++ 0x5#4)
  | .lcset lc ra fea => some (0x1a#5 ++ 0x0#5 ++ lc ++ ra ++ 0x0#7 ++ bit fea ++ 0x6#5)
  | .trap ra fea => some (0x1a#5 ++ 0x0#7 ++ ra ++ 0x0#7 ++ bit fea ++ 0x7#5)
  | .rte ra fea => some (0x1a#5 ++ 0x0#7 ++ ra ++ 0x0#7 ++ bit fea ++ 0x8#5)
  | .brk => some (0x1a#5 ++ 0x9#27)
  | .winbase n => some (0x1a#5 ++ 0x0#18 ++ n ++ 0xa#6)
  | .srd rd n => some (0x1a#5 ++ rd ++ 0x0#9 ++ n ++ 0xb#6)
  | .swr ra n fea => some (0x1a#5 ++ 0x0#7 ++ ra ++ 0x0#2 ++ n ++ bit fea ++ 0xc#5)
  | .capq rd n => some (0x1a#5 ++ rd ++ 0x0#10 ++ n ++ 0xd#6)
  | .tstamp rd => some (0x1a#5 ++ rd ++ 0xe#20)
  | .udf rd ra rb fea feb => some (0x1a#5 ++ rd ++ ra ++ rb ++ bit fea ++ bit feb ++ 0xf#4)
  | .lih rd imm => some (0x1c#5 ++ rd ++ imm)
  | .addpc rd imm => some (0x1d#5 ++ rd ++ imm)
  | .call rd imm => some (0x1e#5 ++ rd ++ imm)
  | .teamFormation .. => none
  | .teamFormTimeout .. => none
  | .reconvTimeout .. => none
  | .longLatencyComplete .. => none
  | .engineComplete .. => none
  | .icacheFillComplete .. => none
  | .pageFaultService .. => none
  | .faultServiceResume .. => none
  | .faultReservationTimeout .. => none
  | .commissionLaunch .. => none
  | .notifyWrite .. => none
  | .queueMap .. => none
  | .packetParse .. => none
  | .packetDispatch .. => none
  | .nopPacket .. => none
  | .launchPacket .. => none
  | .deadlinePacket .. => none
  | .graphPacket .. => none
  | .copyPacket .. => none
  | .signalPacket .. => none
  | .waitPacket .. => none
  | .waitPacketTimeout .. => none
  | .indirectPacket .. => none
  | .stampPacket .. => none
  | .fencePacket .. => none
  | .nodePlacement .. => none
  | .easelCapture .. => none
  | .commitWindowClose .. => none
  | .canvasWriteComplete .. => none
  | .canvasRestore .. => none
  | .pentimentoComplete .. => none
  | .uncorrectableError .. => none
  | .scrubberPass .. => none
  | .coreLost .. => none
  | .redundantCompare .. => none
  | .bankRetire .. => none
  | .bankCutover .. => none
  | .dramBankRemove .. => none
  | .regionMigrate .. => none
  | .assistResponse .. => none
  | .assistTimeout .. => none
  | .partitionGo .. => none
  | .partitionReset .. => none
  | .functionLevelReset .. => none
  | .ctxCreate .. => none
  | .ctxSuspend .. => none
  | .ctxResume .. => none
  | .ctxDestroy .. => none
  | .ctxClearerr .. => none
  | .ctxReload .. => none
  | .ctxBadOp .. => none
  | .queueEnable .. => none
  | .queueDisable .. => none
  | .queueRestart .. => none
  | .queueSkip .. => none
  | .shootdown .. => none
  | .shootdownComplete .. => none
  | .objLoad .. => none
  | .objUnload .. => none
  | .unloadComplete .. => none
  | .objSetslot .. => none
  | .objBadOp .. => none
  | .attestationRequest .. => none
  | .ptpLatch .. => none
  | .ptpStep .. => none
  | .isrWrite .. => none
  | .imaskWrite .. => none
  | .frtailWrite .. => none
  | .linkControlWrite .. => none
  | .fidWrite .. => none
  | .registerWrite .. => none
  | .bringUp .. => none
  | .supplySag .. => none
  | .thermalTrip .. => none
  | .thermalPowerOff .. => none
  | .linkTraining .. => none
  | .flitReplay .. => none
  | .remoteRequest .. => none
  | .remoteResponse .. => none
  | .remoteRetransmit .. => none
  | .remoteGiveUp .. => none
  | .reduceContribution .. => none
  | .quorumTimeout .. => none
  | .ingressFrame .. => none
  | .ptpMessage .. => none
  | .hostMemAccess .. => none
  | .hostSnoop .. => none
  | .linkFailed .. => none
  | .modulePowerLimit .. => none

/-- The prefix word of a prefix (06 R124). -/
def encPfx (p : Pfx) : BitVec 32 :=
  0x1B#5 ++ p.mask ++ p.rm ++ bit p.zero ++ p.rc ++ bit p.fec ++ bit p.sat ++ bit p.sk ++ p.guard ++ 0#6

/-- The words of an instruction, prefix first; none for an event. -/
def encode (i : Instr) : List (BitVec 32) :=
  match encBase i with
  | none => []
  | some w =>
    match i.pfx with
    | none => [w]
    | some p => [encPfx p, w]

/-- The bytes of a word in memory (00 R4). -/
def bytesOfWord (w : BitVec 32) : List Byte :=
  [w.extractLsb' 0 8, w.extractLsb' 8 8, w.extractLsb' 16 8, w.extractLsb' 24 8]

end Sys2Proof
end

