-- ==== Sys2Proof/Machine/Control.lean ====
section
/-! DEFINITION. Branches, hardware loops, the spawning branch and the CTRL group (07 R155 to R174). -/

namespace Sys2Proof.Machine

/-- A transfer that ends the loop bodies it leaves (07 R159). -/
def Here.jump (h : Here) (target : Word) : Out :=
  .next (h.put h.s ((leaveBodies h.s h.b.view h.t.pc target h.t).goto target))

/-- An access thread that reads poison in its control stops for good, holding the descriptor (10 R245). -/
def haltOn (t : Thread) (d : Poison) : Thread := { t with life := .exited, halted := some d, wait := .ready }

/-- BR (07 R155). Under conditions 6 and 7 ra is a mask number. -/
def execBr (ra : Reg) (cond : BitVec 4) (disp : BitVec 16) (s : State) : Out :=
  let onReg := cond.toNat < 6
  issue s { srcs := if onReg then [(ra, false)] else [], slice := onReg || cond == 8 } fun h =>
    match (if onReg then firstPoison h [ra] else none) with
    | some d => .next (h.put h.s (haltOn h.t d))
    | none =>
      let taken :=
        if onReg then condHolds cond.toNat (h.t.readX ra)
        else if cond = 6 then (h.t.kReg (ra.setWidth 3)).getLsbD 0
        else if cond = 7 then !(h.t.kReg (ra.setWidth 3)).getLsbD 0
        else true
      if taken then h.jump (h.t.pc + (disp ++ 0#2).signExtend 64) else h.done h.s h.t

/-! ## The spawning branch -/

/-- Open spawn targets of a block with their slots: those of its spawn area entries (01 R27). -/
def openTargets (b : Block) : List (Word × Nat) := (b.spawn.map fun e => (e.target, e.slot)).eraseDups

/-- Most targets open at once (01 R20). -/
def maxTargets (k : CoreKind) : Nat := match k with
  | .mCore => 8
  | .sCore => 32

/-- Most spawn area entries of a block (01 R20). -/
def maxEntries (k : CoreKind) : Nat := match k with
  | .mCore => 512
  | .sCore => 2048

/-- The lowest free team slot that no target has reserved (01 R27). -/
def freeSlot (b : Block) : Option Nat :=
  let used := (openTargets b).map (·.2)
  (b.teams.find? fun tm => slotIdle b tm && !used.contains tm.slot).map (·.slot)

/-- R27's conditions for a thread bound for dest: the slot reserved for its target. A target with 32 entries is a team about to
be formed (01 R28) and takes no more. -/
def spawnSlot (b : Block) (dest : Word) : Option Nat :=
  if min b.kernel.spawnEntries (maxEntries b.kind) ≤ b.spawn.length then none
  else match (openTargets b).find? fun x => x.1 == dest && decide ((b.spawn.filter fun e => e.slot == x.2).length < 32) with
    | some x => some x.2
    | none => if (openTargets b).length < maxTargets b.kind then freeSlot b else none

/-- A thread writes its spawn area entry and ends as a hardware thread (01 R26). -/
def park (s : State) (b : Block) (t : Thread) (k : Parking) (slot : Nat) : State :=
  let e : SpawnEntry :=
    { target := k.target, tid := t.tid, first := k.first, count := k.count, slot := slot,
      regs := (List.range k.count).map fun i => t.readN (k.first + i), parked := b.clk s }
  let s := dropThreads s b.bid [t.tid] .parked false
  s.onBlock b.bid fun x => settleBlock
    { x with
      spawn := x.spawn ++ [e],
      threads := x.threads.map fun y => if y.tid = t.tid then { y with parking := none } else y }

/-- Is the live range full (01 R26)? -/
def liveFull (t : Thread) (first count : Nat) : Bool := (List.range count).all fun i => t.nFull (first + i)

/-- A thread that has decided to spawn waits for its live range, then parks; where R27 no longer holds by then it goes on in
its old team. -/
def parkOrWait (h : Here) (k : Parking) (go : Out) : Out :=
  if liveFull h.t k.first k.count then
    match spawnSlot h.b k.target with
    | some slot => .next (park h.s h.b h.t k slot)
    | none => go
  else .next (h.put h.s { h.t with parking := some k, wait := .park })

/-- BRSPAWN (07 R162). -/
def execBrspawn (ra rb : Reg) (cond : BitVec 3) (first : BitVec 6) (cnt : BitVec 4) (s : State) : Out :=
  let n := cnt.toNat + 1
  issue s { srcs := [(ra, false), (rb, false)], more := (List.range n).map fun i => first.toNat + i } fun h =>
    let t := aligned4 (h.t.readX rb)
    let holds := fun (x : Thread) => condHolds cond.toNat (x.readX ra)
    let mine := holds h.t
    let h' : Here := { h with t := { h.t with parking := none } }
    let go := if mine then h'.jump t else h'.done h.s h'.t
    match h.t.parking with
    | some k => parkOrWait h k go
    | none =>
      let mates := h.b.threads.filter fun x =>
        x.life != .exited && x.slot == h.t.slot && x.xFull ra && x.xFull rb
        && (x.tid == h.t.tid || h.s.group.contains { bid := h.b.bid, tid := x.tid, acc := false })
      let m1 := (mates.filter holds).length
      let m0 := mates.length - m1
      let m := if m1 < m0 then (if mine then m1 else 0) else if m0 < m1 then (if mine then 0 else m0) else 0
      let dest := if mine then t else h.t.pc + 4
      if 1 ≤ m ∧ m ≤ h.t.spth.toNat ∧ !h.t.inHandler ∧ (spawnSlot h.b dest).isSome then
        parkOrWait h { target := dest, first := first.toNat, count := n } go
      else go

/-! ## CTRL -/

/-- JMPR (07 R164). -/
def execJmpr (ra : Reg) (fea : Bool) (s : State) : Out :=
  issue s { srcs := [(ra, fea)] } fun h => h.jump (aligned4 (h.t.readX ra))

/-- CALLR (07 R164): ra is read before rd is written, and no loop level ends. -/
def execCallr (rd ra : Reg) (fea : Bool) (s : State) : Out :=
  issue s { srcs := [(ra, fea)], dsts := [rd] } fun h =>
    .next (h.put h.s ((h.t.writeX rd (h.t.pc + 4)).goto (aligned4 (h.t.readX ra))))

/-- RET (07 R164): the effect of JMPR. -/
def execRet (ra : Reg) (fea : Bool) (s : State) : Out :=
  issue s { srcs := [(ra, fea)] } fun h => h.jump (aligned4 (h.t.readX ra))

/-- EXIT (07 R165): an access thread ends alone (10 R243). -/
def execExit (s : State) : Out :=
  issue s { slice := true } fun h =>
    if h.acc then .next (h.put h.s { h.t with life := .exited, wait := .ready })
    else if uncommitted h.b then h.trap 5 7
    else .next ((dropThreads h.s h.b.bid [h.t.tid] .exited true).onBlock h.b.bid settleBlock)

/-- YIELD (07 R166): the youngest place in the picker's order. -/
def execYield (s : State) : Out :=
  issue s {} fun h => h.done h.s { h.t with since := h.s.cycle + 1 }

/-- The set a RECONV or GRANK names: the team's live threads, or a group's members; none when the group does not exist. -/
def setMembers (b : Block) (slot : Nat) (key : Option Word) : Option (List Nat) :=
  match key with
  | none => some ((b.live slot).map (·.tid))
  | some k => (b.groups.find? fun g => g.key == k).map (·.members)

/-- Every member waits at the RECONV at pc (01 R29). -/
def allAtReconv (b : Block) (members : List Nat) (pc : Word) : Bool :=
  members.all fun m => b.threads.any fun t => t.tid == m && t.running && t.pc == pc && t.reconv.isSome

/-- Is the wait of thread t over, since every member of its own set waits at its RECONV? -/
def reconvDone (b : Block) (t : Thread) : Bool :=
  match t.reconv with
  | none => false
  | some r => match setMembers b t.slot r.key with
    | none => false
    | some ms => ms.contains t.tid && allAtReconv b ms t.pc

/-- A waiting member leaves the RECONV with a status in its rd. -/
def leaveReconv (v : Word) (t : Thread) : Thread :=
  { (t.writeX ((t.reconv.map (·.rd)).getD 0) v).advance 4 with reconv := none }

/-- Every thread whose set is complete goes on with 1; the others, which may name another set, go on waiting. -/
def settleReconv (b : Block) : Block :=
  { b with threads := b.threads.map fun t => if reconvDone b t then leaveReconv 1 t else t }

/-- RECONV (07 R167, 01 R29). The thread arrives, which may complete its set or another's; with a limit of 0 it does not stay. -/
def execReconv (rd ra rb : Reg) (fea feb : Bool) (s : State) : Out :=
  issue s { srcs := [(ra, fea), (rb, feb)], dsts := [rd] } fun h =>
    let key := if ra = 0 then none else some (h.t.readX ra)
    match setMembers h.b h.t.slot key with
    | none => h.done h.s (h.t.writeX rd 2)
    | some members =>
      if !members.contains h.t.tid then h.done h.s (h.t.writeX rd 2)
      else
        let limit := (h.t.readX rb).toNat % 2 ^ 32
        let r : ReconvWait := { issued := (h.t.reconv.map (·.issued)).getD (h.b.clk h.s), key := key, rd := rd, limit := limit }
        let t : Thread := { h.t with wait := .reconv, reconv := some r }
        let alone := limit == 0 && !reconvDone (h.b.setThread false t) t
        .next (h.s.onBlock h.b.bid fun b =>
          let b := settleReconv (b.setThread false t)
          if alone then b.setThread false (leaveReconv 0 t) else b)

/-- LCSET (07 R160). -/
def execLcset (lc : BitVec 2) (ra : Reg) (fea : Bool) (s : State) : Out :=
  issue s { srcs := [(ra, fea)] } fun h =>
    let l := h.t.lc[lc.toNat]'(lc.isLt)
    h.done h.s (if l.active then
      { h.t with lc := h.t.lc.set lc.toNat { l with remaining := (h.t.readX ra).setWidth 32 } lc.isLt } else h.t)

/-- TRAP (07 R168): it has completed when its handler runs. -/
def execTrap (ra : Reg) (fea : Bool) (s : State) : Out :=
  issue s { srcs := [(ra, fea)] } fun h =>
    let t := h.t.advance 4
    .next (trapEntry (h.put h.s t) h.b.bid h.t.tid h.t.pc 3 t.pc (h.t.readX ra))

/-- RTE (07 R169): illegal outside a handler. -/
def execRte (ra : Reg) (fea : Bool) (s : State) : Out :=
  issue s { srcs := [(ra, fea)], legal := fun h => h.t.inHandler } fun h =>
    let target := aligned4 (if ra = 0 then h.t.tpc else h.t.readX ra)
    .next (h.put h.s (trapReturn (leaveBodies h.s h.b.view h.t.pc target h.t) target))

/-- BRK (07 R168). -/
def execBrk (s : State) : Out :=
  issue s {} fun h =>
    .next (trapEntry (h.put h.s (h.t.advance 4)) h.b.bid h.t.tid h.t.pc 2 h.t.pc 0)

/-- WINBASE (07 R170): illegal where no register would be left. -/
def execWinbase (n : BitVec 3) (s : State) : Out :=
  issue s { legal := fun h => n.toNat < 5 && 32 * n.toNat < h.b.kernel.regs } fun h =>
    h.done h.s { h.t with wb := 32 * n.toNat }

/-- A special register's value (02 R44, R45). -/
def srValue (h : Here) (n : Nat) : Word :=
  let own := if h.acc then ((h.b.threads.find? fun t => t.slot == h.t.slot && t.lane == h.t.lane && t.running).map
    (·.tid)).getD h.t.tid else h.t.tid
  match n with
  | 0 => BitVec.ofNat 64 own
  | 1 => BitVec.ofNat 64 h.t.lane
  | 2 => BitVec.ofNat 64 h.t.slot
  | 3 => BitVec.ofNat 64 (h.b.kernel.n + h.b.kernel.s)
  | 4 => BitVec.ofNat 64 h.b.idx
  | 5 => BitVec.ofNat 64 h.b.nblk
  | 6 => BitVec.ofNat 64 h.b.crank
  | 7 => BitVec.ofNat 64 h.b.csize
  | 8 => h.b.grid.zeroExtend 64
  | 9 => bool64 (h.b.kind == .sCore)
  | 10 => BitVec.ofNat 64 h.b.cfg
  | 11 => bool64 h.t.spawned
  | 12 => BitVec.ofNat 64 (h.b.clk h.s)
  | 13 => match h.s.ctx? h.b.ctx with
    | some c => (c.sticky &&& 7).zeroExtend 64
    | none => 0
  | 16 => h.t.tcause.zeroExtend 64
  | 17 => h.t.tpc
  | 18 => h.t.tval
  | 20 => h.t.rm.zeroExtend 64
  | 21 => h.t.fpst.zeroExtend 64
  | 22 => h.t.spth.zeroExtend 64
  | _ => h.t.tvec

/-- Earlier floating-point instructions of the thread are still to raise their flags (02 R45). -/
def flagsPending (h : Here) : Bool :=
  h.s.prods.any fun p => p.bid == h.b.bid && p.tid == h.t.tid && p.acc == h.acc && p.kind == .special

/-- SRD (07 R171). -/
def execSrd (rd : Reg) (n : BitVec 5) (s : State) : Out :=
  issue s { dsts := [rd], slice := n.toNat ≤ 10, legal := fun _ => srReadable n.toNat } fun h =>
    if n = 21 ∧ flagsPending h then h.wait .dep
    else h.done h.s (writeP h h.t rd (srValue h n.toNat) [])

/-- The write of a special register's RW fields (02 R45). -/
def srWrite (t : Thread) (n : Nat) (v : Word) : Thread :=
  match n with
  | 20 => if (v.setWidth 3).toNat < 5 then { t with rm := v.setWidth 3 } else t
  | 21 => { t with fpst := v.setWidth 5 }
  | 22 => { t with spth := v.setWidth 5 }
  | 23 => { t with tvec := aligned4 v }
  | _ => t

/-- SWR (07 R171). -/
def execSwr (ra : Reg) (n : BitVec 5) (fea : Bool) (s : State) : Out :=
  issue s { srcs := [(ra, fea)], legal := fun _ => srWritable n.toNat } fun h =>
    if n = 21 ∧ flagsPending h then h.wait .dep
    else h.done h.s (srWrite h.t n.toNat (h.t.readX ra))

/-- CAPQ (07 R172, 04 R88). -/
def execCapq (rd : Reg) (n : BitVec 4) (s : State) : Out :=
  issue s { dsts := [rd] } fun h =>
    h.done (noteCapacity h.s h.b n.toNat)
      (h.t.writeX rd (BitVec.ofNat 64 (readCapacity h.s h.b n.toNat)))

/-- The clock as TSTAMP packs it (07 R173). -/
def ptpPacked (s : State) : Word := BitVec.ofNat 64 (s.ptpSec % 2 ^ 34 * 2 ^ 30 + s.ptpNs)

/-- TSTAMP (07 R173): the clock at issue, delivered as a long-latency producer. -/
def execTstamp (rd : Reg) (s : State) : Out :=
  issue s { dsts := [rd] } fun h =>
    h.produce h.s h.t rd .tstamp (ptpPacked h.s) 0 none Config.latSpecial
      { major := 26, fn := 14, qual := 0, rm := rmAt none h.t, operands := [] }

/-- UDF (07 R174): always the illegal-instruction response. -/
def execUdf (_rd _ra _rb : Reg) (_fea _feb : Bool) (s : State) : Out :=
  issue s { legal := fun _ => false } fun h => h.illegal

end Sys2Proof.Machine
end

