-- ==== Sys2Proof/Machine/Group.lean ====
section
/-! DEFINITION. Set operations, groups and the rendezvous (08 R188 to R197, 01 R23, R24), and the team walk of RAGLD (04 R85,
09 R207). -/

namespace Sys2Proof.Machine

/-- What two matched operations must agree on (01 R24): the mnemonic and the immediate field; none for other instructions. -/
def setSig : Instr → Option (Nat × Nat)
  | .shfl .. => some (0, 0)
  | .shfli _ _ _ mode imm _ => some (1, 32 * mode.toNat + imm.toNat)
  | .bcast .. => some (2, 0)
  | .gred _ _ _ op typ _ => some (3, 16 * op.toNat + typ.toNat)
  | .gscan _ _ _ op typ _ => some (4, 16 * op.toNat + typ.toNat)
  | .vote _ _ _ mode _ => some (5, mode.toNat)
  | .matchKeys _ _ _ v typ _ => some (6, typ.toNat + if v then 16 else 0)
  | .pshuf _ _ _ width _ => some (12, width.toNat)
  | .segred _ _ _ op typ _ => some (15, 16 * op.toNat + typ.toNat)
  | .ragld _ _ _ width _ => some (107, width.toNat)
  | _ => none

/-- The destination of a set operation. -/
def setRd : Instr → Reg
  | .shfl _ rd _ _ _ _ => rd
  | .shfli _ rd _ _ _ _ => rd
  | .bcast _ rd _ _ _ _ => rd
  | .gred _ rd _ _ _ _ => rd
  | .gscan _ rd _ _ _ _ => rd
  | .vote _ rd _ _ _ => rd
  | .matchKeys _ rd _ _ _ _ => rd
  | .pshuf _ rd _ _ _ => rd
  | .segred _ rd _ _ _ _ => rd
  | .ragld _ rd _ _ _ => rd
  | _ => 0

/-- An arrival with its rank in the set. -/
structure Member where
  rank : Nat
  a : Arrival
deriving DecidableEq, Repr

def Member.active (m : Member) : Bool := m.a.mask.getLsbD 0

def Member.zero (m : Member) : Bool := pfxZero m.a.instr.pfx

def Member.rmode (m : Member) : RM := RM.ofCode m.a.rm

/-- A member's result: the value of its rd and the flags it raises. -/
structure SetResult where
  tid : Nat
  val : Word
  flags : Flags
deriving DecidableEq, Repr

/-- A whole-thread result: inactive members merge or are zeroed (06 R134). -/
def Member.whole (m : Member) (v : Word) (fl : Flags) : SetResult :=
  if m.active then { tid := m.a.tid, val := v, flags := fl }
  else { tid := m.a.tid, val := if m.zero then 0 else m.a.rdVal, flags := 0 }

/-- The value an active member of a rank below 32 supplies to a lane-addressed exchange (08 R190). -/
def supplied (ms : List Member) (r : Int) : Option Word :=
  if r < 0 ∨ 32 ≤ r then none
  else (ms.find? fun m => (m.rank : Int) == r && m.active).map (·.a.rdVal)

/-- SHFLI's source rank (08 R190). -/
def shfliRank (mode n q : Nat) : Int :=
  match mode with
  | 0 => n
  | 1 => (q : Int) - n
  | 2 => q + n
  | _ => q ^^^ n

/-- SHFL and SHFLI: src gives each member's source rank. -/
def exchange (ms : List Member) (src : Member → Int) : List SetResult :=
  ms.map fun m => m.whole (if 32 ≤ m.rank then m.a.rdVal else (supplied ms (src m)).getD m.a.rdVal) 0

/-- BCAST (08 R190): a root that is at least the member count supplies nothing. -/
def broadcast (ms : List Member) : List SetResult :=
  let root := ((ms.find? (·.active)).map fun m => m.a.rbVal.toNat % 1024).getD 0
  let v := if ms.length ≤ root then none else (ms.find? fun m => m.rank == root && m.active).map (·.a.rdVal)
  ms.map fun m => m.whole (v.getD m.a.rdVal) 0

/-- A register built from one element per position. -/
def buildElems (b : Nat) (r : Nat → Nat) : Word :=
  BitVec.ofNat 64 ((List.range (64 / b)).foldl (fun acc m => acc + r m % 2 ^ b * 2 ^ (m * b)) 0)

/-- The mode of a combination: the lowest-ranked active member's (08 R191). -/
def setMode (ms : List Member) : RM := ((ms.find? (·.active)).map (·.rmode)).getD .rne

/-- GRED (08 R191). -/
def reduceSet (ms : List Member) (op code : Nat) : List SetResult :=
  let b := codeWidth code
  let act := ms.filter (·.active)
  let rm := setMode ms
  let r := fun j => treeReduce op code rm 11 (act.map fun m => elem m.a.rdVal j b)
  let v := buildElems b fun j => (r j).1
  let fl := (List.range (64 / b)).foldl (fun (a : Flags) j => a ||| (r j).2) 0
  ms.map fun m => m.whole v fl

/-- GSCAN (08 R191): the values of the active positions 0, 1, … at sub-element j, and the flags. -/
def scanColumn (op code : Nat) (rm : RM) (vs : List Nat) : List Nat × Flags :=
  if op = 6 then
    match vs.dropLast with
    | [] => ([0], 0)
    | v :: rest => let (r, fl) := foldScan 0 code rm v rest; (0 :: r, fl)
  else match vs with
    | [] => ([], 0)
    | v :: rest => foldScan op code rm v rest

def scanSet (ms : List Member) (op code : Nat) : List SetResult :=
  let b := codeWidth code
  let act := ms.filter (·.active)
  let rm := setMode ms
  let col := fun j => scanColumn op code rm (act.map fun m => elem m.a.rdVal j b)
  let fl := (List.range (64 / b)).foldl (fun (a : Flags) j => a ||| (col j).2) 0
  ms.map fun m =>
    let pos := (act.takeWhile fun x => x.rank != m.rank).length
    m.whole (buildElems b fun j => (col j).1.getD pos 0) fl

/-- A 64-bit word with bit q set for every rank q below 32 that f holds of. -/
def rankMask (ms : List Member) (f : Member → Bool) : Word :=
  BitVec.ofNat 64 (ms.foldl (fun acc m => if m.rank < 32 && f m then acc + 2 ^ m.rank else acc) 0)

/-- VOTE (08 R192). -/
def voteSet (ms : List Member) (mode : Nat) : List SetResult :=
  let holds := fun (m : Member) => m.active && m.a.rdVal != 0
  let v : Word := match mode with
    | 0 => bool64 (ms.any holds)
    | 1 => bool64 (ms.all fun m => !m.active || holds m)
    | 2 => rankMask ms holds
    | _ => BitVec.ofNat 64 (ms.filter holds).length
  ms.map fun m => m.whole v 0

/-- MATCH (08 R193). Under .f a member whose own key is a signalling NaN raises NV (03 R60, log 69). -/
def matchSet (ms : List Member) (byValue : Bool) (code : Nat) : List SetResult :=
  let b := codeWidth code
  let key := fun (m : Member) => elem m.a.rdVal 0 b
  let f := Fmt.ofCode code
  let same := fun (x y : Member) =>
    if byValue then
      if (decodeNum f (key x)).isNaN then x.rank == y.rank else numEq (decodeNum f (key x)) (decodeNum f (key y))
    else key x == key y
  ms.map fun m => m.whole (rankMask ms fun x => x.active && same m x) (if byValue then snanFlag (decodeNum f (key m)) else 0)

/-- PSHUF (08 R196). -/
def pshufSet (ms : List Member) (width : Nat) : List SetResult :=
  let b := 8 * 2 ^ width
  let n := 64 / b
  ms.map fun m =>
    let r := fun i =>
      let j := elem m.a.raVal i b % (32 * n)
      match ms.find? fun x => x.rank == j / n with
      | some x => if elemOn x.a.mask (j % n) b then elem x.a.rdVal (j % n) b else 0
      | none => 0
    { tid := m.a.tid, val := elemBuild m.a.mask m.zero m.a.rdVal b n r (fun _ => 0), flags := 0 }

/-- Elements v with their values, in ascending index, of the live lanes. -/
def vectorElems (ms : List Member) (b : Nat) : List (Nat × Nat) :=
  let n := 64 / b
  ms.flatMap fun m => (List.range n).map fun i => (m.rank * n + i, elem m.a.raVal i b)

/-- Number of segment starts at or below element v: the segment v belongs to (08 R197). -/
def segmentOf (ms : List Member) (b : Nat) (v : Nat) : Nat :=
  let n := 64 / b
  (ms.flatMap fun m => (List.range n).filterMap fun i =>
    let e := m.rank * n + i
    if 0 < e ∧ e ≤ v ∧ elemOn m.a.mask i b then some e else none).length

/-- SEGRED (08 R197); mask holds the segment marks. -/
def segredSet (ms : List Member) (op code : Nat) : List SetResult :=
  let b := codeWidth code
  let n := 64 / b
  let rm := ((ms.head?).map (·.rmode)).getD .rne
  let es := (vectorElems ms b).map fun e => (segmentOf ms b e.1, e.2)
  let fold := fun (seg : Nat) =>
    match (es.filter fun e => e.1 == seg).map (·.2) with
    | [] => ([], (0 : Flags))
    | v :: rest => foldScan op code rm v rest
  let fl := (List.range (32 * n)).foldl (fun (a : Flags) seg => a ||| (fold seg).2) 0
  ms.map fun m =>
    { tid := m.a.tid, val := buildElems b fun i => (fold (segmentOf ms b (m.rank * n + i))).1.getLastD 0, flags := fl }

/-- The results of a set operation over its members in ascending rank (08 R190 to R197). -/
def setResults (ms : List Member) : List SetResult :=
  match ms with
  | [] => []
  | m0 :: _ =>
    if ms.any fun m => setSig m.a.instr != setSig m0.a.instr then
      ms.map fun m => { tid := m.a.tid, val := 0, flags := 0 }
    else match m0.a.instr with
      | .shfl .. => exchange ms fun m => m.a.rbVal.toNat
      | .shfli _ _ _ mode imm _ => exchange ms fun m => shfliRank mode.toNat imm.toNat m.rank
      | .bcast .. => broadcast ms
      | .gred _ _ _ op typ _ => reduceSet ms op.toNat typ.toNat
      | .gscan _ _ _ op typ _ => scanSet ms op.toNat typ.toNat
      | .vote _ _ _ mode _ => voteSet ms mode.toNat
      | .matchKeys _ _ _ v typ _ => matchSet ms v typ.toNat
      | .pshuf _ _ _ width _ => pshufSet ms width.toNat
      | .segred _ _ _ op typ _ => segredSet ms op.toNat typ.toNat
      | _ => []

/-- The arrivals at one set, in ascending rank, when every member has arrived (01 R24). -/
def gathered (b : Block) (slot : Nat) (key : Option Word) : Option (List Member) :=
  match setMembers b slot key with
  | none => none
  | some tids =>
    let find := fun (m : Nat) => b.arrivals.find? fun a => a.tid == m && a.key == key
    if tids.isEmpty || !(tids.all fun m => (find m).isSome) then none
    else
      let ranked := (tids.mapIdx fun i m => (i, m)).filterMap fun x =>
        (find x.2).map fun a =>
          ({ rank := match key with
              | some _ => x.1
              | none => ((b.threads.find? fun t => t.tid == x.2).map (·.lane)).getD 0,
             a := a } : Member)
      some ranked

/-- Every member's rd is written and every member goes on (08 R188). -/
def finishSet (b : Block) (ms : List Member) (rs : List SetResult) : Block :=
  { b with
    arrivals := b.arrivals.filter fun a => !(ms.any fun m => m.a.tid == a.tid),
    threads := b.threads.map fun t =>
      match ms.find? fun m => m.a.tid == t.tid, rs.find? fun r => r.tid == t.tid with
      | some m, some r =>
        let t := t.writeX (setRd m.a.instr) r.val
        ({ t with fpst := t.fpst ||| r.flags }).advance (pfxLen m.a.instr.pfx)
      | _, _ => t }

/-! ## RAGLD (04 R85, R86, 09 R207) -/

/-- The walk's registers. -/
structure Walk where
  data : Nat
  lenp : Nat
  off : Nat
  rows : Nat
deriving DecidableEq, Repr

/-- Rows consumed or empty are passed (04 R85); fuel bounds the rows still to walk. The loads see the block's own held stores
(05 R110). -/
def passRows (s : State) (b : Block) : Nat → Walk → (Walk × State) ⊕ AccFault
  | 0, w => .inl (w, s)
  | k + 1, w =>
    if w.rows = 0 then .inl (w, s)
    else match loadAt s b.view w.lenp 4 with
      | .inr f => .inr f
      | .inl (n, s') =>
        if w.off = overlay b w.lenp 4 n then
          passRows s' b k { w with lenp := (w.lenp + 4) % 2 ^ 64, off := 0, rows := w.rows - 1 }
        else .inl (w, s')

/-- n elements of e bytes from element v on: their values and marks (04 R85). -/
def walkElems (s : State) (b : Block) (e : Nat) : Nat → Nat → Bool → Walk →
    (List (Nat × Bool) × Walk × State) ⊕ AccFault
  | 0, _, _, w =>
    match passRows s b (w.rows + 1) w with
    | .inr f => .inr f
    | .inl (w', s') => .inl ([], w', s')
  | k + 1, i, prev, w =>
    match passRows s b (w.rows + 1) w with
    | .inr f => .inr f
    | .inl (w', s') =>
      if w'.rows = 0 then
        match walkElems s' b e k (i + 1) false w' with
        | .inr f => .inr f
        | .inl (es, x) => .inl ((0, i == 0 || prev) :: es, x)
      else match loadAt s' b.view w'.data e with
        | .inr f => .inr f
        | .inl (x, s'') =>
          match walkElems s'' b e k (i + 1) true
              { w' with data := (w'.data + e) % 2 ^ 64, off := w'.off + 1 } with
          | .inr f => .inr f
          | .inl (es, y) => .inl ((overlay b w'.data e x, i == 0 || w'.off == 0) :: es, y)

/-- The mask bits of a lane's segment marks (04 R86). -/
def markBits (b : Nat) (marks : List Bool) : Byte :=
  BitVec.ofNat 8 ((marks.mapIdx fun i m => if m then 2 ^ (i * (b / 8)) else 0).foldl (· + ·) 0)

/-- RAGLD's prefix mask field: the destination of its marks (06 R134). -/
def markReg : Instr → BitVec 3
  | .ragld (some p) _ _ _ _ => p.mask
  | _ => 0

/-- RAGLD, once every live thread of the team has arrived. Faults are taken on the lowest-ranked thread's RAGLD. -/
def completeRagld (s : State) (b : Block) (ms : List Member) (width : Nat) : State :=
  match ms with
  | [] => s
  | m0 :: _ =>
    match b.thread? false m0.a.tid with
    | none => s
    | some t0 =>
      let bits := 8 * 2 ^ width
      let n := 64 / bits
      let da := m0.a.raVal.toNat
      let out := s.onBlock b.bid fun x =>
        { x with arrivals := x.arrivals.filter fun a => !(ms.any fun m => m.a.tid == a.tid) }
      let bad := fun (f : AccFault) => accessFault out b t0 false f t0.pc 1 (bits / 8)
      if da % 8 ≠ 0 then bad { kind := .program codeAlignment, addr := m0.a.raVal }
      else match ownScratch b da 24 with
        | none => bad { kind := .program codeWindow, addr := m0.a.raVal }
        | some off =>
          if uncommitted b && !inStaging b off 24 then
            trapEntry (s.onBlock b.bid fun x => { x with arrivals := x.arrivals.filter fun a => a.tid != t0.tid })
              b.bid t0.tid t0.pc 5 t0.pc 1
          else
            let w : Walk := { data := cellsRead b.scratch off 8, lenp := cellsRead b.scratch (off + 8) 8,
                              off := cellsRead b.scratch (off + 16) 4, rows := cellsRead b.scratch (off + 20) 4 }
            match walkElems s b (bits / 8) (32 * n) 0 false w with
            | .inr f => bad f
            | .inl (es, w', s') =>
              s'.onBlock b.bid fun x =>
                let x : Block := { x with
                  scratch := cellsWrite (cellsWrite (cellsWrite (cellsWrite x.scratch off 8 w'.data) (off + 8) 8 w'.lenp)
                    (off + 16) 4 w'.off) (off + 20) 4 w'.rows }
                let lane := fun (l : Nat) => (es.drop (l * n)).take n
                let x' := finishSet x ms (ms.map fun m =>
                  { tid := m.a.tid, val := buildElems bits fun i => ((lane m.rank).getD i (0, false)).1, flags := 0 })
                { x' with threads := x'.threads.map fun t =>
                    match ms.find? fun m => m.a.tid == t.tid with
                    | some m => t.writeK (markReg m.a.instr) (markBits bits ((lane m.rank).map (·.2)))
                    | none => t }

/-! ## Arrival -/

/-- A set operation completes when every current member has arrived (01 R24, 08 R188). -/
def trySet (s : State) (bid slot : Nat) (key : Option Word) : State :=
  match s.block? bid with
  | none => s
  | some b =>
    match gathered b slot key with
    | none => s
    | some ms =>
      match ms with
      | { a := { instr := .ragld _ _ _ width _, .. }, .. } :: _ =>
        if ms.any fun m => setSig m.a.instr != ms.head?.bind fun x => setSig x.a.instr then
          s.onBlock bid fun b => finishSet b ms (ms.map fun m => { tid := m.a.tid, val := 0, flags := 0 })
        else completeRagld s b ms width.toNat
      | _ => s.onBlock bid fun b => finishSet b ms (setResults ms)

/-- The sets that arrivals of a block name: a team slot, and a group's key. -/
def arrivedSets (b : Block) : List (Nat × Option Word) :=
  (b.arrivals.map fun a => (((b.threads.find? fun t => t.tid == a.tid).map (·.slot)).getD 0, a.key)).eraseDups

/-- The members of a team and of a group, when each of them has arrived at a set operation over one or the other and neither
set is whole: their operations are matched and differ in the choice of the set (01 R24, log 68). -/
def mixedSet (b : Block) (slot : Nat) (key : Word) : Option (List Arrival) :=
  match setMembers b slot none, setMembers b slot (some key) with
  | some team, some group =>
    let as := (team ++ group.filter fun m => !team.contains m).map fun m =>
      b.arrivals.find? fun a => a.tid == m
        && (a.key == some key || (a.key == none && (b.threads.any fun t => t.tid == m && t.slot == slot)))
    if as.all (·.isSome) && (as.any fun a => a.any (·.key.isSome)) && (as.any fun a => a.any (·.key.isNone))
    then some (as.filterMap id) else none
  | _, _ => none

/-- Matched operations that disagree in the choice of the set: every member's rd is zero (01 R24). -/
def tryMixed (s : State) (bid slot : Nat) (key : Word) : State :=
  match s.block? bid with
  | none => s
  | some b =>
    match mixedSet b slot key with
    | none => s
    | some as => s.onBlock bid fun b =>
        finishSet b (as.map fun a => { rank := 0, a := a }) (as.map fun a => { tid := a.tid, val := 0, flags := 0 })

/-- Every set of a block whose members have all arrived completes; for members that left (01 R24). -/
def settleSets (s : State) (bid : Nat) : State :=
  match s.block? bid with
  | none => s
  | some b =>
    let keys := arrivedSets b
    let slots := (keys.filter fun k => k.2.isNone).map (·.1)
    let groups := (keys.filterMap (·.2)).eraseDups
    let s := keys.foldl (fun s k => trySet s bid k.1 k.2) s
    slots.foldl (fun s slot => groups.foldl (fun s k => tryMixed s bid slot k) s) s

/-- A thread arrives at a set operation i over the set of key (none the team), or goes on waiting there. -/
def setOp (i : Instr) (u : Use) (onTeam : Bool) (ra rb : Reg) (mask : Here → Byte) (own : Here → Word) (s : State) : Out :=
  issue s u fun h =>
    let key := if onTeam then none else some (h.t.readX ra)
    let member := match key with
      | none => true
      | some k => h.b.groups.any fun g => g.key == k && g.members.contains h.t.tid
    if !member then h.result i.pfx (setRd i) (own h) []
    else if h.b.arrivals.any fun a => a.tid == h.t.tid then h.wait .setOp
    else
      let a : Arrival :=
        { tid := h.t.tid, instr := i, key := key, rdVal := h.t.readX (setRd i), raVal := h.t.readX ra,
          rbVal := h.t.readX rb, mask := mask h,
          rm := match effRM i.pfx h.t with
            | .rne => 0 | .rtz => 1 | .rup => 2 | .rdn => 3 | .rna => 4 }
      let s := (h.put h.s { h.t with wait := .setOp }).onBlock h.b.bid fun b => { b with arrivals := b.arrivals ++ [a] }
      .next (trySet s h.b.bid h.t.slot key)

/-- The operation over the set that ra names. -/
def setOver (i : Instr) (p : Option Pfx) (rd ra rb : Reg) (fea feb useRb : Bool) (own : Here → Word) (s : State) : Out :=
  setOp i { pfx := p, srcs := [(rd, false), (ra, fea)] ++ (if useRb then [(rb, feb)] else []), dsts := [rd] }
    (ra == 0) ra rb (fun h => enableMask p h.t) own s

/-- SHFL (08 R190). -/
def execShfl (p : Option Pfx) (rd ra rb : Reg) (fea feb : Bool) (s : State) : Out :=
  setOver (.shfl p rd ra rb fea feb) p rd ra rb fea feb true (fun h => h.t.readX rd) s

/-- SHFLI (08 R190). -/
def execShfli (p : Option Pfx) (rd ra : Reg) (mode : BitVec 2) (imm : BitVec 5) (fea : Bool) (s : State) : Out :=
  setOver (.shfli p rd ra mode imm fea) p rd ra 0 fea false false (fun h => h.t.readX rd) s

/-- BCAST (08 R190). -/
def execBcast (p : Option Pfx) (rd ra rb : Reg) (fea feb : Bool) (s : State) : Out :=
  setOver (.bcast p rd ra rb fea feb) p rd ra rb fea feb true (fun h => h.t.readX rd) s

/-- GRED (08 R191). -/
def execGred (p : Option Pfx) (rd ra : Reg) (op : BitVec 3) (typ : BitVec 4) (fea : Bool) (s : State) : Out :=
  setOver (.gred p rd ra op typ fea) p rd ra 0 fea false false (fun h => h.t.readX rd) s

/-- GSCAN (08 R191). -/
def execGscan (p : Option Pfx) (rd ra : Reg) (op : BitVec 3) (typ : BitVec 4) (fea : Bool) (s : State) : Out :=
  setOver (.gscan p rd ra op typ fea) p rd ra 0 fea false false (fun h => h.t.readX rd) s

/-- VOTE (08 R192). -/
def execVote (p : Option Pfx) (rd ra : Reg) (mode : BitVec 2) (fea : Bool) (s : State) : Out :=
  setOver (.vote p rd ra mode fea) p rd ra 0 fea false false (fun _ => 0) s

/-- MATCH (08 R193). -/
def execMatchKeys (p : Option Pfx) (rd ra : Reg) (byValue : Bool) (typ : BitVec 4) (fea : Bool) (s : State) : Out :=
  setOver (.matchKeys p rd ra byValue typ fea) p rd ra 0 fea false false (fun _ => 0) s

/-- PSHUF (08 R196): always over the team; ra holds the indices. -/
def execPshuf (p : Option Pfx) (rd ra : Reg) (width : BitVec 2) (fea : Bool) (s : State) : Out :=
  setOp (.pshuf p rd ra width fea) { pfx := p, srcs := [(rd, false), (ra, fea)], dsts := [rd] } true ra 0
    (fun h => enableMask p h.t) (fun _ => 0) s

/-- The register of segment marks (06 R134, 08 R197): none leaves one segment. -/
def segMarks (p : Option Pfx) (t : Thread) : Byte :=
  match p with
  | some q => if q.mask = 0 then 0 else t.kReg q.mask
  | none => 0

/-- SEGRED (08 R197): ra holds the values. -/
def execSegred (p : Option Pfx) (rd ra : Reg) (op : BitVec 3) (typ : BitVec 4) (fea : Bool) (s : State) : Out :=
  setOp (.segred p rd ra op typ fea) { pfx := p, srcs := [(ra, fea)], dsts := [rd] } true ra 0
    (fun h => segMarks p h.t) (fun _ => 0) s

/-- RAGLD (09 R207): the team arrives as at a set operation; ra holds the descriptor's address. -/
def execRagld (p : Option Pfx) (rd ra : Reg) (width : BitVec 2) (fea : Bool) (s : State) : Out :=
  setOp (.ragld p rd ra width fea) { pfx := p, srcs := [(ra, fea)], dsts := [rd] } true ra 0
    (fun _ => 0xFF) (fun _ => 0) s

/-! ## Groups (08 R194) -/

/-- A member inserted in ascending order. -/
def insertTid (x : Nat) : List Nat → List Nat
  | [] => [x]
  | y :: rest => if x < y then x :: y :: rest else if x = y then y :: rest else y :: insertTid x rest

/-- JOIN (08 R194). A member's JOIN returns 1 at once, also while a set operation of the group has arrivals: the rule's wait names
no exception for members (DESIGN CHOICE, log 83). -/
def execJoin (rd ra : Reg) (fea : Bool) (s : State) : Out :=
  issue s { srcs := [(ra, fea)], dsts := [rd] } fun h =>
    let key := h.t.readX ra
    match h.b.groups.find? fun g => g.key == key with
    | some g =>
      if g.members.contains h.t.tid then h.done h.s (h.t.writeX rd 1)
      else if h.b.arrivals.any fun a => a.key == some key then h.wait .dep
      else h.done (h.s.onBlock h.b.bid fun b =>
        { b with groups := b.groups.map fun x =>
            if x.key = key then { x with members := insertTid h.t.tid x.members } else x }) (h.t.writeX rd 1)
    | none =>
      if 64 ≤ h.b.groups.length then h.done h.s (h.t.writeX rd 0)
      else h.done (h.s.onBlock h.b.bid fun b =>
        { b with groups := b.groups ++ [{ key := key, members := [h.t.tid] }] }) (h.t.writeX rd 1)

/-- LEAVE (08 R194): a set operation that waited for this member completes over the others. -/
def execLeave (ra : Reg) (fea : Bool) (s : State) : Out :=
  issue s { srcs := [(ra, fea)] } fun h =>
    let key := h.t.readX ra
    h.done (h.s.onBlock h.b.bid fun b =>
      { b with
        groups := (b.groups.map fun x =>
          if x.key = key then { x with members := x.members.filter (· != h.t.tid) } else x).filter
            fun x => !x.members.isEmpty }) h.t

/-- GRANK's value (08 R194). -/
def grankVal (b : Block) (t : Thread) (key : Option Word) : Word :=
  match setMembers b t.slot key with
  | none => BitVec.ofNat 64 0xFFFFFFFF
  | some ms =>
    let rank := if ms.contains t.tid then
        match key with
        | none => t.lane
        | some _ => (ms.takeWhile (· != t.tid)).length
      else 0xFFFFFFFF
    BitVec.ofNat 64 (rank + 2 ^ 32 * ms.length)

/-- GRANK (08 R194). -/
def execGrank (rd ra : Reg) (fea : Bool) (s : State) : Out :=
  issue s { srcs := [(ra, fea)], dsts := [rd] } fun h =>
    h.done h.s (h.t.writeX rd (grankVal h.b h.t (if ra = 0 then none else some (h.t.readX ra))))

/-! ## Rendezvous (08 R195) -/

/-- A thread's turn at a cell it could not send to is over. -/
def dropSender (cell tid : Nat) (tm : Team) : Team := { tm with senders := tm.senders.filter fun x => x != (cell, tid) }

/-- Does an earlier sender wait for the cell (08 R195)? -/
def senderBefore (tm : Team) (cell tid : Nat) : Bool :=
  ((tm.senders.find? fun x => x.1 == cell).map (·.2)).any (· != tid)

/-- XSEND (08 R195): senders of one cell are served in the order they issued. -/
def execXsend (slot : BitVec 4) (ra rb : Reg) (fea feb : Bool) (s : State) : Out :=
  issue s { srcs := [(ra, fea), (rb, feb)] } fun h =>
    let t := (h.t.readX rb).toNat
    let team := t % 32
    let lane := t / 32 % 32
    let cell := 32 * slot.toNat + lane
    let v := h.t.readX ra
    match h.b.team? team with
    | none => h.done h.s h.t
    | some tm =>
      if !((h.b.live team).any fun x => x.lane == lane) then h.done h.s h.t
      else if (tm.claims.all fun c => c.1 != cell) && (tm.cells.any fun x => x.1 == cell) || senderBefore tm cell h.t.tid then
        .next ((h.put h.s { h.t with wait := .dep }).onBlock h.b.bid fun b =>
          b.setTeam { tm with senders := tm.senders ++ if tm.senders.contains (cell, h.t.tid) then [] else [(cell, h.t.tid)] })
      else match tm.claims.find? fun c => c.1 == cell with
        | some c =>
          let s := h.s.onBlock h.b.bid fun b => b.setTeam { dropSender cell h.t.tid tm with claims := tm.claims.filter fun x => x.1 != cell }
          h.done { s with
            prods := s.prods.map fun p => if p.id = c.2 then { p with val := v, ready := true, due := s.cycle } else p } h.t
        | none => h.done (h.s.onBlock h.b.bid fun b =>
            b.setTeam { dropSender cell h.t.tid tm with cells := tm.cells ++ [(cell, v)] }) h.t

/-- XRECV (08 R195): a claim on the cell, filled by its value. -/
def execXrecv (rd : Reg) (slot : BitVec 4) (s : State) : Out :=
  issue s { dsts := [rd] } fun h =>
    let cell := 32 * slot.toNat + h.t.lane
    match h.b.team? h.t.slot with
    | none => h.illegal
    | some tm =>
      if tm.claims.any fun c => c.1 == cell then h.wait .xrecv
      else
        let found := tm.cells.find? fun x => x.1 == cell
        let id := h.s.nextId
        let p : Prod := { id := id, bid := h.b.bid, tid := h.t.tid, acc := false, y := h.t.dstY rd,
                          val := (found.map (·.2)).getD 0, poison := none, flags := 0, kind := .xrecv,
                          ready := found.isSome, due := h.s.cycle,
                          desc := { major := 18, fn := 11, qual := slot.toNat, rm := rmAt none h.t, operands := [] } }
        let tm' := match found with
          | some _ => { tm with cells := tm.cells.filter fun x => x.1 != cell }
          | none => { tm with claims := tm.claims ++ [(cell, id)] }
        let s : State := { h.s with nextId := id + 1, prods := h.s.prods ++ [p] }
        h.done (s.onBlock h.b.bid fun b => b.setTeam tm') (h.t.emptyX rd)

end Sys2Proof.Machine
end

