-- ==== Sys2Proof/Machine/MemoryOps.lean ====
section
/-! DEFINITION. Loads, stores, strong accesses, fences, the data hints and the feed queues (09 R200 to R206, 10 R244, R245),
and what redundant mode does with stores and compare points (05 R110, 17 R361 to R363). -/

namespace Sys2Proof.Machine

/-! ## Compare points of a thread -/

/-- What a thread at a compare point may do. -/
inductive Gate where
  /-- Perform the action: the block has no twin, or the compare matched and this is the primary. -/
  | go
  /-- The primary has performed it with these results. -/
  | replay (r : List Word)
  | hold
deriving DecidableEq, Repr

/-- The state of a thread's compare point (17 R363). -/
def gateOf (h : Here) : Gate :=
  if !twinned h.b then .go
  else match h.b.grants.find? fun g => g.1 == h.t.tid with
    | some (_, some r) => .replay r
    | some (_, none) => if h.b.primary then .go else .hold
    | none => .hold

/-- The thread waits at its compare point, with the counts of held stores as they stand (17 R363). -/
def Here.holdAt (h : Here) : Out :=
  .next ((h.put h.s { h.t with wait := .dep }).onBlock h.b.bid fun b => openCompare b h.t.tid (heldCounts h.b))

/-- The state with the action's results handed to the twin, and the thread's grant used up. -/
def Here.share (h : Here) (s : State) (r : List Word) : State :=
  if !twinned h.b then s
  else
    let s := s.onBlock h.b.bid fun b => dropGrant b h.t.tid
    match h.b.twin with
    | some w => if h.b.primary then
        s.onBlock w fun b => { dropGrant b h.t.tid with grants := (dropGrant b h.t.tid).grants ++ [(h.t.tid, some r)] }
      else s
    | none => s

/-- The outcome followed by an interval boundary of the block or its cluster (01 R31, 17 R358). -/
def Here.bounded (h : Here) (yes : Bool) (o : Out) : Out :=
  match o with
  | .next s => if yes then .next (clusterBoundary s h.b) else .next s
  | x => x

/-! ## Stores -/

/-- Some byte lies outside every scratchpad (01 R31). -/
def outside (ls : List Located) : Bool := ls.any fun l => match l.place with
  | .scratch .. => false
  | _ => true

/-- Some byte lies on an SO page (05 R93). -/
def onSO (ls : List Located) : Bool := ls.any fun l => l.leaf.any fun f => leafOrd f.entry == 1

/-- The bytes stored at located places. -/
def putAt (s : State) (ls : List Located) (v : Nat) : State := writePlaces (touch (noteWrite s ls) true ls) ls v

/-- Held stores of a thread since its last compare. -/
def heldOf (b : Block) (tid : Nat) : Nat := (b.held.filter fun w => w.tid == tid).length

/-- A store enters the varnish buffer; the 2,048th of a thread triggers a compare, for which its next one waits (17 R363). -/
def Here.holdStore (h : Here) (va n : Nat) (v : Word) : Out :=
  if 2048 ≤ heldOf h.b h.t.tid then h.wait .dep
  else
    h.done (h.s.onBlock h.b.bid fun b =>
      let b : Block := { b with held := b.held ++ [{ tid := h.t.tid, addr := BitVec.ofNat 64 va, size := n, val := v }] }
      if 2048 ≤ heldOf b h.t.tid then openCompare b (countKey h.t.tid) [(h.t.tid, 2048)] else b) h.t

/-- A thread's store of n bytes (09 R201, R202): rel for STL, wide for a release at cluster scope or wider. In redundant mode
a store outside scratchpad to an RC or UO page is held, and one to an SO page or a wide release is a compare point; a store to
scratchpad is made by each twin in its own. -/
def Here.store (h : Here) (va n : Nat) (v : Word) (rel wide : Bool) : Out :=
  match windowFault h.s h.b.view va n with
  | some f => h.fault f 2 n
  | none =>
    if uncommitted h.b && (wide || !regionStoreOk h.b va n) then h.trap 5 (if rel then 3 else 1)
    else match locateAll h.s h.b.view needW (addrs va n) with
      | .inr f => h.fault f 2 n
      | .inl ls =>
        let out := outside ls
        if twinned h.b && out && !onSO ls && !wide then h.holdStore va n v
        else if twinned h.b && (out || wide) then
          match gateOf h with
          | .hold => h.holdAt
          | .replay _ => h.bounded true (h.done (h.share (if out then h.s else putAt h.s ls v.toNat) []) h.t)
          | .go => h.bounded true (h.done (h.share (putAt h.s ls v.toNat) []) h.t)
        else h.bounded (out || wide) (h.done (putAt h.s ls v.toNat) h.t)

/-! ## Loads -/

/-- The loaded bytes in a register (09 R200). -/
def extended (zx : Bool) (n x : Nat) : Word := if zx then BitVec.ofNat 64 x else sextTo (8 * n) x

/-- An access thread's load (10 R245, 05 R106): a fault, or an SO page, poisons the destination, and no A bit is set before
the path is confirmed. -/
def Here.accessLoad (h : Here) (rd : Reg) (va n : Nat) (zx : Bool) (desc : OpDesc) : Out :=
  let bad := fun (f : AccFault) =>
    h.produce h.s h.t rd .load 0 0 (some { addr := BitVec.ofNat 64 va, size := n, zx := zx, fault := f }) Config.latLoad desc
  match windowFault h.s h.b.view va n with
  | some f => bad f
  | none =>
    match locateAll h.s h.b.view needR (addrs va n) with
    | .inr f => bad f
    | .inl ls =>
      if onSO ls then bad { kind := .program codePermission, addr := BitVec.ofNat 64 va }
      else match dataFault h.s ls va with
        | some f => bad f
        | none =>
          h.produce h.s { h.t with touched := (h.t.touched ++ pathsOf h.s h.b.view (addrs va n)).eraseDups } rd .load
            (extended zx n (overlay h.b va n (readPlaces h.s ls))) 0 none Config.latLoad desc

/-- A thread's load of n bytes into rd: performed at issue (log 2), delivered as a long-latency producer (02 R38). -/
def Here.load (h : Here) (rd : Reg) (va n : Nat) (zx : Bool) (kind : ProdKind) (desc : OpDesc) : Out :=
  if h.acc then h.accessLoad rd va n zx desc
  else match loadAt h.s h.b.view va n with
    | .inr f => h.fault f 1 n
    | .inl (x, s) => h.produce s h.t rd kind (extended zx n (overlay h.b va n x)) 0 none Config.latLoad desc

/-! ## LD, LDZ, ST (09 R200, R201) -/

/-- ra plus the scaled offset. -/
def memAddr (base : Word) (imm : BitVec 10) (n : Nat) : Nat :=
  (base + imm.signExtend 64 * BitVec.ofNat 64 n).toNat

/-- LD and LDZ. -/
def plainLoad (p : Option Pfx) (rd ra : Reg) (size : BitVec 2) (fe : Bool) (imm : BitVec 10) (zx : Bool) (s : State) : Out :=
  issue s { pfx := p, srcs := [(ra, fe)], dsts := dstOf p s rd, more := [rd.toNat], slice := true } fun h =>
    if !active p h.t then h.result p rd 0 []
    else if (firstPoison h [ra]).isSome then h.result p rd 0 [ra]
    else
      let n := 2 ^ size.toNat
      let va := memAddr (h.t.readX ra) imm n
      h.load rd va n zx .load
        { major := if zx then 7 else 6, fn := 0, qual := 8 * size.toNat + (if zx then 32 else 0), rm := rmAt p h.t,
          operands := [BitVec.ofNat 64 va] }

/-- LD. -/
def execLd (p : Option Pfx) (rd ra : Reg) (size : BitVec 2) (fe : Bool) (imm : BitVec 10) (s : State) : Out :=
  plainLoad p rd ra size fe imm false s

/-- LDZ. -/
def execLdz (p : Option Pfx) (rd ra : Reg) (size : BitVec 2) (fe : Bool) (imm : BitVec 10) (s : State) : Out :=
  plainLoad p rd ra size fe imm true s

/-- ST: fe covers the data register too. -/
def execSt (p : Option Pfx) (rd ra : Reg) (size : BitVec 2) (fe : Bool) (imm : BitVec 10) (s : State) : Out :=
  issue s { pfx := p, srcs := [(rd, fe), (ra, fe)] } fun h =>
    if !active p h.t then h.done h.s h.t
    else
      let n := 2 ^ size.toNat
      h.store (memAddr (h.t.readX ra) imm n) n (h.t.readX rd) false false

/-! ## Strong accesses and FENCE (09 R202 to R204) -/

/-- Device-visible scopes: cluster, device, system (06 R130). -/
def wideScope (scope : BitVec 3) : Bool := scope == 1 || scope == 2 || scope == 3

/-- LDR and LDA. -/
def strongLoad (fn : Nat) (rd ra : Reg) (zx : Bool) (size : BitVec 2) (scope : BitVec 3) (fea : Bool) (s : State) : Out :=
  issue s { srcs := [(ra, fea)], dsts := [rd] } fun h =>
    let n := 2 ^ size.toNat
    let va := (h.t.readX ra).toNat
    if va % n ≠ 0 then h.fault { kind := .program codeAlignment, addr := h.t.readX ra } 1 n
    else h.load rd va n zx .strong
      { major := 19, fn := fn, qual := scope.toNat + 8 * size.toNat + (if zx then 32 else 0), rm := rmAt none h.t, operands := [h.t.readX ra, scope.zeroExtend 64] }

/-- LDR. -/
def execLdr (rd ra : Reg) (zx : Bool) (size : BitVec 2) (scope : BitVec 3) (fea : Bool) (s : State) : Out :=
  strongLoad 0 rd ra zx size scope fea s

/-- LDA. -/
def execLda (rd ra : Reg) (zx : Bool) (size : BitVec 2) (scope : BitVec 3) (fea : Bool) (s : State) : Out :=
  strongLoad 2 rd ra zx size scope fea s

/-- STR and STL. -/
def strongStore (rel : Bool) (size : BitVec 2) (scope : BitVec 3) (ra rb : Reg) (fea feb : Bool) (s : State) : Out :=
  issue s { srcs := [(ra, fea), (rb, feb)] } fun h =>
    let n := 2 ^ size.toNat
    let va := (h.t.readX ra).toNat
    if va % n ≠ 0 then h.fault { kind := .program codeAlignment, addr := h.t.readX ra } 2 n
    else h.store va n (h.t.readX rb) rel (rel && wideScope scope)

/-- STR. -/
def execStr (size : BitVec 2) (scope : BitVec 3) (ra rb : Reg) (fea feb : Bool) (s : State) : Out :=
  strongStore false size scope ra rb fea feb s

/-- STL. -/
def execStl (size : BitVec 2) (scope : BitVec 3) (ra rb : Reg) (fea feb : Bool) (s : State) : Out :=
  strongStore true size scope ra rb fea feb s

/-- FENCE: accesses are performed in program order already (log 2); a wide fence is irrevocable. -/
def execFence (_uo : Bool) (scope : BitVec 3) (s : State) : Out :=
  issue s {} fun h =>
    if wideScope scope && uncommitted h.b then h.trap 5 4
    else if wideScope scope && twinned h.b then
      match gateOf h with
      | .hold => h.holdAt
      | _ => h.bounded true (h.done (h.share h.s []) h.t)
    else h.bounded (wideScope scope) (h.done h.s h.t)

/-! ## Hints (09 R205, R206): no architectural state changes -/

/-- PREF. -/
def execPref (ra : Reg) (fea : Bool) (s : State) : Out :=
  issue s { srcs := [(ra, fea)] } fun h => h.done h.s h.t

/-- CWB. -/
def execCwb (ra : Reg) (fea : Bool) (s : State) : Out :=
  issue s { srcs := [(ra, fea)] } fun h => h.done h.s h.t

/-- CINV. -/
def execCinv (ra : Reg) (fea : Bool) (s : State) : Out :=
  issue s { srcs := [(ra, fea)] } fun h => h.done h.s h.t

/-! ## Feed queues (10 R244, R245) -/

/-- Index of a lane's column of queue q. -/
def column (q : BitVec 2) (lane : Nat) : Fin 128 := ⟨32 * q.toNat + lane % 32, by omega⟩

/-- FQPUSH: only access-slice code may hold it; after a restart the pushes that were popped before are discarded (R246). -/
def execFqpush (q : BitVec 2) (ra : Reg) (fea : Bool) (s : State) : Out :=
  issue s { srcs := [(ra, fea)], slice := true, legal := fun h => h.acc } fun h =>
    match h.b.team? h.t.slot with
    | none => h.wait .dep
    | some tm =>
      let i := column q h.t.lane
      let t : Thread := { h.t with touched := [] }
      if 0 < tm.drop[i] then
        h.done (h.s.onBlock h.b.bid fun b => b.setTeam { tm with drop := tm.drop.set i (tm.drop[i] - 1) }) t
      else if 16 ≤ tm.fq[i].length then h.wait .dep
      else
        let c : FqCell := { val := h.t.readX ra, poison := firstPoison h [ra], touched := h.t.touched }
        h.done (h.s.onBlock h.b.bid fun b => b.setTeam { tm with fq := tm.fq.set i (tm.fq[i] ++ [c]) }) t

/-- The pop of a poisoned cell raises its fault as if the pop had made the access; a fault that can be served has the pop
perform the access as a weak load (10 R245). fin completes the pop. -/
def Here.popPoison (h : Here) (rd : Reg) (d : Poison) (fin : State → State) : Out :=
  match d.fault.kind with
  | .program _ => h.fault d.fault 1 d.size
  | .serviceable .. =>
    match loadAt h.s h.b.view d.addr.toNat d.size with
    | .inr f => h.fault f 1 d.size
    | .inl (x, s) => h.done (fin s) (h.t.writeX rd (extended d.zx d.size (overlay h.b d.addr.toNat d.size x)))

/-- FQPOP. -/
def execFqpop (rd : Reg) (q : BitVec 2) (s : State) : Out :=
  issue s { dsts := [rd], legal := fun h => h.b.kernel.access.isSome } fun h =>
    match h.b.team? h.t.slot with
    | none => h.wait .dep
    | some tm =>
      let i := column q h.t.lane
      match tm.fq[i] with
      | [] =>
        match (h.b.access.find? fun t => t.slot == h.t.slot && t.lane == h.t.lane).bind (·.halted) with
        | some d => h.popPoison rd d id
        | none => h.wait .dep
      | c :: rest =>
        let fin := fun (s : State) => s.onBlock h.b.bid fun b =>
          b.setTeam { tm with fq := tm.fq.set i rest, pops := tm.pops.set i (tm.pops[i] + 1) }
        match c.poison with
        | some d => h.popPoison rd d fin
        | none => h.done (fin (confirmPaths h.s h.b.view c.touched)) (h.t.writeX rd c.val)

end Sys2Proof.Machine
end

