-- ==== Sys2Proof/Machine/Service.lean ====
section
/-! DEFINITION. Requests to the host (13 R279, R280), kernel parameter blocks (19 R390) and the kernels a context has loaded
(19 R396, R397). -/

namespace Sys2Proof.Machine

/-! ## The assist ring (13 R280) -/

/-- A bit of DSPLIT: the function is host-assisted. -/
def hostAssisted (s : State) (p fn : Nat) : Bool := (s.part p).dsplit.getLsbD fn

/-- Is a request of a function open? -/
def askedHost (s : State) (p fn ref : Nat) : Bool := (s.part p).assists.any fun a => a.fn == fn && a.ref == ref

/-- Is a matter the host's: its function is host-assisted, or was when a request about it was posted (13 R279)? -/
def hostDuty (s : State) (p fn ref : Nat) : Bool := hostAssisted s p fn || askedHost s p fn ref

/-- A raised request enters the ring, with its arguments from byte 8 on. -/
def putRequest (s : State) (p : Nat) (a : Assist) : State :=
  let x := s.part p
  let rq := leBytes 2 a.fn ++ leBytes 2 a.ctx ++ leBytes 4 a.seq ++ (a.args ++ List.replicate 56 0).take 56
  let s : State := { s with mem := cellsPut s.mem (x.asbase.toNat + 64 * (x.asReqHead.toNat % 4096)) rq }
  isrSet (s.setPart p { x with
    asReqHead := x.asReqHead + 1,
    assists := x.assists.map fun y => if y.seq = a.seq then { y with posted := s.time, waiting := false } else y }) p 1

/-- Requests that wait enter the ring in the order in which they were raised, while it has room. Heads and tails run on freely,
an entry's place being the index modulo 4,096 (DESIGN CHOICE, log 93). -/
def sendRequests (s : State) (p : Nat) : State :=
  ((s.part p).assists.filter (·.waiting)).foldl (fun s a =>
    if ((s.part p).asReqHead - (s.part p).asReqTail).toNat = 4096 then s else putRequest s p a) s

/-- A request is raised, in the mode and with the time to answer of now (13 R279); while the ring is full it waits. Its place in the
ring is its index modulo 4,096 (DESIGN CHOICE, log 93). -/
def postAssist (s : State) (p fn ctx ref : Nat) (args : List Byte) : State × Nat :=
  let x := s.part p
  (sendRequests (s.setPart p { x with
    asSeq := (x.asSeq + 1) % 2 ^ 32,
    assists := x.assists ++ [{ seq := x.asSeq, fn := fn, ctx := ctx, args := args, ref := ref, posted := s.time,
                                limit := micros (max 1 x.atmo), waiting := true }] }) p, x.asSeq)

/-! ## Kernel parameter blocks -/

/-- The declarations of a block of 128 bytes that lies at kpb, in an instance loaded at base (19 R390). -/
def parseKernel (bs : List Byte) (kpb base inst : Nat) : Kernel :=
  let at' := fun (o : Nat) => BitVec.ofNat 64 (base + o)
  let opt := fun (o : Nat) => if field bs o 8 = 0 then none else some (at' (field bs o 8))
  { kpb := BitVec.ofNat 64 kpb, base := BitVec.ofNat 64 base, inst := inst, text := at' (field bs 0 8), access := opt 8,
    trap := opt 16, regs := field bs 24 2, n := field bs 26 1, s := field bs 27 1, scratch := field bs 28 4,
    spawnEntries := field bs 32 4, acc := field bs 36 2, cluster := field bs 38 1,
    blockBars := BitVec.ofNat 64 (field bs 40 8), clusterBars := BitVec.ofNat 16 (field bs 48 2),
    gridBars := BitVec.ofNat 8 (field bs 50 1), restartFirst := field bs 51 1, restartCount := field bs 52 1,
    staging := ((List.range 4).map fun i => (field bs (56 + 8 * i) 4, field bs (60 + 8 * i) 4)).filter fun r => r.2 != 0,
    prefetch := ((List.range 8).map fun i => field bs (88 + 4 * i) 4).filter fun t => t != 0xFFFFFFFF }

/-- Instances mapped in a context. -/
def instsOf (s : State) (ctx : Nat) : List Inst := s.insts.filter fun i => i.ctxs.contains ctx

/-- The instance a KPB address names a kernel of, unless its UNLOAD has begun in the context (19 R397). -/
def kernelInst (s : State) (ctx kpb : Nat) : Option Inst :=
  (instsOf s ctx).find? fun i =>
    !i.unloading.contains ctx && i.base.toNat ≤ kpb && i.kernels.any fun k => k.kpb == kpb - i.base.toNat

/-- A page-by-page read of memory that sets no A bit, for the checks of control cores (15 R316). -/
def peek (s : State) (v : View) (va n : Nat) : List Byte ⊕ AccFault :=
  match loadBytes s v va n with
  | .inl (bs, _) => .inl bs
  | .inr f => .inr f

/-- Are a kernel's declarations within their limits (01 R13, R14, 06 R143)? -/
def Kernel.inLimits (k : Kernel) : Bool :=
  decide (32 ≤ k.regs) && decide (k.regs ≤ 256) && k.regs % 32 == 0 && decide (1 ≤ k.n) && decide (k.n + k.s ≤ 32)
  && decide (k.acc ≤ 256) && decide (1 ≤ k.cluster) && decide (k.cluster ≤ 16) && decide (k.restartCount ≤ 16)

/-- Bytes of an instance's image where its own pages hold them; none where one is not in memory, or is poisoned. -/
def imageBytes (s : State) (i : Inst) (off : Nat) : Nat → Option (List Byte)
  | 0 => some []
  | n + 1 => match i.pages.find? fun pg => pg.1 == off / 4096, imageBytes s i (off + 1) n with
    | some pg, some bs =>
      let a := pg.2 + off % 4096
      if s.poison.contains a then none else some (cellsGet s.mem a :: bs)
    | _, _ => none

/-- The kernel whose parameter block lies at an address of an instance. LOAD has put it in memory (19 R392), so a page of it
that the context's tables do not show is read in the instance's own (log 79). -/
def kernelOf (s : State) (part ctx kpb : Nat) (i : Inst) : Option Kernel :=
  let bytes := match peek s (ctxView part ctx) kpb 128 with
    | .inl bs => some bs
    | .inr _ => imageBytes s i (kpb - i.base.toNat) 128
  match bytes.map fun bs => parseKernel bs kpb i.base.toNat i.iid with
  | none => none
  | some k => if k.inLimits then some k else none

/-- The kernel a KPB address names in a context. -/
def kernelAt (s : State) (part ctx kpb : Nat) : Option Kernel := (kernelInst s ctx kpb).bind (kernelOf s part ctx kpb)

/-- The instance that a KPB address names a kernel of, whether or not an UNLOAD has begun: UNLOAD awaits what was started
before it (19 R397). -/
def loadedInst (s : State) (ctx kpb : Nat) : Option Inst :=
  (instsOf s ctx).find? fun i => i.base.toNat ≤ kpb && i.kernels.any fun k => k.kpb == kpb - i.base.toNat

/-- A kernel that something already started names. -/
def loadedKernel (s : State) (part ctx kpb : Nat) : Option Kernel := (loadedInst s ctx kpb).bind (kernelOf s part ctx kpb)

/-- Is the object a KPB address names poisoned (15 R328)? -/
def kernelPoisoned (s : State) (ctx kpb : Nat) : Bool := (loadedInst s ctx kpb).any fun i => s.poisoned.contains i.hash

/-- The first page of a range where an access would meet a serviceable fault (15 R321). -/
def firstService (s : State) (v : View) (need : Need) (va n : Nat) : Option AccFault :=
  if n = 0 then none
  else (List.range ((va + n - 1) / 4096 - va / 4096 + 1)).findSome? fun i =>
    match locate s v need (max va ((va / 4096 + i) * 4096)) with
    | .ok _ => none
    | .bad f => match f.kind with
      | .serviceable .. => some f
      | .program _ => none

/-- Service is asked for a control core's access. -/
def askService (s : State) (part ctx : Nat) (asker : Asker) (cls : Nat) (f : AccFault) : State :=
  match f.kind with
  | .program _ => s
  | .serviceable level entry =>
    if s.faults.any fun x => x.ctx == ctx && x.va.toNat / 4096 == f.addr.toNat / 4096 && x.asker == asker then s
    else { s with
      nextId := s.nextId + 1,
      faults := s.faults ++ [{ id := s.nextId, part := part, ctx := ctx, va := f.addr, access := cls, level := level,
                               entry := entry, asker := asker, served := false, refused := false,
                               host := (s.part part).dsplit.getLsbD 0, posted := false, raised := s.time }] }

end Sys2Proof.Machine
end

