-- ==== Sys2Proof/Machine/Atomics.lean ====
section
/-! DEFINITION. The atomics (09 R216 to R219, 05 R98) and ACASK with its commission (05 R111, 09 R220, 14 R297). -/

namespace Sys2Proof.Machine

/-- An atomic of n bytes without its result: the check order of 15 R418, the place of 04 R80, redundant mode's compare (a
scratchpad's atomic is made by each twin in its own), and what the instruction does with the old value. -/
def Here.atomic (h : Here) (va n : Nat) (f : Nat → Option Nat) (fin : State → Word → Out) : Out :=
  if va % n ≠ 0 then h.fault { kind := .program codeAlignment, addr := BitVec.ofNat 64 va } 3 n
  else match windowFault h.s h.b.view va n with
    | some e => h.fault e 3 n
    | none =>
      if uncommitted h.b then h.trap 5 2
      else
        let perform : Out :=
          match atomicAt h.s h.b.view va n f with
          | .inr e => h.fault e 3 n
          | .inl (old, s) => h.bounded true (fin (h.share s [BitVec.ofNat 64 old]) (BitVec.ofNat 64 old))
        match gateOf h with
        | .go => perform
        | .hold => h.holdAt
        | .replay r => if inScratch va then perform else h.bounded true (fin (h.share h.s []) (r.headD 0))

/-- The old value's way to rd: a long-latency producer unless rd is x0 (09 R216). -/
def Here.oldValue (h : Here) (rd : Reg) (major aop : Nat) (t : Thread) (s : State) (old : Word) : Out :=
  if rd = 0 then h.done s t
  else h.produce s t rd .atomic old 0 none Config.latLoad
    { major := major, fn := aop, qual := 0, rm := rmAt none t, operands := [] }

/-- Every atomic but ACASK: aop as 09 R217 numbers it, n the width in bytes. -/
def atomicOp (aop n : Nat) (p : Option Pfx) (rd ra rb : Reg) (s : State) : Out :=
  issue s { pfx := p, srcs := (if aop = 9 then [(rd, false)] else []) ++ [(ra, false), (rb, false)],
            dsts := dstOf p s rd, more := [rd.toNat] } fun h =>
    if !active p h.t then h.result p rd 0 []
    else
      let cut := fun (x : Word) => x.toNat % 2 ^ (8 * n)
      h.atomic (h.t.readX ra).toNat n
        (fun old => atomicNew aop (8 * n) old (cut (h.t.readX rb)) (cut (h.t.readX rd)))
        (fun s old => h.oldValue rd (if n = 8 then 21 else 22) aop h.t s old)

/-- AADD on 8 bytes (09 R217). -/
def execAadd (p : Option Pfx) (rd ra rb : Reg) (_scope : BitVec 2) (s : State) : Out := atomicOp 0 8 p rd ra rb s

/-- AMIN on 8 bytes (09 R217). -/
def execAmin (p : Option Pfx) (rd ra rb : Reg) (_scope : BitVec 2) (s : State) : Out := atomicOp 1 8 p rd ra rb s

/-- AMAX on 8 bytes (09 R217). -/
def execAmax (p : Option Pfx) (rd ra rb : Reg) (_scope : BitVec 2) (s : State) : Out := atomicOp 2 8 p rd ra rb s

/-- AMINN on 8 bytes (09 R217). -/
def execAminn (p : Option Pfx) (rd ra rb : Reg) (_scope : BitVec 2) (s : State) : Out := atomicOp 3 8 p rd ra rb s

/-- AMAXN on 8 bytes (09 R217). -/
def execAmaxn (p : Option Pfx) (rd ra rb : Reg) (_scope : BitVec 2) (s : State) : Out := atomicOp 4 8 p rd ra rb s

/-- AAND on 8 bytes (09 R217). -/
def execAand (p : Option Pfx) (rd ra rb : Reg) (_scope : BitVec 2) (s : State) : Out := atomicOp 5 8 p rd ra rb s

/-- AOR on 8 bytes (09 R217). -/
def execAor (p : Option Pfx) (rd ra rb : Reg) (_scope : BitVec 2) (s : State) : Out := atomicOp 6 8 p rd ra rb s

/-- AXOR on 8 bytes (09 R217). -/
def execAxor (p : Option Pfx) (rd ra rb : Reg) (_scope : BitVec 2) (s : State) : Out := atomicOp 7 8 p rd ra rb s

/-- AXCHG on 8 bytes (09 R217). -/
def execAxchg (p : Option Pfx) (rd ra rb : Reg) (_scope : BitVec 2) (s : State) : Out := atomicOp 8 8 p rd ra rb s

/-- ACAS on 8 bytes (09 R217). -/
def execAcas (p : Option Pfx) (rd ra rb : Reg) (_scope : BitVec 2) (s : State) : Out := atomicOp 9 8 p rd ra rb s

/-- AINCW on 8 bytes (09 R217). -/
def execAincw (p : Option Pfx) (rd ra rb : Reg) (_scope : BitVec 2) (s : State) : Out := atomicOp 11 8 p rd ra rb s

/-- AFADD on 8 bytes (09 R217). -/
def execAfadd (p : Option Pfx) (rd ra rb : Reg) (_scope : BitVec 2) (s : State) : Out := atomicOp 12 8 p rd ra rb s

/-- AFMIN on 8 bytes (09 R217). -/
def execAfmin (p : Option Pfx) (rd ra rb : Reg) (_scope : BitVec 2) (s : State) : Out := atomicOp 13 8 p rd ra rb s

/-- AFMAX on 8 bytes (09 R217). -/
def execAfmax (p : Option Pfx) (rd ra rb : Reg) (_scope : BitVec 2) (s : State) : Out := atomicOp 14 8 p rd ra rb s

/-- AADD on 4 bytes (09 R217). -/
def execAaddW32 (p : Option Pfx) (rd ra rb : Reg) (_scope : BitVec 2) (s : State) : Out := atomicOp 0 4 p rd ra rb s

/-- AMIN on 4 bytes (09 R217). -/
def execAminW32 (p : Option Pfx) (rd ra rb : Reg) (_scope : BitVec 2) (s : State) : Out := atomicOp 1 4 p rd ra rb s

/-- AMAX on 4 bytes (09 R217). -/
def execAmaxW32 (p : Option Pfx) (rd ra rb : Reg) (_scope : BitVec 2) (s : State) : Out := atomicOp 2 4 p rd ra rb s

/-- AMINN on 4 bytes (09 R217). -/
def execAminnW32 (p : Option Pfx) (rd ra rb : Reg) (_scope : BitVec 2) (s : State) : Out := atomicOp 3 4 p rd ra rb s

/-- AMAXN on 4 bytes (09 R217). -/
def execAmaxnW32 (p : Option Pfx) (rd ra rb : Reg) (_scope : BitVec 2) (s : State) : Out := atomicOp 4 4 p rd ra rb s

/-- AAND on 4 bytes (09 R217). -/
def execAandW32 (p : Option Pfx) (rd ra rb : Reg) (_scope : BitVec 2) (s : State) : Out := atomicOp 5 4 p rd ra rb s

/-- AOR on 4 bytes (09 R217). -/
def execAorW32 (p : Option Pfx) (rd ra rb : Reg) (_scope : BitVec 2) (s : State) : Out := atomicOp 6 4 p rd ra rb s

/-- AXOR on 4 bytes (09 R217). -/
def execAxorW32 (p : Option Pfx) (rd ra rb : Reg) (_scope : BitVec 2) (s : State) : Out := atomicOp 7 4 p rd ra rb s

/-- AXCHG on 4 bytes (09 R217). -/
def execAxchgW32 (p : Option Pfx) (rd ra rb : Reg) (_scope : BitVec 2) (s : State) : Out := atomicOp 8 4 p rd ra rb s

/-- ACAS on 4 bytes (09 R217). -/
def execAcasW32 (p : Option Pfx) (rd ra rb : Reg) (_scope : BitVec 2) (s : State) : Out := atomicOp 9 4 p rd ra rb s

/-- AINCW on 4 bytes (09 R217). -/
def execAincwW32 (p : Option Pfx) (rd ra rb : Reg) (_scope : BitVec 2) (s : State) : Out := atomicOp 11 4 p rd ra rb s

/-- AFADD on 4 bytes (09 R217). -/
def execAfaddW32 (p : Option Pfx) (rd ra rb : Reg) (_scope : BitVec 2) (s : State) : Out := atomicOp 12 4 p rd ra rb s

/-- AFMIN on 4 bytes (09 R217). -/
def execAfminW32 (p : Option Pfx) (rd ra rb : Reg) (_scope : BitVec 2) (s : State) : Out := atomicOp 13 4 p rd ra rb s

/-- AFMAX on 4 bytes (09 R217). -/
def execAfmaxW32 (p : Option Pfx) (rd ra rb : Reg) (_scope : BitVec 2) (s : State) : Out := atomicOp 14 4 p rd ra rb s

/-! ## ACASK -/

/-- What the descriptor check finds. -/
inductive CmsnCheck where
  | valid | invalid
  /-- The host has been asked; seq is none while the request ring is full. -/
  | waits (seq : Option Nat)
  | fault (f : AccFault)
deriving DecidableEq, Repr

/-- The commission table entry a descriptor names: the KPB's address, if the entry is valid (14 R297). -/
def cmsnEntry (s : State) (b : Block) (desc : Word) : Option Nat ⊕ AccFault :=
  match s.ctx? b.ctx with
  | none => .inl none
  | some c =>
    let i := desc.toNat % 65536
    if c.cmsnN ≤ i then .inl none
    else match peek s (ctxView b.part b.ctx) (c.cmsnTab.toNat + 16 * i) 16 with
      | .inr f => match f.kind with
        | .serviceable .. => .inr f
        | .program _ => .inl none
      | .inl bs =>
        let e := field bs 0 8
        if e % 2 ≠ 1 ∨ e / 2 % 32 ≠ 0 ∨ field bs 8 8 ≠ 0 then .inl none
        else
          let kpb := e / 64 * 64
          match kernelAt s b.part b.ctx kpb with
          | none => .inl none
          | some k => .inl (if k.n = 1 ∧ k.s = 0 ∧ k.cluster = 1 then some kpb else none)

/-- The descriptor check (09 R220). In host-assisted mode the host's verdict decides beside it (13 R280). -/
def cmsnCheck (h : Here) (va : Nat) (desc : Word) : CmsnCheck :=
  if inScratch va then .invalid
  else match cmsnEntry h.s h.b desc with
    | .inr f => .fault f
    | .inl none => .invalid
    | .inl (some _) =>
      if h.t.cmsn.isNone && !hostAssisted h.s h.b.part 6 then .valid
      else match h.t.cmsn with
        | some (_, some true) => .valid
        | some (_, some false) => .invalid
        | some (q, none) => .waits (some q)
        | none => .waits none

/-- The slices of a partition that are in cache mode and in service (04 R78). -/
def cacheSlices (s : State) (part : Nat) : List (Nat × Nat) :=
  (List.range Config.dies).flatMap fun d =>
    if (s.part part).cfg.dies.getLsbD d then
      ((List.range Config.slices).map fun n => (d, n)).filter fun x => !s.deadSlices.contains x && !s.atlSlices.contains x
    else []

/-- The home slice of a line of physical memory: one of the partition's cache slices; which one is free (log 7). -/
def homeOf (s : State) (part pa : Nat) : Nat × Nat :=
  let l := cacheSlices s part
  l.getD (Config.homeSlice (pa / 128) % l.length) (0, 0)

/-- The slice that performs an atomic at an address (04 R80): die and number. -/
def sliceAt (s : State) (v : View) (need : Need) (va : Nat) : Option (Nat × Nat) :=
  match locate s v need va with
  | .ok { place := .atelier i, .. } => some (i / 65536 / 1024, i / 65536 % 1024)
  | .ok { place := .phys pa, .. } => some (homeOf s v.part pa)
  | _ => none

def sliceOf (s : State) (b : Block) (va : Nat) : Nat × Nat := (sliceAt s b.view needRW va).getD (0, 0)

/-- Entries reserved in a slice's launch queue (14 R308). -/
def sliceLoad (s : State) (sl : Nat × Nat) : Nat :=
  (s.commissions.filter fun c => c.die == sl.1 && c.slice == sl.2).length

/-- The new value's write, made only with a reservation (05 R111 step 3). -/
def acaskNew (room : Bool) (q v old : Nat) : Option Nat := if old = q ∧ room then some v else none

/-- ACASK of n bytes (05 R111, 09 R220). -/
def acaskOp (n : Nat) (p : Pfx) (rd ra rb : Reg) (scope : BitVec 2) (s : State) : Out :=
  issue s { pfx := some p, srcs := [(rd, false), (ra, false), (rb, false), (p.rc, p.fec)], dsts := [rd] } fun h0 =>
    let va := (h0.t.readX ra).toNat
    let desc := h0.t.readX p.rc
    match cmsnCheck h0 va desc with
    | .invalid => { h0 with s := h0.put h0.s { h0.t with cmsn := none } }.trap 6 desc
    | .fault f => h0.fault f 1 16
    | .waits (some _) => h0.wait .dep
    | .waits none =>
      let (s, q) := postAssist h0.s h0.b.part 6 h0.b.ctx h0.b.bid (leBytes 8 desc.toNat)
      .next (h0.put s { h0.t with wait := .dep, cmsn := some (q, none) })
    | .valid =>
      let h := { h0 with t := { h0.t with cmsn := none } }
      let cut := fun (x : Word) => x.toNat % 2 ^ (8 * n)
      let q := cut (h.t.readX rd)
      let sl := sliceOf h.s h.b va
      let room := sliceLoad h.s sl < 16
      if va % n ≠ 0 then h.fault { kind := .program codeAlignment, addr := h.t.readX ra } 3 n
      else match windowFault h.s h.b.view va n with
        | some e => h.fault e 3 n
        | none =>
          if uncommitted h.b then h.trap 5 2
          else
            let fin := fun (s : State) (old status : Word) =>
              h.bounded true (h.oldValue rd (if n = 8 then 21 else 22) 10 (h.t.writeK p.mask (status.setWidth 8)) s old)
            match gateOf h with
            | .hold => h.holdAt
            | .replay r => fin (h.share h.s []) (r.headD 0) (r.getD 1 0)
            | .go =>
              match atomicAt h.s h.b.view va n (acaskNew room q (cut (h.t.readX rb))) with
              | .inr e => h.fault e 3 n
              | .inl (old, s1) =>
                let won := old = q ∧ room
                let status := bool64 !(old == q && !room)
                let oldW := BitVec.ofNat 64 old
                let s2 : State := if won then
                    { s1 with
                      nextId := s1.nextId + 1,
                      commissions := s1.commissions ++
                        [{ id := s1.nextId, kpb := (match cmsnEntry h.s h.b desc with
                             | .inl k => k.getD 0
                             | .inr _ => 0), part := h.b.part, ctx := h.b.ctx, die := sl.1, slice := sl.2, old := oldW,
                           info := { addr := h.t.readX ra, desc := desc, grid := h.b.grid, blk := h.b.idx },
                           scope := scope.toNat, launch := h.b.launch,
                           pid := ((s1.launches.find? fun l => l.lid == h.b.launch).bind (·.pid)) }] }
                  else s1
                fin (h.share s2 [oldW, status]) oldW status

/-- ACASK on 8 bytes. -/
def execAcask (p : Pfx) (rd ra rb : Reg) (scope : BitVec 2) (s : State) : Out := acaskOp 8 p rd ra rb scope s

/-- ACASK on 4 bytes. -/
def execAcaskW32 (p : Pfx) (rd ra rb : Reg) (scope : BitVec 2) (s : State) : Out := acaskOp 4 p rd ra rb scope s

end Sys2Proof.Machine
end

