-- ==== Sys2Proof/Machine/Engines.lean ====
section
/-! DEFINITION. The asynchronous engines: the issue and the transfers of TILELD, TILEST, COPY and GATHER, and WAITC
(04 R82 to R84, 05 R103 to R105, 09 R208 to R215). -/

namespace Sys2Proof.Machine

/-! ## Ranges (04 R82) -/

/-- Is every byte of a range assigned by the window rules (04 R71)? -/
def spanOk (s : State) (v : View) (a n : Nat) : Bool :=
  if n = 0 then true
  else match regionOf a with
    | .global => decide (a + n ≤ 2 ^ 56)
    | .nothing => false
    | .scratchWindow off =>
      match v.bid with
      | none => false
      | some b => off / 2 ^ 24 == (off + n - 1) / 2 ^ 24 && (scratchPlace s b (off + n - 1)).isSome
    | .atelierWindow off =>
      let p0 := off / 65536
      let p1 := (off + n - 1) / 65536
      decide (p1 < 8192) && (List.range (p1 - p0 + 1)).all fun i => (atelierPlace s v.ctx ((p0 + i) * 65536)).isSome

/-- Does a range begin in a scratchpad window? -/
def spanScratch (a : Nat) : Bool := inScratch a

/-- Rows of n bytes: their addresses. -/
def rowAddrs (base stride h : Nat) : List Nat := (List.range h).map fun i => (base + i * stride) % 2 ^ 64

/-! ## What an operation reads and writes -/

/-- Element size of a transposing TILELD: 0 for a plain one (04 R84). -/
def tileElem (typ : Nat) : Nat := typ

/-- Rows and row length of a TILELD's destination. -/
def tileDst (len h typ : Nat) : Nat × Nat :=
  if typ = 0 then (h, len) else (len / tileElem typ, h * tileElem typ)

/-- Destination rows of an operation, as addresses, with their length. -/
def dstRows : EngKind → List Nat × Nat
  | .tileld _ dst _ ds len h typ => (rowAddrs dst.toNat ds (tileDst len h typ).1, (tileDst len h typ).2)
  | .tilest _ dst _ ds len h => (rowAddrs dst.toNat ds h, len)
  | .copy _ dst len => ([dst.toNat], len)
  | .gather _ _ dst count size => ([dst.toNat], count * size)
  | .astore _ f64 addr stride => (rowAddrs addr.toNat stride.toNat (if f64 then 8 else 16), 64)
  | _ => ([], 0)

/-- Source rows, as far as they are known at issue: a GATHER's elements are met during the transfer. -/
def srcRows : EngKind → List Nat × Nat
  | .tileld src _ ss _ len h _ => (rowAddrs src.toNat ss h, len)
  | .tilest src _ ss _ len h => (rowAddrs src.toNat ss h, len)
  | .copy src _ len => ([src.toNat], len)
  | .gather list _ _ count _ => ([list.toNat], 4 * count)
  | _ => ([], 0)

/-- The window and region check at issue (04 R82, 09 R211). -/
def engOk (s : State) (v : View) (k : EngKind) : Bool :=
  let sides := match k with
    | .tileld src dst .. => !spanScratch src.toNat && spanScratch dst.toNat
    | .tilest src dst .. => spanScratch src.toNat && !spanScratch dst.toNat
    | _ => true
  let (ds, dn) := dstRows k
  let (ss, sn) := srcRows k
  sides && (ds.all fun a => spanOk s v a dn) && (ss.all fun a => spanOk s v a sn)

/-- Does the operation write outside scratchpad (05 R105)? -/
def writesOut (k : EngKind) : Bool :=
  let (ds, dn) := dstRows k
  dn != 0 && ds.any fun a => !spanScratch a

/-- May the operation be issued inside a restart region (05 R105, 01 R32)? -/
def regionEngOk (b : Block) (k : EngKind) : Bool :=
  let (ds, dn) := dstRows k
  dn == 0 || ds.all fun a => regionStoreOk b a dn

/-! ## Issue (09 R209, R210) -/

/-- A team's counter. -/
def Team.count (tm : Team) (cls : Nat) : Nat := tm.ctr[cls % 4]'(Nat.mod_lt _ (by decide))

def Team.setCount (tm : Team) (cls n : Nat) : Team := { tm with ctr := tm.ctr.set (cls % 4) n (Nat.mod_lt _ (by decide)) }

/-- The binding an operation takes from its guard at issue (09 R210, 10 R241). -/
def bindGuard (tm : Team) (p : Option Pfx) : Binding :=
  match p with
  | some q =>
    if q.sk then
      let g := tm.guards[q.guard.toNat]'(q.guard.isLt)
      match g.state with
      | .false => .discard
      | .pending => .episode q.guard.toNat g.episode
      | _ => .go
    else .go
  | none => .go

/-- The guard slot a prefix names. -/
def guardSlot (p : Option Pfx) : Option Nat := p.bind fun q => if q.sk then some q.guard.toNat else none

/-- The result an operation has at its issue: that of a failed check, or of the primary's operation where it is over. -/
def knownResult (b : Block) (k : EngKind) (res : Option Word) : Option Word :=
  match k with
  | .twin n => (b.opDone.find? fun x => x.1 == n).map (·.2)
  | _ => res

/-- The operation enters its class's queue: the counter rises, the token is emptied (05 R103). -/
def Here.submit (h : Here) (s : State) (tm : Team) (p : Option Pfx) (rd : Reg) (cls : Nat) (k : EngKind)
    (res : Option Word) (desc : OpDesc) : Out :=
  let op : EngOp := { id := s.nextId, bid := h.b.bid, ctx := h.b.ctx, slot := h.t.slot, tid := h.t.tid, cls := cls, kind := k,
                      tok := h.t.dstY rd, binding := bindGuard tm p, guard := guardSlot p, progress := 0, xlat := [],
                      after := true, result := knownResult h.b k res,
                      orphan := false, due := s.cycle + Config.latEngine, desc := desc }
  let s : State := { s with nextId := s.nextId + 1, ops := s.ops ++ [op] }
  h.done (s.onBlock h.b.bid fun b => b.setTeam (tm.setCount cls (tm.count cls + 1))) (h.t.emptyX rd)

/-- Waits of an operation at its issue: its token's register is empty, or its class's counter is full (09 R209). -/
def engineWaits (h : Here) (tm : Team) (rd : Reg) (cls : Nat) : Bool := !h.t.xFull rd || decide (255 ≤ tm.count cls)

/-- An engine operation's issue: the operands, their limits, then the waits for the token's register and the counter
(09 R209). mk makes the operation of its operand values, or finds a limit broken. In a restart region a destination in the own
scratchpad outside the staging ranges traps too, with action 6 and before the window check that gives −2 (DESIGN CHOICE,
log 91). -/
def engineIssue (p : Option Pfx) (rd ra : Reg) (n cls fn qual : Nat) (mk : List Word → Option EngKind) (s : State) : Out :=
  let nums := (List.range n).map (regPlus ra)
  issue s { pfx := p, more := rd.toNat :: nums } fun h =>
    if !(nums.all h.t.nFull) then h.wait (numsWait h nums)
    else match h.b.team? h.t.slot with
      | none => h.wait .dep
      | some tm =>
        let vals := nums.map h.t.readN
        match mk vals with
        | none => h.fault { kind := .program codeOperand, addr := vals.headD 0 } 4 0
        | some k =>
          if engineWaits h tm rd cls then h.wait (emptyWait h { dsts := [rd] })
          else
            let desc : OpDesc := { major := 20, fn := fn, qual := qual, rm := rmAt p h.t, operands := vals }
            if uncommitted h.b && !regionEngOk h.b k then h.trap 5 6
            else if !engOk h.s h.b.view k then h.submit h.s tm p rd cls k (some (BitVec.ofInt 64 (-2))) desc
            else if twinned h.b && writesOut k then
              match gateOf h with
              | .hold => h.holdAt
              | .replay r =>
                h.bounded true (h.submit (h.share h.s []) tm p rd cls (.twin (r.headD 0).toNat) none desc)
              | .go => h.bounded true (h.submit (h.share h.s [BitVec.ofNat 64 h.s.nextId]) tm p rd cls k none desc)
            else h.bounded (writesOut k) (h.submit h.s tm p rd cls k none desc)

/-- Limits of 09 R211 on strides, row length and rows. -/
def tileLimits (len h ss ds typ : Nat) : Bool :=
  let e := tileElem typ
  let w := if e = 0 then 1 else len / e
  let (rows, rlen) := tileDst len h typ
  decide (1 ≤ len) && decide (len ≤ 16777216) && decide (1 ≤ h) && decide (h ≤ 65536) && decide (len * h ≤ 2 ^ 32)
  && (e == 0 || (len % e == 0 && decide (h ≤ 256) && decide (1 ≤ w) && decide (w ≤ 256)))
  && (decide (h ≤ 1) || decide (len ≤ ss)) && (decide (rows ≤ 1) || decide (rlen ≤ ds))

def lo32 (v : Word) : Nat := v.toNat % 2 ^ 32

def hi32 (v : Word) : Nat := v.toNat / 2 ^ 32

/-- TILELD (09 R211). -/
def execTileld (p : Option Pfx) (rd ra : Reg) (typ : BitVec 2) (s : State) : Out :=
  engineIssue p rd ra 4 0 0 typ.toNat (fun
    | [src, dst, st, sz] =>
      if tileLimits (lo32 sz) (hi32 sz) (lo32 st) (hi32 st) typ.toNat then
        some (.tileld src dst (lo32 st) (hi32 st) (lo32 sz) (hi32 sz) typ.toNat)
      else none
    | _ => none) s

/-- TILEST (09 R211). -/
def execTilest (p : Option Pfx) (rd ra : Reg) (s : State) : Out :=
  engineIssue p rd ra 4 0 1 0 (fun
    | [src, dst, st, sz] =>
      if tileLimits (lo32 sz) (hi32 sz) (lo32 st) (hi32 st) 0 then
        some (.tilest src dst (lo32 st) (hi32 st) (lo32 sz) (hi32 sz))
      else none
    | _ => none) s

/-- COPY (09 R212). -/
def execCopy (p : Option Pfx) (rd ra : Reg) (s : State) : Out :=
  engineIssue p rd ra 3 0 2 0 (fun
    | [src, dst, len] => if len.toNat ≤ 2 ^ 40 then some (.copy src dst len.toNat) else none
    | _ => none) s

/-- GATHER (09 R213). -/
def execGather (p : Option Pfx) (rd ra : Reg) (width : BitVec 2) (s : State) : Out :=
  engineIssue p rd ra 4 2 3 width.toNat (fun
    | [list, base, dst, cnt] =>
      if list.toNat % 4 = 0 ∧ hi32 cnt = 0 ∧ lo32 cnt ≤ 16777216 then
        some (.gather list base dst (lo32 cnt) (2 ^ width.toNat))
      else none
    | _ => none) s

/-- WAITC (09 R215): n[6:0] lies in the rd field, n[7] in rb[2]. -/
def execWaitc (nlo : Reg) (nhi : Bool) (cls : BitVec 2) (s : State) : Out :=
  let n := nlo.toNat + if nhi then 128 else 0
  issue s {} fun h =>
    match h.b.team? h.t.slot with
    | none => h.done h.s h.t
    | some tm => if tm.count cls.toNat ≤ n then h.done h.s h.t else h.wait .engine

/-! ## Transfers -/

/-- How far a transfer came. -/
inductive EngEnd where
  /-- It ended with this token value. -/
  | ended (v : Word)
  /-- It waits at a progress for the service of a fault. -/
  | waits (progress : Nat) (f : AccFault)
  /-- A piece is done, and the transfer goes on from a progress. -/
  | more (progress : Nat)
deriving DecidableEq, Repr

/-- The token of an operation that a fault ends (15 R321, 17 R353, 02 R47). -/
def faultToken (f : AccFault) : Word :=
  match f.kind with
  | .program c => if c = codeWalk ∨ c = codeData then BitVec.ofInt 64 (-3) else BitVec.ofInt 64 (-2)
  | .serviceable .. => BitVec.ofInt 64 (-2)

/-- A piece that meets a fault: one that can be served leaves the piece undone. -/
def pieceFault (v : View) (s0 s1 : State) (progress : Nat) (f : AccFault) : State × EngEnd :=
  match f.kind with
  | .serviceable .. => (s0, .waits progress f)
  | .program _ => (consume s1 v f, .ended (faultToken f))

/-- Where a transfer stands at a progress out of a total: at its end with its token's value, or at the end of a piece. -/
def standsAt (total progress bytes : Nat) : EngEnd :=
  if total ≤ progress then .ended (BitVec.ofNat 64 bytes) else .more progress

/-- Bytes of one burst (09 R209). -/
def burstBytes : Nat := 16384

/-- One burst: its whole source is read before any byte is written (09 R209). -/
def burst (s : State) (v : View) (src dst n : Nat) : State × Option AccFault :=
  match loadBytes s v src n with
  | .inr f => (s, some f)
  | .inl (bs, s') => storeBytes s' v dst bs

/-- A part of a burst: from which tile byte on, to which address, how many bytes of one destination row. -/
structure TilePart where
  pr : Nat
  dst : Nat
  n : Nat
deriving DecidableEq, Repr

/-- Later rows, at most so many, as far as they lie in an aligned 8-byte unit of the destination: an element is written in one
burst, so that it never holds a part of the engine's value (04 R83). -/
def tileTail (len total dst ds unit : Nat) : Nat → Nat → List TilePart
  | 0, _ => []
  | k + 1, pr =>
    let a := dst + pr / len * ds
    if total ≤ pr ∨ a / 8 ≠ unit then []
    else
      let n := min len (8 - a % 8)
      { pr := pr, dst := a, n := n } :: if n < len then [] else tileTail len total dst ds unit k (pr + n)

/-- The burst from a tile byte on: the rest of its destination row, or what room a burst has, up to the end of an aligned 8-byte
unit, with the later rows that share that unit. -/
def tileBurst (len h dst ds pr : Nat) : List TilePart :=
  let o := pr % len
  let a := dst + pr / len * ds + o
  let room := burstBytes - 64
  let n := if len - o ≤ room then len - o else room - a % 8
  { pr := pr, dst := a, n := n } ::
    if n < len - o then [] else tileTail len (len * h) dst ds ((a + n - 1) / 8) 8 (pr + n)

/-- Elements src[0..n-1] of a column, stride bytes apart. -/
def gatherColumn (s : State) (v : View) (a stride e : Nat) : Nat → List Byte × State × Option AccFault
  | 0 => ([], s, none)
  | n + 1 =>
    match loadBytes s v a e with
    | .inr f => ([], s, some f)
    | .inl (bs, s') =>
      let (rest, s'', f) := gatherColumn s' v (a + stride) stride e n
      (bs ++ rest, s'', f)

/-- The source of part of a destination row of len bytes: its row of the source, or with e ≠ 0, transposing elements of e bytes,
its column (04 R84). -/
def tileSource (s : State) (v : View) (src ss len e : Nat) (x : TilePart) : List Byte × State × Option AccFault :=
  let i := x.pr / len
  let o := x.pr % len
  if e = 0 then match loadBytes s v (src + i * ss + o) x.n with
    | .inr f => ([], s, some f)
    | .inl (bs, s') => (bs, s', none)
  else
    let (bs, s', f) := gatherColumn s v (src + i * e + o / e * ss) ss e ((o + x.n - 1) / e - o / e + 1)
    ((bs.drop (o % e)).take x.n, s', f)

/-- The whole source of a burst, read before any byte is written (09 R209). -/
def burstSource (v : View) (src ss len e : Nat) : List TilePart → State → List (Nat × List Byte) × State × Option AccFault
  | [], s => ([], s, none)
  | x :: rest, s =>
    match tileSource s v src ss len e x with
    | (_, s', some f) => ([], s', some f)
    | (bs, s', none) =>
      let (ws, s'', f) := burstSource v src ss len e rest s'
      ((x.dst, bs) :: ws, s'', f)

/-- What a burst writes, in ascending tile order. -/
def burstWrites (v : View) : List (Nat × List Byte) → State → State × Option AccFault
  | [], s => (s, none)
  | w :: rest, s => match storeBytes s v w.1 w.2 with
    | (s', some f) => (s', some f)
    | (s', none) => burstWrites v rest s'

/-- Bursts of a tile of h destination rows of len bytes from byte progress on; fuel bounds the bursts. -/
def moveTile (v : View) (src dst ss ds len h e : Nat) : Nat → Nat → State → State × EngEnd
  | 0, pr, s => (s, standsAt (len * h) pr (len * h))
  | k + 1, pr, s =>
    if len * h ≤ pr then (s, .ended (BitVec.ofNat 64 (len * h)))
    else
      let xs := tileBurst len h dst ds pr
      match burstSource v src ss len e xs s with
      | (_, s', some f) => pieceFault v s s' pr f
      | (ws, s', none) =>
        match burstWrites v ws s' with
        | (s'', some f) => pieceFault v s s'' pr f
        | (s'', none) => moveTile v src dst ss ds len h e k (pr + (xs.map (·.n)).sum) s''

/-- Do a COPY's bursts run from the top down (09 R209, R212)? The ranges are compared as virtual addresses: the same bytes under
two addresses are not seen as overlapping (DESIGN CHOICE, log 92). -/
def copyDown (src dst len : Nat) : Bool := decide (src < dst) && decide (dst < src + len)

/-- Where the next burst of a COPY lies, as offset and size: its far end is the range's end, or that of an aligned 8-byte unit of
the destination (04 R83). -/
def copyBurst (src dst len pr : Nat) : Nat × Nat :=
  if copyDown src dst len then
    let c := min (len - pr) (burstBytes - (8 - (dst + len - pr) % 8) % 8)
    (len - pr - c, c)
  else (pr, min (len - pr) (burstBytes - (dst + pr) % 8))

/-- A COPY's bursts from byte progress on. -/
def moveCopy (v : View) (src dst len : Nat) : Nat → Nat → State → State × EngEnd
  | 0, pr, s => (s, standsAt len pr len)
  | k + 1, pr, s =>
    if len ≤ pr then (s, .ended (BitVec.ofNat 64 len))
    else
      let (o, c) := copyBurst src dst len pr
      match burst s v (src + o) (dst + o) c with
      | (s', some f) => pieceFault v s s' pr f
      | (s', none) => moveCopy v src dst len k (pr + c) s'

/-- Destination bytes of a GATHER that stand written once i elements are done: none of an aligned 8-byte unit that has more to
come (04 R83). -/
def gatherAt (dst count e i : Nat) : Nat := if count ≤ i then count * e else (dst + i * e) / 8 * 8 - dst

/-- Elements of a GATHER's next step: those of one aligned 8-byte unit of the destination, where elements are aligned in it. -/
def gatherStep (dst count e i : Nat) : Nat := min (count - i) (if dst % e = 0 then (8 - (dst + i * e) % 8) / e else 1)

/-- Elements i to i + n - 1 of a GATHER's list; on a fault, those before it. -/
def gatherElems (s : State) (v : View) (list base e : Nat) : Nat → Nat → List Byte × State × Option AccFault
  | 0, _ => ([], s, none)
  | n + 1, i =>
    match loadBytes s v (list + 4 * i) 4 with
    | .inr f => ([], s, some f)
    | .inl (ix, s1) =>
      match loadBytes s1 v ((base + leNat ix * e) % 2 ^ 64) e with
      | .inr f => ([], s1, some f)
      | .inl (bs, s2) =>
        let (rest, s3, f) := gatherElems s2 v list base e n (i + 1)
        (bs ++ rest, s3, f)

/-- A GATHER's elements from element i on (09 R213), an aligned unit of the destination at a time; what a unit lacked is read
with it. -/
def moveGather (v : View) (list base dst count e : Nat) : Nat → Nat → State → State × EngEnd
  | 0, i, s => (s, standsAt count i (count * e))
  | k + 1, i, s =>
    if count ≤ i then (s, .ended (BitVec.ofNat 64 (count * e)))
    else
      let n := gatherStep dst count e i
      let lo := gatherAt dst count e i
      let first := lo / e
      let (bs, s1, f) := gatherElems s v list base e (i + n - first) first
      let put := fun (hi : Nat) => storeBytes s1 v ((dst + lo) % 2 ^ 64) ((bs.drop (lo % e)).take (hi - lo))
      match f with
      | some f => pieceFault v s (put (first * e + bs.length)).1 i f
      | none => match put (gatherAt dst count e (i + n)) with
        | (s2, some f) => pieceFault v s s2 i f
        | (s2, none) => moveGather v list base dst count e k (i + n) s2

/-- Steps of a transfer that make one piece of at most 1 MiB of destination (17 R363), of all that it has. -/
def pieceSteps (piece : Bool) (most all : Nat) : Nat := if piece then min most all else all

/-- The transfer of a COPY-class operation or a GATHER from its recorded progress, one piece of it where piece is set. It reads
memory as it stands: in redundant mode without the stores that the block still holds, for 05 R110 lets only the block's threads read them, while R103 puts them
before the operation (DESIGN CHOICE, log 73). -/
def transfer (s : State) (v : View) (k : EngKind) (progress : Nat) (piece : Bool) : State × EngEnd :=
  match k with
  | .tileld src dst ss ds len h typ =>
    let (rows, row) := tileDst len h typ
    moveTile v src.toNat dst.toNat ss ds row rows (if typ = 0 then 0 else tileElem typ)
      (pieceSteps piece 64 (rows * (row / (burstBytes - 64) + 2) + 1)) progress s
  | .tilest src dst ss ds len h =>
    moveTile v src.toNat dst.toNat ss ds len h 0 (pieceSteps piece 64 (h * (len / (burstBytes - 64) + 2) + 1)) progress s
  | .copy src dst len => moveCopy v src.toNat dst.toNat len (pieceSteps piece 64 (len / burstBytes + 2)) progress s
  | .gather list base dst count e => moveGather v list.toNat base.toNat dst.toNat count e (pieceSteps piece 131072 (count + 1)) progress s
  | _ => (s, .ended 0)

/-! ## Bytes that outlive a rollback (05 R109, 17 R356) -/

/-- Images of a block, the latest ones where flagged, with a change of their scratchpad; r counts the later images. -/
def patchPents (flags : List Bool) (bid : Nat) (f : Cells → Cells) : List Pentimento → List Pentimento × Nat
  | [] => ([], 0)
  | p :: rest =>
    let (ps, r) := patchPents flags bid f rest
    if p.bid = bid then
      ((if flags.getD r false then { p with image := { p.image with scratch := f p.image.scratch } } else p) :: ps, r + 1)
    else (p :: ps, r)

/-- n bytes at va that an operation has written into a scratchpad stay the operation's in every image and restart snapshot
taken after its issue. The images of a cluster are common, so a peer's are told by the issuing block's. -/
def keepRow (s : State) (b : Block) (o : EngOp) (va n : Nat) : State :=
  match regionOf va with
  | .scratchWindow off =>
    match scratchPlace s b.bid off with
    | none => s
    | some (x, a) =>
      match s.block? x with
      | none => s
      | some now =>
        let put := fun (c : Cells) => cellsPut c a (cellsBytes now.scratch a n)
        let flags := ((s.pents.filter fun p => p.bid == o.bid).map fun p => p.ops.any fun y => y.id == o.id).reverse
        let s : State := { s with pents := (patchPents flags x put s.pents).1 }
        if x = o.bid ∧ !o.after then
          s.onBlock x fun y => { y with snap := y.snap.map fun sn => { sn with scratch := put sn.scratch } }
        else s
  | _ => s

end Sys2Proof.Machine
end

