-- ==== Sys2Proof/Machine/Matrix.lean ====
section
/-! DEFINITION. The matrix unit (10 R225 to R242, 03 R65 to R69): tiles and handles, convergence registers and MMA, the
MATRIX-H instructions, ACOMMIT, and the guards with their sketch shadows. -/

namespace Sys2Proof.Machine

/-! ## Tiles (10 R225) -/

/-- A tile of zeros. -/
def zeroTile : List Word := List.replicate 128 0

/-- Element (i, j) of a tile in its binary64 or binary32 view. -/
def tileGet (f64 : Bool) (t : List Word) (i j : Nat) : Nat :=
  if f64 then (t.getD (8 * i + j) 0).toNat
  else (t.getD (8 * i + j / 2) 0).toNat / 2 ^ (32 * (j % 2)) % 2 ^ 32

/-- The 8 dwords of a row of element codes. -/
def packRow (f64 : Bool) (cs : List Nat) : List Word :=
  if f64 then (List.range 8).map fun j => BitVec.ofNat 64 (cs.getD j 0)
  else (List.range 8).map fun u => BitVec.ofNat 64 (cs.getD (2 * u) 0 % 2 ^ 32 + cs.getD (2 * u + 1) 0 % 2 ^ 32 * 2 ^ 32)

/-- A tile with row i replaced. -/
def setRow (t : List Word) (i : Nat) (row : List Word) : List Word := t.take (8 * i) ++ row ++ t.drop (8 * i + 8)

/-! ## Handles (10 R226) -/

def Block.handle (b : Block) (n : Nat) : Handle := b.handles[n % 64]'(Nat.mod_lt _ (by decide))

def Block.setHandle (b : Block) (n : Nat) (x : Handle) : Block :=
  { b with handles := b.handles.set (n % 64) x (Nat.mod_lt _ (by decide)) }

/-- The state word of a handle. -/
def handleWord (x : Handle) : Word :=
  BitVec.ofNat 64 (x.map + (if x.unc then 4 else 0) + (if x.skp then 8 else 0))

/-- Tiles of the block's reservation in use: mapped handles and pending shadows (10 R235). -/
def tilesUsed (b : Block) : Nat := (b.handles.toList.filter fun x => x.map != 2).length + b.shadows.length

/-! ## Elements of an MMA (03 R65 to R68) -/

/-- One accumulator element after an MMA: its row of A, its column of B, and its value before. -/
def mmaElem (fmt : Nat) (as bs : List Nat) (c : Nat) : Nat :=
  let f := Fmt.ofCode fmt
  let acc : Fmt := if fmt = 0 then .f64 else .f32
  let pairs := (as.map (decodeNum f)).zip (bs.map (decodeNum f))
  let cN := decodeNum acc c
  let terms := (pairs.map fun p => (mulNum p.1 p.2).1) ++ [cN]
  let isInf := fun (neg : Bool) => terms.any fun t => t == .inf neg
  if (terms.any Num.isNaN) || (isInf true && isInf false) then acc.canonNaN
  else if isInf true then (roundTo acc .rne false (.inf true)).1
  else if isInf false then (roundTo acc .rne false (.inf false)).1
  else if fmt = 0 then
    pairs.foldl (fun x p => (roundTo acc .rne false (fmaNum .rne p.1 p.2 (decodeNum acc x)).1).1) c
  else if fmt ≤ 3 then (roundTo acc .rne false (windowSum terms)).1
  else (roundTo acc .rne false (exactSum terms)).1

/-- Shapes m, n, k and element bytes (10 R232). -/
def mmaShape (fmt : Nat) : Nat × Nat × Nat × Nat :=
  match fmt with
  | 0 => (8, 8, 8, 8)
  | 1 => (16, 16, 4, 4)
  | 2 => (16, 16, 16, 2)
  | 3 => (16, 16, 16, 2)
  | _ => (16, 16, 32, 1)

/-- Word i of an MMA's operand register pairs: pA, sA, pB, sB. -/
def pairAt (pairs : List Word) (i : Nat) : Word := pairs.getD i 0

/-- Bit 63 of a second register: column-major. -/
def colMajor (st : Word) : Bool := st.getLsbD 63

/-- Address of A(i, kk) (10 R232). -/
def addrA (pairs : List Word) (es i kk : Nat) : Nat :=
  let p := (pairAt pairs 0).toNat
  let st := lo32 (pairAt pairs 1)
  if colMajor (pairAt pairs 1) then (p + kk * st + i * es) % 2 ^ 64 else (p + i * st + kk * es) % 2 ^ 64

/-- Address of B(kk, j) (10 R232). -/
def addrB (pairs : List Word) (es kk j : Nat) : Nat :=
  let p := (pairAt pairs 2).toNat
  let st := lo32 (pairAt pairs 3)
  if colMajor (pairAt pairs 3) then (p + j * st + kk * es) % 2 ^ 64 else (p + kk * st + j * es) % 2 ^ 64

/-- Elements of es bytes at addresses, or the fault of the first that meets one. -/
def loadElems (s : State) (v : View) (es : Nat) : List Nat → (List Nat × State) ⊕ AccFault
  | [] => .inl ([], s)
  | a :: rest =>
    match loadAt s v a es with
    | .inr f => .inr f
    | .inl (x, s') =>
      match loadElems s' v es rest with
      | .inr f => .inr f
      | .inl (xs, s'') => .inl (x :: xs, s'')

/-- Rows of an MMA from row i on; gives the tile, the rows done, and a fault. Fuel bounds the rows. -/
def mmaRows (v : View) (fmt : Nat) (pairs : List Word) (bm : List Nat) :
    Nat → Nat → List Word → State → List Word × Nat × State × Option AccFault
  | 0, i, t, s => (t, i, s, none)
  | fuel + 1, i, t, s =>
    let (m, n, k, es) := mmaShape fmt
    if m ≤ i then (t, i, s, none)
    else
      match loadElems s v es ((List.range k).map fun kk => addrA pairs es i kk) with
      | .inr f => (t, i, s, some f)
      | .inl (as, s') =>
        let row := (List.range n).map fun j =>
          mmaElem fmt as ((List.range k).map fun kk => bm.getD (kk * n + j) 0) (tileGet (fmt == 0) t i j)
        mmaRows v fmt pairs bm fuel (i + 1) (setRow t i (packRow (fmt == 0) row)) s'

/-- An MMA on a tile from its row progress on, for at most a number of rows (10 R233). -/
def mmaRun (s : State) (v : View) (fmt : Nat) (pairs : List Word) (progress rows : Nat) (t : List Word) :
    List Word × Nat × State × Option AccFault :=
  let (m, n, k, es) := mmaShape fmt
  match loadElems s v es ((List.range k).flatMap fun kk => (List.range n).map fun j => addrB pairs es kk j) with
  | .inr f => (t, progress, s, some f)
  | .inl (bm, s') => mmaRows v fmt pairs bm (min rows m) progress t s'

/-- Addresses of an MMA's operand elements in the order in which they are read: all of B, then A from a row on (10 R233). -/
def operandAddrs (fmt : Nat) (pairs : List Word) (row : Nat) : List Nat :=
  let (m, n, k, es) := mmaShape fmt
  ((List.range k).flatMap fun kk => (List.range n).map fun j => addrB pairs es kk j)
  ++ (List.range (m - row)).flatMap fun i => (List.range k).map fun kk => addrA pairs es (row + i) kk

/-! ## Handle order (10 R227) -/

def EngOp.isMatrix (o : EngOp) : Bool := o.cls == 1 || o.cls == 4

def handlesOf : EngKind → List Nat
  | .mma acc .. => [acc]
  | .aload h .. => [h]
  | .astore h .. => [h]
  | .scacc h part .. => [h, part]
  | .azero h => [h]
  | .amovr h .. => [h]
  | _ => []

/-- Matrix work not yet performed on a handle. -/
def pendingOn (s : State) (bid h : Nat) : List EngOp :=
  s.ops.filter fun o => o.bid == bid && o.isMatrix && o.result.isNone && (handlesOf o.kind).contains h

/-- Has every earlier instruction on the operation's handles been performed, and no shadow opened before it is pending,
unless it chains in that shadow (10 R242)? -/
def mayPerform (s : State) (b : Block) (o : EngOp) : Bool :=
  (handlesOf o.kind).all fun h =>
    !((pendingOn s b.bid h).any fun x => decide (x.id < o.id))
    && !(b.shadows.any fun x => x.handle == h && decide (x.born < o.id)
          && !(o.slot == x.slot && o.binding == .episode x.guard x.episode))

/-! ## Performing -/

/-- No instruction has more rows. -/
def allRows : Nat := 16

/-- What became of a piece of matrix work. -/
inductive MatEnd where
  | done
  /-- It goes on later, from a progress. -/
  | later (progress : Nat)
deriving DecidableEq, Repr

/-- An ordinary MMA on its tile, for at most a number of rows (10 R233, R234). -/
def performMma (s : State) (b : Block) (o : EngOp) (acc fmt : Nat) (pairs : List Word) (rows : Nat) : State × MatEnd :=
  let x := b.handle acc
  if x.map ≠ 0 then (s, .done)
  else
    let (t, pr, s', f) := mmaRun s { b.view with held := o.xlat } fmt pairs o.progress rows x.tile
    let put := fun (map : Nat) (unc : Bool) => s'.onBlock b.bid fun b =>
      b.setHandle acc { b.handle acc with tile := t, map := map, unc := unc }
    match f with
    | none => (put 0 true, if (mmaShape fmt).1 ≤ pr then .done else .later pr)
    | some f =>
      let unc := x.unc || decide (0 < pr)
      match f.kind with
      | .program _ => (consume (put 1 unc) b.view f, .done)
      | .serviceable level entry => (suspendFor (put 0 unc) b f.addr 4 level entry { mma := some o.id }, .later pr)

/-- Would a sketch MMA read bytes that it may not before its resolution (10 R242)? -/
def readsSO (s : State) (v : View) (fmt : Nat) (pairs : List Word) : Bool :=
  (operandAddrs fmt pairs 0).any fun a => pageSO s v a

/-- The shadow of a handle for an episode. -/
def shadowFor (b : Block) (acc slot g n : Nat) : Option Shadow :=
  b.shadows.find? fun x => x.handle == acc && x.slot == slot && x.guard == g && x.episode == n

def sameShadow (w x : Shadow) : Bool := x.handle == w.handle && x.slot == w.slot && x.guard == w.guard

/-- The block without a shadow; SKP falls when no shadow of the handle is left (10 R242). -/
def dropShadow (b : Block) (w : Shadow) : Block :=
  let rest := b.shadows.filter fun x => !sameShadow w x
  { b.setHandle w.handle { b.handle w.handle with skp := rest.any fun y => y.handle == w.handle } with shadows := rest }

/-- A sketch MMA performed into its shadow, unless it must wait for the resolution (10 R242). Its shadow takes the tile's
contents at its turn; on a handle that holds no tile, or after one that met a program fault, it has no effect (10 R233, R234). -/
def performSketch (s : State) (b : Block) (o : EngOp) (acc fmt g n : Nat) (pairs : List Word) : State × MatEnd :=
  match shadowFor b acc o.slot g n with
  | none => (s, .done)
  | some w =>
    if w.tile.isEmpty && (b.handle acc).map != 0 then (s.onBlock b.bid fun b => dropShadow b w, .done)
    else if w.fault.isSome then (s, .done)
    else
      let t0 := if w.tile.isEmpty then (b.handle acc).tile else w.tile
      let put := fun (w' : Shadow) => s.onBlock b.bid fun b =>
        { b with shadows := b.shadows.map fun x => if sameShadow w x then w' else x }
      let v : View := { b.view with held := o.xlat }
      if readsSO s v fmt pairs then (put { w with tile := t0 }, .later o.progress)
      else
        let (t, pr, _, f) := mmaRun s v fmt pairs o.progress allRows t0
        let as := operandAddrs fmt pairs o.progress
        let read := match f with
          | none => as
          | some f => as.takeWhile (· != f.addr.toNat)
        let w1 : Shadow := { w with tile := t, touched := (w.touched ++ pathsOf s v read).eraseDups }
        match f with
        | none => (put w1, .done)
        | some f =>
          match f.kind with
          | .program _ => (consume (put { w1 with fault := some f }) b.view f, .done)
          | .serviceable .. => (put w1, .later pr)

/-- Rows of 64 bytes of an ALOAD from row i on: the tile, the rows done, a fault. Fuel bounds the rows. -/
def loadRows (v : View) (addr stride r : Nat) : Nat → Nat → List Word → State → List Word × Nat × State × Option AccFault
  | 0, i, t, s => (t, i, s, none)
  | fuel + 1, i, t, s =>
    if r ≤ i then (t, i, s, none)
    else match loadBytes s v ((addr + i * stride) % 2 ^ 64) 64 with
      | .inr f => (t, i, s, some f)
      | .inl (bs, s') =>
        let row := (List.range 8).map fun u => BitVec.ofNat 64 (field bs (8 * u) 8)
        loadRows v addr stride r fuel (i + 1) (setRow t i row) s'

/-- The bytes of a tile's row. -/
def rowBytes (t : List Word) (i : Nat) : List Byte := (List.range 8).flatMap fun u => leBytes 8 (t.getD (8 * i + u) 0).toNat

/-- Rows of an ASTORE from row i on. -/
def storeRows (v : View) (addr stride r : Nat) (t : List Word) : Nat → Nat → State → Nat × State × Option AccFault
  | 0, i, s => (i, s, none)
  | fuel + 1, i, s =>
    if r ≤ i then (i, s, none)
    else match storeBytes s v ((addr + i * stride) % 2 ^ 64) (rowBytes t i) with
      | (s', some f) => (i, s', some f)
      | (s', none) => storeRows v addr stride r t fuel (i + 1) s'

/-- Rows that ALOAD and ASTORE move. -/
def rowCount (f64 : Bool) : Nat := if f64 then 8 else 16

/-- ALOAD's transfer, for at most a number of rows (10 R236). -/
def performAload (s : State) (b : Block) (o : EngOp) (n : Nat) (f64 : Bool) (addr stride : Word) (rows : Nat) :
    State × MatEnd :=
  let x := b.handle n
  if x.map = 2 then (s, .done)
  else
    let (t, pr, s', f) := loadRows b.view addr.toNat stride.toNat (rowCount f64) rows o.progress x.tile s
    let put := fun (map : Nat) (unc : Bool) =>
      s'.onBlock b.bid fun b => b.setHandle n { b.handle n with tile := t, map := map, unc := unc }
    let moved := x.unc || decide (0 < pr)
    match f with
    | none => if rowCount f64 ≤ pr then (put 0 true, .done) else (put x.map moved, .later pr)
    | some f => match f.kind with
      | .program _ => (consume (put 1 moved) b.view f, .done)
      | .serviceable level entry => (requestService (put x.map moved) b f.addr 4 level entry (.engine o.id) {}, .later pr)

/-- ASTORE's transfer, for at most a number of rows (10 R236). -/
def performAstore (s : State) (b : Block) (o : EngOp) (n : Nat) (f64 : Bool) (addr stride : Word) (rows : Nat) :
    State × MatEnd :=
  let x := b.handle n
  if x.map ≠ 0 then (s, .done)
  else match storeRows b.view addr.toNat stride.toNat (rowCount f64) x.tile rows o.progress s with
    | (pr, s', none) => (s', if rowCount f64 ≤ pr then .done else .later pr)
    | (pr, s', some f) => match f.kind with
      | .program _ => (consume (s'.onBlock b.bid fun b => b.setHandle n { b.handle n with map := 1 }) b.view f, .done)
      | .serviceable level entry => (requestService s' b f.addr 4 level entry (.engine o.id) {}, .later pr)

/-- SCACC's element (03 R69). -/
def scaleAcc (c p sa sb : Nat) : Nat :=
  let d := decodeNum .f32
  let q := (mulNum (mulNum (d p) (d sa)).1 (d sb)).1
  (roundTo .f32 .rne false (addNum .rne (d c) q).1).1

/-- SCACC (10 R237). -/
def performScacc (s : State) (b : Block) (o : EngOp) (n part : Nat) (sa sb : Word) : State × MatEnd :=
  let x := b.handle n
  let p := b.handle part
  if x.map ≠ 0 ∨ p.map ≠ 0 then (s, .done)
  else
    let bad := fun (f : AccFault) => match f.kind with
      | .program _ =>
        (consume (s.onBlock b.bid fun b => b.setHandle n { b.handle n with map := 1 }) b.view f, MatEnd.done)
      | .serviceable level entry => (requestService s b f.addr 4 level entry (.engine o.id) {}, MatEnd.later 0)
    let at4 := fun (a : Word) => (List.range 16).map fun i => (a.toNat + 4 * i) % 2 ^ 64
    match loadElems s b.view 4 (at4 sa) with
    | .inr f => bad f
    | .inl (rs, s1) =>
      match loadElems s1 b.view 4 (at4 sb) with
      | .inr f => bad f
      | .inl (cs, s2) =>
        let t := (List.range 16).flatMap fun i => packRow false ((List.range 16).map fun j =>
          scaleAcc (tileGet false x.tile i j) (tileGet false p.tile i j) (rs.getD i 0) (cs.getD j 0))
        (s2.onBlock b.bid fun b => b.setHandle n { b.handle n with tile := t, unc := true }, .done)

/-- AMOVR's value (10 R238). -/
def amovrVal (x : Handle) (sel : Word) : Word :=
  if sel.getLsbD 8 then handleWord x
  else if x.map ≠ 0 then 0
  else x.tile.getD (sel.toNat % 128) 0

/-- The matrix unit performs at most a number of rows of an operation whose turn has come. -/
def performRows (s : State) (b : Block) (o : EngOp) (rows : Nat) : State × MatEnd :=
  if o.void then (s, .done)
  else match o.binding with
  | .discard => (s, .done)
  | .episode g n => match o.kind with
    | .mma acc fmt pairs _ _ => performSketch s b o acc fmt g n pairs
    | _ => (s, .later o.progress)
  | .go => match o.kind with
    | .mma acc fmt pairs _ _ => performMma s b o acc fmt pairs rows
    | .aload n f64 addr stride => performAload s b o n f64 addr stride rows
    | .astore n f64 addr stride => performAstore s b o n f64 addr stride rows
    | .scacc n part sa sb => performScacc s b o n part sa sb
    | .azero n =>
      let x := b.handle n
      (if x.map = 2 then s
        else s.onBlock b.bid fun b => b.setHandle n { b.handle n with tile := zeroTile, map := 0, unc := true }, .done)
    | .amovr n sel pid =>
      ({ s with prods := s.prods.map fun p =>
          if p.id = pid then { p with val := amovrVal (b.handle n) sel, ready := true, due := s.cycle + Config.latSpecial }
          else p }, .done)
    | _ => (s, .done)

/-- The matrix unit performs an operation whose turn has come. -/
def performMatrix (s : State) (b : Block) (o : EngOp) : State × MatEnd := performRows s b o allRows

/-- One uncounted piece of work, if its turn has come. -/
def drainOne (s : State) (oid : Nat) : State :=
  match s.ops.find? fun o => o.id == oid with
  | none => s
  | some o =>
    match s.block? o.bid with
    | none => s
    | some b =>
      if !mayPerform s b o then s
      else match performMatrix s b o with
        | (s', .done) => { s' with ops := s'.ops.filter fun x => x.id != oid }
        | (s', .later pr) => { s' with ops := s'.ops.map fun x => if x.id = oid then { x with progress := pr } else x }

/-- Uncounted work of a block (AZERO, SCACC, AMOVR) is performed as soon as handle order lets it. -/
def drainMatrix (s : State) (bid : Nat) : State :=
  ((s.ops.filter fun o => o.bid == bid && o.cls == 4).map (·.id)).foldl drainOne s

/-! ## MATRIX-H -/

/-- Is the core an M-core (01 R21)? -/
def onMcore (h : Here) : Bool := h.b.kind == .mCore

/-- CVDECL (10 R229). -/
def execCvdecl (n : BitVec 4) (ra : Reg) (fea : Bool) (s : State) : Out :=
  issue s { srcs := [(ra, fea)], legal := onMcore } fun h =>
    let d : ConvDecl := if ra = 0 then .team else .group (h.t.readX ra)
    if h.b.conv[n.toNat]'(n.isLt) = d then h.done h.s h.t
    else if h.b.rounds.any fun r => r.cv == n.toNat then h.wait .dep
    else h.done (h.s.onBlock h.b.bid fun b => { b with conv := b.conv.set n.toNat d n.isLt }) h.t

/-- Work queued on a handle that is unmapped has no effect; an AMOVR among it delivers what the handle shows (10 R227,
R235). An operation under a pending guard still waits for its episode (10 R236). -/
def voidHandle (s : State) (b : Block) (n : Nat) : State :=
  let mine := fun (o : EngOp) => o.bid == b.bid && o.isMatrix && o.result.isNone && (handlesOf o.kind).contains n
  let vals := (s.ops.filter mine).filterMap fun o => match o.kind with
    | .amovr _ sel pid => some (pid, amovrVal (b.handle n) sel)
    | _ => none
  { s with
    ops := s.ops.map fun o =>
      if mine o then match o.binding with
        | .episode _ _ => { o with void := true }
        | _ => { o with binding := .discard }
      else o,
    prods := s.prods.map fun p => match vals.find? fun v => v.1 == p.id with
      | some v => { p with val := v.2, ready := true }
      | none => p }

/-- ACALLOC (10 R235). -/
def execAcalloc (n : BitVec 6) (s : State) : Out :=
  issue s { legal := onMcore } fun h =>
    if (h.b.handle n.toNat).map ≠ 2 then h.done h.s h.t
    else if h.b.kernel.acc ≤ tilesUsed h.b then h.trap 7 (n.zeroExtend 64)
    else
      h.done ((voidHandle h.s h.b n.toNat).onBlock h.b.bid fun b =>
        b.setHandle n.toNat { map := 0, unc := true, skp := false, tile := zeroTile }) h.t

/-- ACFREE (10 R235): the thread waits for the earlier instructions on the handle. -/
def execAcfree (n : BitVec 6) (s : State) : Out :=
  issue s { legal := onMcore } fun h =>
    let x := h.b.handle n.toNat
    if !(pendingOn h.s h.b.bid n.toNat).isEmpty || h.b.shadows.any fun w => w.handle == n.toNat then h.wait .dep
    else if x.map = 2 then h.done h.s h.t
    else
      let was := match h.b.snap with
        | some sn => (sn.handles[n.toNat]'(n.isLt)).map != 2
        | none => false
      h.done (h.s.onBlock h.b.bid fun b =>
        b.setHandle n.toNat { map := 2, unc := was, skp := false, tile := zeroTile }) h.t

/-- Work that no counter counts reaches the unit (10 R227). -/
def Here.reach (h : Here) (s : State) (t : Thread) (k : EngKind) (tok : Option Nat) (desc : OpDesc) : Out :=
  let op : EngOp := { id := s.nextId, bid := h.b.bid, ctx := h.b.ctx, slot := h.t.slot, tid := h.t.tid, cls := 4, kind := k,
                      tok := tok, binding := .go, progress := 0, xlat := [], after := true, result := none, orphan := false,
                      due := s.cycle, desc := desc }
  match h.done { s with nextId := s.nextId + 1, ops := s.ops ++ [op] } t with
  | .next s' => .next (drainMatrix s' h.b.bid)
  | x => x

/-- AZERO (10 R236). -/
def execAzero (n : BitVec 6) (s : State) : Out :=
  issue s { legal := onMcore } fun h =>
    h.reach h.s h.t (.azero n.toNat) none { major := 24, fn := 3, qual := 0, rm := rmAt none h.t, operands := [] }

/-- AMOVR (10 R238). -/
def execAmovr (rd : Reg) (n : BitVec 6) (rb : Reg) (feb : Bool) (s : State) : Out :=
  issue s { srcs := [(rb, feb)], dsts := [rd], legal := onMcore } fun h =>
    let p : Prod := { id := h.s.nextId, bid := h.b.bid, tid := h.t.tid, acc := false, y := h.t.dstY rd, val := 0,
                      poison := none, flags := 0, kind := .amovr, ready := false, due := h.s.cycle, desc := noDesc }
    h.reach { h.s with nextId := h.s.nextId + 1, prods := h.s.prods ++ [p] } (h.t.emptyX rd)
      (.amovr n.toNat (h.t.readX rb) p.id) (h.t.dstY rd)
      { major := 24, fn := 8, qual := rb.toNat, rm := rmAt none h.t, operands := [h.t.readX rb] }

/-- SCACC (10 R237): alignment and the window rules are checked at issue. -/
def execScacc (n : BitVec 6) (ra : Reg) (part : BitVec 6) (s : State) : Out :=
  issue s { srcs := [(ra, false)], more := [ra.toNat + 1], legal := onMcore } fun h =>
    if !h.t.nFull (ra.toNat + 1) then h.wait (numsWait h [ra.toNat + 1])
    else
      let sa := h.t.readX ra
      let sb := h.t.readN (ra.toNat + 1)
      let misaligned := fun (a : Word) => a.toNat % 4 != 0
      if misaligned sa then h.fault { kind := .program codeAlignment, addr := sa } 4 4
      else if misaligned sb then h.fault { kind := .program codeAlignment, addr := sb } 4 4
      else match windowFault h.s h.b.view sa.toNat 64, windowFault h.s h.b.view sb.toNat 64 with
        | some f, _ => h.fault f 4 4
        | none, some f => h.fault f 4 4
        | none, none => h.reach h.s h.t (.scacc n.toNat part.toNat sa sb) none
            { major := 24, fn := 7, qual := part.toNat, rm := rmAt none h.t, operands := [sa, sb] }

/-- The operand limits of ALOAD and ASTORE (10 R236). -/
def rowLimits (f64 : Bool) (addr stride : Word) : Bool :=
  let a := if f64 then 8 else 4
  addr.toNat % a == 0 && stride.toNat % a == 0 && decide (64 ≤ stride.toNat) && decide (stride.toNat < 2 ^ 32)

/-- ALOAD and ASTORE at issue. The alignment fault shows the address operand and 64 bytes, the size of a row, also where the
stride breaks its limits: the spec names no address (DESIGN CHOICE, log 33). -/
def moveIssue (p : Option Pfx) (fn : Nat) (f64 : Bool) (n : BitVec 6) (ra rb : Reg) (fea feb store : Bool) (s : State) :
    Out :=
  issue s { pfx := p, srcs := [(ra, fea), (rb, feb)], legal := onMcore } fun h =>
    let addr := h.t.readX ra
    let stride := h.t.readX rb
    match h.b.team? h.t.slot with
    | none => h.wait .dep
    | some tm =>
      if !rowLimits f64 addr stride then h.fault { kind := .program codeAlignment, addr := addr } 4 64
      else if 255 ≤ tm.count 1 then h.wait .dep
      else
        let k : EngKind := if store then .astore n.toNat f64 addr stride else .aload n.toNat f64 addr stride
        let desc : OpDesc := { major := 24, fn := fn, qual := rb.toNat, rm := rmAt p h.t,
                               operands := [addr, stride] }
        if store && uncommitted h.b && !regionEngOk h.b k then h.trap 5 6
        else if store && twinned h.b && writesOut k then
          match gateOf h with
          | .hold => h.holdAt
          | .replay r => h.bounded true (h.submit (h.share h.s []) tm p 0 1 (.twin (r.headD 0).toNat) none desc)
          | .go => h.bounded true (h.submit (h.share h.s [BitVec.ofNat 64 h.s.nextId]) tm p 0 1 k none desc)
        else h.bounded (store && writesOut k) (h.submit h.s tm p 0 1 k none desc)

/-- ALOAD (10 R236). -/
def execAload (p : Option Pfx) (f64 : Bool) (n : BitVec 6) (ra rb : Reg) (fea feb : Bool) (s : State) : Out :=
  moveIssue p 5 f64 n ra rb fea feb false s

/-- ASTORE (10 R236). -/
def execAstore (p : Option Pfx) (f64 : Bool) (n : BitVec 6) (ra rb : Reg) (fea feb : Bool) (s : State) : Out :=
  moveIssue p 6 f64 n ra rb fea feb true s

/-- ACOMMIT (10 R239): the thread arrives once its restart-live registers are full, then waits for the phase. A thread restored
in its wait gives its label operand again, which no canvas records (log 18). -/
def execAcommit (ra : Reg) (fea : Bool) (s : State) : Out :=
  issue s { srcs := [(ra, fea)], legal := fun h => onMcore h && !h.t.inHandler } fun h =>
    if h.t.barsWait then
      if !h.t.outst.contains .commit then h.done h.s { h.t with barsWait := false }
      else if h.b.commitVals.any fun v => v.1 == h.t.tid then h.wait .commit
      else
        let s := (h.put h.s { h.t with wait := .commit }).onBlock h.b.bid fun b =>
          { b with commitVals := b.commitVals ++ [(h.t.tid, h.t.readX ra)] }
        .next (afterArrival (tryPhase s h.b.bid .commit) h.b.bid h.t.tid .commit h.len)
    else if !liveFull h.t h.b.kernel.restartFirst h.b.kernel.restartCount then
      h.wait (numsWait h ((List.range h.b.kernel.restartCount).map (h.b.kernel.restartFirst + ·)))
    else
      let t : Thread := { h.t with barsWait := true, wait := .commit }
      let s := (h.put h.s t).onBlock h.b.bid fun b => { b with commitVals := b.commitVals ++ [(h.t.tid, h.t.readX ra)] }
      .next (afterArrival (arrive s h.b.bid h.t.tid .commit) h.b.bid h.t.tid .commit h.len)

/-! ## MMA (10 R230 to R234) -/

/-- The base word of an MMA. -/
def mmaWord (acc : BitVec 6) (cv : BitVec 4) (ra rb : Reg) (fmt : BitVec 3) : BitVec 32 :=
  ((encode (.mma none acc cv ra rb fmt)).getLast?).getD 0

/-- Members that have not exited, been killed or spawned away (10 R231). -/
def runningOf (b : Block) (members : List Nat) : List Nat :=
  members.filter fun m => b.threads.any fun t => t.tid == m && t.running

/-- The set of a convergence register for a thread, with its signing state's slot (10 R229); none when it is no member. -/
def convSet (b : Block) (t : Thread) : ConvDecl → Option (Option Nat × List Nat)
  | .undeclared => none
  | .team => some (some t.slot, (b.live t.slot).map (·.tid))
  | .group k =>
    match b.groups.find? fun g => g.key == k with
    | some g => if g.members.contains t.tid then some (none, runningOf b g.members) else none
    | none => none

/-- Members of a round's set as they stand. -/
def roundMembers (b : Block) (r : Round) : List Nat :=
  match r.slot with
  | some sl => (b.live sl).map (·.tid)
  | none =>
    match b.conv.toList.getD r.cv .undeclared with
    | .group k => runningOf b (((b.groups.find? fun g => g.key == k).map (·.members)).getD [])
    | _ => []

/-- sr.tval of a mismatch: the first signer's base word and tid (15 R326). -/
def mismatchVal (base : BitVec 32) (tid : Nat) (outsider : Bool) : Word :=
  BitVec.ofNat 64 (base.toNat + tid % 1024 * 2 ^ 32 + if outsider then 2 ^ 42 else 0)

/-- The team of the first signer's guard, and what a round's MMA binds to. -/
def roundBinding (b : Block) (r : Round) : Nat × Binding :=
  let slot := ((b.threads.find? fun t => t.tid == r.first).map (·.slot)).getD 0
  match b.team? slot with
  | some tm => (slot, bindGuard tm r.pfx)
  | none => (slot, .go)

/-- Does the MMA of a round open a shadow: a sketch whose handle holds a tile, or may by its turn (10 R233, R242)? -/
def opensShadow (s : State) (b : Block) (r : Round) : Bool :=
  let x := b.handle r.acc
  match roundBinding b r with
  | (slot, .episode g n) =>
    (shadowFor b r.acc slot g n).isNone && (x.map == 0 || x.map == 1 && !(pendingOn s b.bid r.acc).isEmpty)
  | _ => false

/-- Does the MMA of a round need a tile of the reservation that is not there (10 R242)? -/
def sketchOver (s : State) (b : Block) (r : Round) : Bool := opensShadow s b r && decide (b.kernel.acc ≤ tilesUsed b)

/-- The operand checks of 10 R232: alignment, then the window rules. The alignment fault shows pA or pB also where it is the
pair's second register that breaks a limit: the spec names no address (DESIGN CHOICE, log 33). -/
def mmaCheck (s : State) (b : Block) (r : Round) : Option AccFault :=
  let (m, n, k, es) := mmaShape r.fmt
  let bad := fun (i : Nat) =>
    let p := pairAt r.pairs i
    let st := pairAt r.pairs (i + 1)
    p.toNat % es != 0 || lo32 st % es != 0 || hi32 st % 2 ^ 31 != 0
  if bad 0 then some { kind := .program codeAlignment, addr := pairAt r.pairs 0 }
  else if bad 2 then some { kind := .program codeAlignment, addr := pairAt r.pairs 2 }
  else
    let as := (List.range m).flatMap fun i => (List.range k).map fun kk => addrA r.pairs es i kk
    let bs := (List.range k).flatMap fun kk => (List.range n).map fun j => addrB r.pairs es kk j
    (as ++ bs).findSome? fun a => windowFault s b.view a es

/-- The round's MMA reaches the unit: every signer goes on, each signing team's counter rises, a sketch opens its shadow
(10 R231, R233, R242). -/
def issueRound (s : State) (b : Block) (r : Round) : State :=
  let slots := ((b.threads.filter fun t => r.signers.contains t.tid).map (·.slot)).eraseDups
  let (slot, bind) := roundBinding b r
  let op : EngOp := { id := s.nextId, bid := b.bid, ctx := b.ctx, slot := slot, tid := r.first, cls := 1,
                      kind := .mma r.acc r.fmt r.pairs r.first slots, tok := none, binding := bind, guard := guardSlot r.pfx,
                      progress := 0,
                      xlat := pathsOf s b.view (operandAddrs r.fmt r.pairs 0),
                      after := true, result := none, orphan := false, due := s.cycle + Config.latMma,
                      desc := { major := 23, fn := 0, qual := r.fmt,
                                rm := ((b.thread? false r.first).map (rmAt r.pfx)).getD 0, operands := r.pairs } }
  let opens := opensShadow s b r
  let s : State := { s with nextId := s.nextId + 1, ops := s.ops ++ [op] }
  s.onBlock b.bid fun b =>
    let b : Block := { b with
      rounds := b.rounds.filter fun x => !(x.cv == r.cv && x.slot == r.slot),
      threads := b.threads.map fun t => if r.signers.contains t.tid then t.advance (pfxLen r.pfx) else t,
      teams := b.teams.map fun tm => if slots.contains tm.slot then tm.setCount 1 (tm.count 1 + 1) else tm }
    match bind with
    | .episode g n =>
      if opens then
        { b.setHandle r.acc { b.handle r.acc with skp := true } with
          shadows := b.shadows ++ [{ handle := r.acc, guard := g, slot := slot, episode := n, born := op.id, tile := [],
                                     fault := none, touched := [] }] }
      else b
    | _ => b

/-- The round issues once every current member has signed, no counter is full and a sketch has its tile (10 R231, R233). A
fault of the checks is raised on the first signer, whose signature is withdrawn (10 R232). Where it is a member's end that
completes the round there is no last signer to raise OVERCAP, of which alone 10 R242 speaks: the signers then wait for a tile
(DESIGN CHOICE, log 70). -/
def tryRound (s : State) (bid cv : Nat) (slot : Option Nat) : State :=
  match s.block? bid with
  | none => s
  | some b =>
    match b.rounds.find? fun r => r.cv == cv && r.slot == slot with
    | none => s
    | some r =>
      let slots := ((b.threads.filter fun t => r.signers.contains t.tid).map (·.slot)).eraseDups
      let full := b.teams.any fun tm => slots.contains tm.slot && decide (255 ≤ tm.count 1)
      if !((roundMembers b r).all fun m => r.signers.contains m) || full || sketchOver s b r then s
      else match mmaCheck s b r with
        | none => issueRound s b r
        | some f =>
          match b.thread? false r.first with
          | none => s
          | some t =>
            let out := s.onBlock bid fun b =>
              { b with
                rounds := (b.rounds.map fun x =>
                  if x.cv = cv ∧ x.slot = slot then { x with signers := x.signers.filter (· != r.first) } else x).filter
                    fun x => !x.signers.isEmpty }
            accessFault out b t false f t.pc 4 (mmaShape r.fmt).2.2.2

/-- Every round of a block that can issue does so. -/
def settleRounds (s : State) (bid : Nat) : State :=
  match s.block? bid with
  | none => s
  | some b => b.rounds.foldl (fun s r => tryRound s bid r.cv r.slot) s

/-- MMA (10 R231). -/
def execMma (p : Option Pfx) (acc : BitVec 6) (cv : BitVec 4) (ra rb : Reg) (fmt : BitVec 3) (s : State) : Out :=
  let nums := [ra.toNat, ra.toNat + 1, rb.toNat, rb.toNat + 1]
  issue s { pfx := p, more := nums, legal := onMcore } fun h =>
    let base := mmaWord acc cv ra rb fmt
    let decl := h.b.conv[cv.toNat]'(cv.isLt)
    match convSet h.b h.t decl with
    | none =>
      if decl ≠ .undeclared then h.trap 4 (mismatchVal base h.t.tid true)
      else if nums.all h.t.nFull then h.wait .sign
      else h.wait (numsWait h nums)
    | some (slot, members) =>
      if !nums.all h.t.nFull then h.wait (numsWait h nums)
      else
        let pairs := [h.t.readX ra, h.t.readN (ra.toNat + 1), h.t.readX rb, h.t.readN (rb.toNat + 1)]
        let sign := fun (r : Round) =>
          if sketchOver h.s h.b r && members.all fun m => r.signers.contains m then h.trap 7 (acc.zeroExtend 64)
          else
            let s := (h.put h.s { h.t with wait := .sign }).onBlock h.b.bid fun b =>
              { b with rounds := (b.rounds.filter fun x => !(x.cv == r.cv && x.slot == r.slot)) ++ [r] }
            .next (tryRound s h.b.bid cv.toNat slot)
        match h.b.rounds.find? fun r => r.cv == cv.toNat && r.slot == slot with
        | none => sign { cv := cv.toNat, slot := slot, first := h.t.tid, pfx := p, base := base, acc := acc.toNat,
                         fmt := fmt.toNat, pairs := pairs, signers := [h.t.tid] }
        | some r =>
          if r.signers.contains h.t.tid then h.wait .sign
          else if r.base ≠ base ∨ r.pfx ≠ p then h.trap 4 (mismatchVal r.base r.first false)
          else sign { r with signers := r.signers ++ [h.t.tid] }

/-! ## Guards (10 R241, R242) -/

/-- GSET. -/
def execGset (n : BitVec 4) (s : State) : Out :=
  issue s {} fun h =>
    match h.b.team? h.t.slot with
    | none => h.done h.s h.t
    | some tm =>
      let g := tm.guards[n.toNat]'(n.isLt)
      if g.state = .pending then h.done h.s h.t
      else h.done (h.s.onBlock h.b.bid fun b => b.setTeam { tm with
        guards := tm.guards.set n.toNat { state := .pending, episode := g.episode + 1 } n.isLt }) h.t

/-- A shadow's resolution: TRUE gives the tile its contents, or its held fault (10 R242). -/
def resolveShadow (b : Block) (yes : Bool) (w : Shadow) : Block :=
  let b := dropShadow b w
  let x := b.handle w.handle
  if yes && !w.tile.isEmpty && x.map == 0 then
    b.setHandle w.handle { x with tile := w.tile, unc := true, map := if w.fault.isSome then 1 else 0 }
  else b

/-- The episode of a guard slot resolves: its operations and shadows learn it (10 R241); TRUE confirms what was read for the
shadows (05 R106). -/
def resolveEpisode (s : State) (bid slot g n : Nat) (yes : Bool) : State :=
  let s : State := { s with
    ops := s.ops.map fun o =>
      if o.bid = bid ∧ o.slot = slot ∧ o.binding = .episode g n then
        { o with binding := if yes then .go else .discard } else o }
  match s.block? bid with
  | none => s
  | some b =>
    let ws := b.shadows.filter fun x => x.slot == slot && x.guard == g && x.episode == n
    let s := if yes then ws.foldl (fun s w => confirmPaths s b.view w.touched) s else s
    s.onBlock bid fun b => ws.foldl (fun b w => resolveShadow b yes w) b

/-- GRES. -/
def execGres (ra : Reg) (n : BitVec 4) (fea : Bool) (s : State) : Out :=
  issue s { srcs := [(ra, fea)] } fun h =>
    match h.b.team? h.t.slot with
    | none => h.done h.s h.t
    | some tm =>
      let g := tm.guards[n.toNat]'(n.isLt)
      let yes := h.t.readX ra != 0
      let s := h.s.onBlock h.b.bid fun b => b.setTeam { tm with
        guards := tm.guards.set n.toNat { g with state := if yes then .true else .false } n.isLt }
      let s := if g.state = .pending then resolveEpisode s h.b.bid h.t.slot n.toNat g.episode yes else s
      match h.done s h.t with
      | .next s' => .next (drainMatrix s' h.b.bid)
      | x => x

end Sys2Proof.Machine
end

