-- ==== Sys2Proof/Machine/Sync.lean ====
section
/-! DEFINITION. Barriers (09 R221 to R223), TLAUNCH with the acceptance of task-graph nodes (10 R247, 14 R304, R306), and
TNEXT (10 R248). -/

namespace Sys2Proof.Machine

/-! ## Barriers -/

/-- Is the barrier declared, and a grid barrier in a co-resident launch (02 R48, 09 R221)? -/
def barLegal (id : BarId) (h : Here) : Bool :=
  match id with
  | .block n => h.b.kernel.blockBars.getLsbD n
  | .cluster n => h.b.kernel.clusterBars.getLsbD n
  | .grid n => h.b.kernel.gridBars.getLsbD n && h.b.coresident
  | .commit => false

/-- An arrival that names only the thread's own mark: the twin of one the primary has made, unless its phase is over. -/
def markArrival (s : State) (h : Here) (id : BarId) (phase : Word) : State :=
  match getBar s h.b id with
  | none => s
  | some x =>
    if bool64 x.phase = phase then
      s.onBlock h.b.bid fun b =>
        { b with threads := b.threads.map fun t => if t.tid = h.t.tid then { t with outst := t.outst ++ [id] } else t }
    else s

/-- The arrival half (09 R222): it waits for the thread's outstanding arrival, then arrives. -/
def barArrive (id : BarId) (s : State) : Out :=
  issue s { legal := barLegal id } fun h =>
    let arriveWith := fun (s : State) => arrive s h.b.bid h.t.tid id
    let go := fun (s : State) (f : State → State) =>
      match h.done s h.t with
      | .next s' => .next (f s')
      | x => x
    if h.t.outst.contains id then h.wait .barrier
    else if id.inBlock then go h.s arriveWith
    else if uncommitted h.b then h.trap 5 5
    else
      let phase := bool64 ((getBar h.s h.b id).any (·.phase))
      match gateOf h with
      | .hold => h.holdAt
      | .go => h.bounded true (go (h.share h.s [phase]) arriveWith)
      | .replay r =>
        match id with
        | .grid _ => h.bounded true (go (h.share h.s []) fun s => markArrival s h id (r.headD 0))
        | _ => h.bounded true (go (h.share h.s []) arriveWith)

/-- The wait half. -/
def barWait (id : BarId) (s : State) : Out :=
  issue s { legal := barLegal id } fun h => if h.t.outst.contains id then h.wait .barrier else h.done h.s h.t

/-- BARA. -/
def execBara (n : BitVec 6) (s : State) : Out := barArrive (.block n.toNat) s

/-- BARW. -/
def execBarw (n : BitVec 6) (s : State) : Out := barWait (.block n.toNat) s

/-- BARS: the arrival half, then the wait half, of one instruction (01 R33). -/
def execBars (n : BitVec 6) (s : State) : Out :=
  let id : BarId := .block n.toNat
  issue s { legal := barLegal id } fun h =>
    if h.t.outst.contains id then h.wait .barrier
    else if h.t.barsWait then h.done h.s { h.t with barsWait := false }
    else .next (afterArrival (arrive (h.put h.s { h.t with barsWait := true, wait := .barrier }) h.b.bid h.t.tid id)
      h.b.bid h.t.tid id h.len)

/-- CBARA. -/
def execCbara (n : BitVec 4) (s : State) : Out := barArrive (.cluster n.toNat) s

/-- CBARW. -/
def execCbarw (n : BitVec 4) (s : State) : Out := barWait (.cluster n.toNat) s

/-- GBARA. -/
def execGbara (n : BitVec 3) (s : State) : Out := barArrive (.grid n.toNat) s

/-- GBARW. -/
def execGbarw (n : BitVec 3) (s : State) : Out := barWait (.grid n.toNat) s

/-! ## Nodes (14 R304, R306) -/

/-- A tile operand of a node: address, size, scratchpad offset in bytes, mode, token register. -/
structure TileOp where
  addr : Nat
  size : Nat
  off : Nat
  mode : Nat
  token : Nat
deriving DecidableEq, Repr

/-- Tile operand i of a descriptor. -/
def tileOp (d : List Byte) (i : Nat) : TileOp :=
  let o := 32 + 16 * i
  { addr := field d o 8, size := field d (o + 8) 4, off := 64 * field d (o + 12) 2, mode := field d (o + 14) 1,
    token := field d (o + 15) 1 }

/-- The tile operands in use. -/
def tileOps (d : List Byte) : List TileOp := (List.range (min 2 (field d 29 1))).map (tileOp d)

/-- Limits of a tile operand. -/
def tileOpOk (k : Kernel) (t : TileOp) : Bool :=
  t.addr % 64 == 0 && decide (64 ≤ t.size) && decide (t.size ≤ 1048576) && t.size % 64 == 0
  && decide (t.off + t.size ≤ k.scratch) && decide (1 ≤ t.mode) && decide (t.mode ≤ 3)
  && decide (1 ≤ t.token) && decide (t.token ≤ 31)

/-- The limits of a node descriptor. -/
def nodeOk (s : State) (part ctx : Nat) (d : List Byte) : Bool :=
  match kernelAt s part ctx (field d 0 8) with
  | none => false
  | some k =>
    let nt := field d 29 1
    field d 16 8 % 8 == 0 && (field d 26 2 != 0 || field d 16 8 == 0)
    && decide (field d 28 1 ≤ 2) && !(field d 28 1 == 2 && decide (0 < k.acc))
    && decide (nt ≤ 2) && field d 30 2 == 0
    && (tileOps d).all (tileOpOk k) && (decide (1 ≤ nt) || field d 32 16 == 0) && (decide (2 ≤ nt) || field d 48 16 == 0)

/-- Nodes accepted and not yet started, and credits: they count against LCAP (13 R281, 14 R306). -/
def poolUsed (s : State) (ctx : Nat) : Nat :=
  (s.nodes.filter fun n => n.ctx == ctx).length + (s.credits.filter fun c => c.ctx == ctx).length

/-- The pool accepts a node: credits kept for its address are applied (14 R306). -/
def acceptNode (s : State) (part ctx addr : Nat) (d : List Byte) (launch : Nat) (pid : Option Nat) : State :=
  let npred := field d 24 2
  let have' := ((s.credits.find? fun c => c.ctx == ctx && c.addr.toNat == addr).map (·.count)).getD 0
  let used := min npred have'
  let credits := (s.credits.map fun c => if c.ctx = ctx ∧ c.addr.toNat = addr then { c with count := c.count - used } else c).filter
    fun c => c.count != 0
  { s with
    nextId := s.nextId + 1,
    credits := credits,
    nodes := s.nodes ++ [{ part := part, ctx := ctx, addr := BitVec.ofNat 64 addr, desc := d, remaining := npred - used,
                           launch := launch, pid := pid, order := s.nextId }] }

/-- TLAUNCH (10 R247). -/
def execTlaunch (rd ra : Reg) (fea : Bool) (s : State) : Out :=
  issue s { srcs := [(ra, fea)], dsts := [rd] } fun h =>
    let va := (h.t.readX ra).toNat
    let cap := ((h.s.ctx? h.b.ctx).map (·.lcap)).getD 0
    if va % 64 ≠ 0 then h.fault { kind := .program codeAlignment, addr := h.t.readX ra } 1 64
    else match windowFault h.s h.b.view va 64 with
      | some f => h.fault f 1 64
      | none =>
        if uncommitted h.b then h.trap 5 8
        else if cap ≤ poolUsed h.s h.b.ctx then h.wait .dep
        else
          let fin := fun (s : State) (status : Word) => h.bounded true (h.done s (h.t.writeX rd status))
          match gateOf h with
          | .hold => h.holdAt
          | .replay r => fin (h.share h.s []) (r.headD 0)
          | .go =>
            match loadBytes h.s h.b.view va 64 with
            | .inr f => h.fault f 1 64
            | .inl (d, s1) =>
              if kernelPoisoned s1 h.b.ctx (field d 0 8) then fin (stick (h.share s1 [1]) h.b.ctx stickCodeint) 1
              else if nodeOk s1 h.b.part h.b.ctx d then
                let pid := (s1.launches.find? fun l => l.lid == h.b.launch).bind (·.pid)
                fin (h.share (acceptNode s1 h.b.part h.b.ctx va d h.b.launch pid) [0]) 0
              else fin (h.share s1 [1]) 1

/-! ## TNEXT (10 R248) -/

/-- Start of block i's share. -/
def shareLo (total nblk i : Nat) : Nat := i * total / nblk

/-- The next range of a share from a cursor: x(d), x(d + 1) and the new cursor. -/
def nextRange (total tile blk nblk cursor : Nat) : Nat × Nat × Nat :=
  let hi := shareLo total nblk (blk + 1)
  if hi ≤ cursor then (total, 0, cursor)
  else
    let t := cursor / tile
    let tend := min total ((t + 1) * tile)
    let e := min hi tend
    let fix := cursor % tile != 0
    let comb := !fix && decide (e < tend)
    let parts := if comb then
        ((List.range nblk).filter fun b => b != blk && decide (cursor < shareLo total nblk b)
          && decide (shareLo total nblk b < tend) && decide (shareLo total nblk b < shareLo total nblk (b + 1))).length
      else 0
    (cursor, (e - cursor) + (if fix then 2 ^ 32 else 0) + (if comb then 2 ^ 33 else 0) + min parts 0xFFFF * 2 ^ 48, e)

/-- TNEXT. -/
def execTnext (rd : Reg) (s : State) : Out :=
  issue s { dsts := [rd], more := [rd.toNat + 1] } fun h =>
    if !h.t.nFull (rd.toNat + 1) then h.wait (numsWait h [rd.toNat + 1])
    else
      let put := fun (x y : Nat) => (h.t.writeX rd (BitVec.ofNat 64 x)).writeN (rd.toNat + 1) (BitVec.ofNat 64 y)
      if h.b.distT = 0 then h.done h.s (put 0 0)
      else
        let (x, y, c) := nextRange h.b.distT h.b.distG h.b.idx h.b.nblk h.b.cursor
        h.done (h.s.onBlock h.b.bid fun b => { b with cursor := c }) (put x y)

end Sys2Proof.Machine
end

