-- ==== Sys2Proof/Machine/Fetch.lean ====
section
/-! DEFINITION. Instruction fetch (07 R156, 12 R260, R261), the hash check of code pages and the code-integrity fault
(15 R328), and IPREF (09 R205). -/

namespace Sys2Proof.Machine

/-! ## Code pages -/

/-- Bytes of the file at an offset: the file lies in host memory (15 R315, 19 R391). -/
def fileBytes (s : State) (i : Inst) (off n : Nat) : List Byte := cellsBytes s.mem (hostStart + i.file + off) n

/-- Does a page of the image, as stored in the file, match its digest (19 R392)? -/
def pageHashOk (s : State) (i : Inst) (idx : Nat) : Bool :=
  sha256 (fileBytes s i (i.imgOff + 4096 * idx) 4096) == fileBytes s i (i.hashOff + 32 * idx) 32

/-- The instance of a context an address lies in, with the page index from its base. -/
def codeInst (s : State) (ctx va : Nat) : Option (Inst × Nat) :=
  ((instsOf s ctx).find? fun i => decide (i.base.toNat ≤ va) && decide (va < i.base.toNat + i.image + i.gotBytes)).map
    fun i => (i, (va - i.base.toNat) / 4096)

def State.setInst (s : State) (i : Inst) : State := { s with insts := s.insts.map fun x => if x.iid = i.iid then i else x }

/-- An object is poisoned throughout the device: sticky CODEINT and a record for each context that shares it (15 R328). -/
def poisonObject (s : State) (hash : List Byte) : State :=
  if s.poisoned.contains hash then s
  else
    let ctxs := ((s.insts.filter fun i => i.hash == hash).flatMap fun i => i.ctxs.map fun c => (i.part, c)).eraseDups
    ctxs.foldl (fun s pc => postRecord (stick s pc.2 stickCodeint) pc.1 (recordBytes s 7 pc.2 0xFFFF 0 0 0 0 (hash.take 20)))
      { s with poisoned := s.poisoned ++ [hash] }

/-- What the check of a page before its use finds. -/
inductive CodeCheck where
  | ok
  /-- The host is asked (13 R279 INTEG). -/
  | waits
  | poisoned
deriving DecidableEq, Repr

/-- The reference of a page in an assist request. -/
def pageRef (i : Inst) (idx : Nat) : Nat := i.iid * 2 ^ 32 + idx

/-- The check before the first use of a code page (15 R328). -/
def codeCheck (s : State) (part ctx va : Nat) : CodeCheck × State :=
  match codeInst s ctx va with
  | none => (.ok, s)
  | some (i, idx) =>
    if s.poisoned.contains i.hash then (.poisoned, s)
    else if decide (i.image / 4096 ≤ idx) || i.checked.contains idx then (.ok, s)
    else if hostDuty s part 4 (pageRef i idx) then
      if askedHost s part 4 (pageRef i idx) then (.waits, s)
      else (.waits, (postAssist s part 4 ctx (pageRef i idx) (leBytes 8 va)).1)
    else if pageHashOk s i idx then (.ok, s.setInst { i with checked := i.checked ++ [idx] })
    else (.poisoned, poisonObject s i.hash)

/-- Is the page's leaf marked CODE (15 R312)? -/
def leafCode (ls : List Located) : Bool := ls.any fun l => l.leaf.any fun f => f.entry.getLsbD 5

/-- The storage of the canvas at an address is free again. -/
def freeCanvas (s : State) (ctx : Nat) (addr : Word) : State :=
  match s.ctx? ctx with
  | none => s
  | some c => s.setCtx { c with
      canvases := c.canvases.filter fun x => c.canvasBase + BitVec.ofNat 64 x.1 != addr }

/-- Captured blocks of a launch are discarded, and canvases that held nothing else with them. -/
def dropCaptured (s : State) (lid : Nat) : State :=
  let cut := s.captured.map fun c => { c with blocks := c.blocks.filter fun x => x.launch != lid }
  let s := (cut.filter fun c => c.blocks.isEmpty).foldl (fun s c => freeCanvas s c.ctx c.addr) s
  { s with captured := cut.filter fun c => !c.blocks.isEmpty }

/-- A launch ends early: its blocks end without a canvas, captured ones too, and nothing more of it is placed (15 R328). -/
def endLaunch (s : State) (lid status : Nat) : State :=
  let s := dropCaptured (endBlocks s ((s.blocks.filter fun b => b.launch == lid).map (·.bid))) lid
  { s with
    launches := s.launches.map fun l => if l.lid = lid then { l with status := max l.status status, next := l.nblk } else l }

/-- CODE_INTEGRITY at a fetch (15 R328, R330). -/
def codeIntegrity (s : State) (b : Block) (t : Thread) : State :=
  match b.commission with
  | some info => commissionRecord (killThreads s b.bid t.slot) b info 7 t.pc.toNat 0
  | none => endLaunch (stick (killThreads s b.bid t.slot) b.ctx stickCodeint) b.launch 5

/-! ## Fetch -/

inductive Fetched where
  | word (w : BitVec 32) (s : State)
  /-- Nothing issues: a fault was taken, or the thread waits. -/
  | stop (s : State)
deriving DecidableEq, Repr

/-- Is the fill of a line outstanding? -/
def State.filling (s : State) (l : ICLine) : Bool := s.fills.any fun f => f.line == l

/-- A line is requested; one request is outstanding for a line (12 R260). -/
def askLine (s : State) (l : ICLine) : State :=
  if s.filling l then s else { s with fills := s.fills ++ [{ line := l, due := s.cycle + Config.latFill }] }

/-- A line of a core is in its cache and was used last, or is wanted: a fill is outstanding (12 R260). -/
def useLine (s : State) (b : Block) (va : Nat) : Bool × State :=
  let l : ICLine := { die := b.die, core := b.core, ctx := b.ctx, line := va / 128 }
  if s.icache.contains l then (true, { s with icache := l :: s.icache.filter (· != l) })
  else (false, askLine s l)

/-- The word at an address of the current thread's code, for the instruction at pc (06 R122, 15 R322). A line that is not in
the cache is waited for (12 R260). A bits are set for a word that the thread executes (15 R316). -/
def fetchWith (executes : Bool) (s : State) (b : Block) (t : Thread) (acc : Bool) (pc va : Word) : Fetched :=
  if (codeInst s b.ctx va.toNat).any fun x => s.poisoned.contains x.1.hash then .stop (codeIntegrity s b t)
  else match locateAll s b.view needX (addrs va.toNat 4) with
  | .inr f => .stop (accessFault s b t acc f pc 0 4)
  | .inl ls =>
    let (c, s) := if leafCode ls then codeCheck s b.part b.ctx va.toNat else (.ok, s)
    match c with
    | .waits => .stop (s.setThread b.bid acc { t with wait := .fetch })
    | .poisoned => .stop (codeIntegrity s b t)
    | .ok =>
      match useLine s b va.toNat with
      | (false, s) => .stop (s.setThread b.bid acc { t with wait := .fetch })
      | (true, s) =>
        match dataFault s ls va.toNat with
        | some f => .stop (accessFault s b t acc f pc 0 4)
        | none => .word (BitVec.ofNat 32 (readPlaces s ls)) (if executes then touch s false ls else s)

/-- A word of the instruction at pc. -/
def fetchWord (s : State) (b : Block) (t : Thread) (acc : Bool) (pc va : Word) : Fetched := fetchWith true s b t acc pc va

inductive Next where
  | run (i : Instr) (s : State)
  | stop (s : State)
deriving DecidableEq, Repr

/-- The instruction at a thread's PC: one word, or a prefix and its base word; an encoding that is none meets the
illegal-instruction response (06 R122, R123, R136). -/
def fetchInstr (s : State) (b : Block) (t : Thread) (acc : Bool) : Next :=
  match fetchWord s b t acc t.pc t.pc with
  | .stop s => .stop s
  | .word w1 s =>
    let second := if w1.toNat / 2 ^ 27 = 0x1B then fetchWord s b t acc t.pc (t.pc + 4) else .word 0 s
    match second with
    | .stop s => .stop s
    | .word w2 s =>
      match decode w1 w2 with
      | .ok x => .run x.1 s
      | .error _ => .stop (illegalAt s b t)

/-- LOOP (07 R157): a count of 0 reads the word at the body's end as a fetch, of the LOOP's own. -/
def execLoop (lc : BitVec 2) (ra : Reg) (disp : BitVec 18) (s : State) : Out :=
  issue s { srcs := [(ra, false)], slice := true } fun h =>
    match firstPoison h [ra] with
    | some d => .next (h.put h.s (haltOn h.t d))
    | none =>
      let n := (h.t.readX ra).setWidth 32
      let endpc := h.t.pc + (disp ++ 0#2).zeroExtend 64
      if n = 0 then
        match fetchWith false h.s h.b h.t h.acc h.t.pc endpc with
        | .stop s' => .next s'
        | .word w s' => .next (h.put s' (h.t.goto (endpc + if w.toNat / 2 ^ 27 = 0x1B then 8 else 4)))
      else
        h.done h.s { h.t with
          lc := h.t.lc.set lc.toNat { active := true, remaining := n, start := h.t.pc + 4, stop := endpc } lc.isLt }

/-! ## Instruction cache lines -/

/-- A line of a core is wanted: a fill is outstanding unless the line is there (12 R260). -/
def wantLine (s : State) (die core ctx line : Nat) : State :=
  let l : ICLine := { die := die, core := core, ctx := ctx, line := line }
  if s.icache.contains l then s else askLine s l

/-- What IPREF and the push at dispatch do with a line: dropped unless its page is present and executable and its object
whole; a code page not yet checked is checked (09 R205, 14 R301). -/
def prefetchLine (s : State) (b : Block) (va : Nat) : State :=
  match locate s b.view needX va with
  | .bad _ => s
  | .ok l =>
    let (c, s) := if leafCode [l] then codeCheck s b.part b.ctx va else (.ok, s)
    if c = .ok then wantLine s b.die b.core b.ctx (va / 128) else s

/-- IPREF. -/
def execIpref (ra : Reg) (fea : Bool) (s : State) : Out :=
  issue s { srcs := [(ra, fea)] } fun h => h.done (prefetchLine h.s h.b (h.t.readX ra).toNat) h.t

end Sys2Proof.Machine
end

