-- ==== Sys2Proof/Machine/Place.lean ====
section
/-! DEFINITION. Blocks as a gesso canvas gives them (14 R301, 02 R44, R46, 10 R240, R243), and the state in which a given
word is the next instruction (log 14). -/

namespace Sys2Proof.Machine

/-! ## Gesso -/

/-- A loop level at gesso (02 R43). -/
def noLoop : Loop := { active := false, remaining := 0, start := 0, stop := 0 }

/-- x1 to xc from the arguments, the others zero (14 R301). -/
def argRegs (args : List Word) : Vector Word 256 := Vector.ofFn fun i => if i.val = 0 then 0 else args.getD (i.val - 1) 0

/-- A thread at gesso. -/
def gessoThread (k : Kernel) (args : List Word) (since tid slot lane : Nat) : Thread :=
  { tid := tid, slot := slot, lane := lane, life := .running, spawned := false, inHandler := false, barsWait := false,
    wb := 0, regs := argRegs args, full := Vector.replicate 256 true, pc := k.text, k := Vector.replicate 8 0,
    lc := Vector.replicate 4 noLoop, rm := 0, fpst := 0, spth := 8, tvec := k.trap.getD 0, tcause := 0, tpc := 0, tval := 0,
    outst := [], wait := .ready, since := since, reconv := none, parking := none, poison := [], halted := none,
    touched := [], cmsn := none }

/-- A team slot without a team (02 R46), on a quadrant. -/
def emptyTeam (slot quad : Nat) : Team :=
  { slot := slot, held := false, quad := quad, accessRun := false, ctr := Vector.replicate 4 0,
    guards := Vector.replicate 16 { state := .free, episode := 0 }, fq := Vector.replicate 128 [],
    pops := Vector.replicate 128 0, drop := Vector.replicate 128 0, cells := [], claims := [], senders := [], startRegs := [] }

/-- x0 to x31 of a thread, as its access thread starts with them (10 R243). -/
def startRegsOf (t : Thread) : List Word := (List.range 32).map t.readN

/-- An access thread at the start of .access. -/
def accessThread (k : Kernel) (entry : Word) (since slot lane : Nat) (regs : List Word) : Thread :=
  { gessoThread k (regs.drop 1) since (32 * slot + lane) slot lane with pc := entry, tvec := 0 }

/-- The access context of a team starts: its threads and the slot's record of their start registers (10 R243, R246). -/
def startAccess (b : Block) (since slot : Nat) : Block :=
  match b.kernel.access with
  | none => b
  | some entry =>
    let lanes := (b.live slot).map fun t => (t.lane, startRegsOf t)
    let regs := (List.range 32).map fun l => ((lanes.find? fun x => x.1 == l).map (·.2)).getD (List.replicate 32 0)
    { b with
      access := (b.access.filter fun t => t.slot != slot)
        ++ lanes.map fun x => accessThread b.kernel entry since slot x.1 x.2,
      teams := b.teams.map fun tm => if tm.slot = slot then { tm with accessRun := true, startRegs := regs } else tm }

/-- The set bits of a bitmap of w bits. -/
def bitsOf (w m : Nat) : List Nat := (List.range w).filter fun i => m / 2 ^ i % 2 == 1

/-- A barrier with its expected count. -/
def freshBar (expected : Nat) (id : BarId) : Bar := { id := id, expected := expected, arrived := 0, phase := false }

/-- Threads of a block at launch. -/
def Kernel.threads (k : Kernel) : Nat := 32 * k.n

/-- The block barriers and the commit barrier (01 R22, 10 R239). -/
def blockBars (k : Kernel) : List Bar :=
  (bitsOf 64 k.blockBars.toNat).map (fun n => freshBar k.threads (.block n)) ++ [freshBar k.threads .commit]

def clusterBarsOf (k : Kernel) (csize : Nat) : List Bar :=
  (bitsOf 16 k.clusterBars.toNat).map fun n => freshBar (k.threads * csize) (.cluster n)

def gridBarsOf (k : Kernel) (nblk : Nat) : List Bar :=
  (bitsOf 8 k.gridBars.toNat).map fun n => freshBar (k.threads * nblk) (.grid n)

def emptyHandle : Handle := { map := 2, unc := false, skp := false, tile := List.replicate 128 0 }

/-- A block that is placed by a gesso canvas; its bare fields come from the launch and the placement. Team slot i lies on quadrant
i mod 4: 01 R15 leaves the quadrant of a slot open (DESIGN CHOICE, log 88). -/
def gessoBlock (bid part ctx launch : Nat) (grid : BitVec 32) (idx nblk crank csize cluster die core : Nat)
    (kind : CoreKind) (cfg : Nat) (k : Kernel) (args : List Word) (coresident redundant : Bool) (placed since : Nat) :
    Block :=
  let threads := (List.range (32 * k.n)).map fun i => gessoThread k args since i (i / 32) (i % 32)
  let teams := (List.range (k.n + k.s)).map fun i => { emptyTeam i (i % 4) with held := decide (i < k.n) }
  let b : Block :=
    { bid := bid, part := part, ctx := ctx, launch := launch, grid := grid, idx := idx, nblk := nblk, crank := crank,
      csize := csize, cluster := cluster, die := die, core := core, kind := kind, reqKind := (if k.acc = 0 then 2 else 0), cfg := cfg, kernel := k, args := args,
      coresident := coresident, redundant := redundant, twin := none, primary := true, commission := none, node := none,
      placed := placed, state := .running, teams := teams, threads := threads, access := [], scratch := [], spawn := [],
      bars := blockBars k, conv := Vector.replicate 16 .undeclared, rounds := [],
      handles := Vector.replicate 64 emptyHandle, shadows := [], groups := [], arrivals := [], label := k.text,
      commitVals := [], snap := none, distT := 0, distG := 0, cursor := 0, held := [], mismatched := [], cmpAt := [],
      grants := [], opDone := [], issued := [], errorBanks := [], wanted := false }
  let b := (List.range k.n).foldl (fun b slot => startAccess b since slot) b
  { b with snap := some (snapshot b) }

/-! ## A word where the next step fetches (log 14) -/

/-- The kernel of the block that runs the word: every register and every barrier declared. -/
def probeKernel : Kernel :=
  { kpb := 0, base := 0, inst := 0, text := 0x4000, access := none, trap := none, regs := 256, n := 1, s := 1, scratch := 65536,
    spawnEntries := 32, acc := 64, cluster := 1, blockBars := BitVec.allOnes 64, clusterBars := BitVec.allOnes 16,
    gridBars := BitVec.allOnes 8, restartFirst := 1, restartCount := 0, staging := [], prefetch := [] }

/-- A context whose page tables lie at 0x1000. -/
def probeCtx : Ctx :=
  { id := 0, part := 0, state := .active, redundant := false, coresident := true, ptroot := 0x1000, atl := [], cmsnN := 0,
    cmsnTab := 0, canvasBase := 0, canvasSize := 0, cfault := 0, cfaultN := 16, lcap := 16, sticky := 0, canvases := [],
    suspendCanvas := none, nextGrid := 1 }

/-- The block's one thread. -/
def probeThread (since : Nat) : Thread := gessoThread probeKernel [] since 0 0 0

def probeBlock (bid lid cid since : Nat) : Block :=
  { bid := bid, part := 0, ctx := 0, launch := lid, grid := 1, idx := 0, nblk := 1, crank := 0, csize := 1, cluster := cid,
    die := 0, core := 0, kind := .mCore, reqKind := 2, cfg := 0, kernel := { probeKernel with access := some 0x4000 }, args := [],
    coresident := true, redundant := false, twin := none, primary := true, commission := none, node := none, placed := 0,
    state := .running, teams := [{ emptyTeam 0 0 with held := true }], threads := [probeThread since], access := [],
    scratch := [], spawn := [], bars := (List.range 64).map (fun n => freshBar 1 (.block n)) ++ [freshBar 1 .commit],
    conv := Vector.replicate 16 .undeclared, rounds := [], handles := Vector.replicate 64 emptyHandle, shadows := [],
    groups := [], arrivals := [], label := 0x4000, commitVals := [], snap := none, distT := 0, distG := 0, cursor := 0,
    held := [], mismatched := [], cmpAt := [], grants := [], opDone := [], issued := [], errorBanks := [], wanted := false }

def probeLaunch (lid : Nat) : Launch :=
  { lid := lid, pid := none, part := 0, ctx := 0, grid := 1, kpbs := [], args := [], nblk := 1, next := 1, coresident := true,
    redundant := false, deadline := none, canvas := 0, distT := 0, distG := 0, fixBase := 0, fixSize := 0,
    bars := (List.range 8).map fun n => freshBar 1 (.grid n), firstIssued := true, cls := 2, weight := 1, status := 0 }

/-- Page tables of three levels from 0x1000 on whose one leaf maps the first GiB to itself, and the instruction at 0x4000 with
zeros above it. -/
def probeMem (m : Cells) (w : Nat) : Cells :=
  let m := cellsWrite m 0x1000 8 0x2001
  let m := cellsWrite m 0x2000 8 0x3001
  let m := cellsWrite m 0x3000 8 0x1F
  cellsWrite m 0x4000 8 w

/-- The state in which the word is fetched next: the device up, partition 0 as reset leaves it, a context with a block of one
thread whose PC is the word's address, its line in the core's cache, and that thread at the head of the issue group. -/
def placeWord (s : State) (w : Nat) : State :=
  let bid := s.nextId
  { s with
    nextId := s.nextId + 3,
    powered := true, halt := false, stage := 7, inbox := [],
    parts := s.parts.set 0 Part.reset0,
    mem := probeMem s.mem w,
    poison := [],
    icache := { die := 0, core := 0, ctx := 0, line := 0x80 } :: s.icache,
    ctxs := probeCtx :: s.ctxs.filter fun c => c.id != 0,
    insts := s.insts.filter fun i => !i.ctxs.contains 0,
    clusters := { cid := bid + 1, bars := (List.range 16).map fun n => freshBar 1 (.cluster n) } :: s.clusters,
    launches := probeLaunch (bid + 2) :: s.launches,
    blocks := probeBlock bid (bid + 2) (bid + 1) s.cycle :: s.blocks,
    cur := none,
    group := [{ bid := bid, tid := 0, acc := false }], picked := true,
    todo := [{ bid := bid, tid := 0, acc := false }] }

end Sys2Proof.Machine
end

