-- ==== Sys2Proof/Machine/Collective.lean ====
section
/-! DEFINITION. COLL and the fabric as this device sees it (18 R375 to R384): the descriptor, the groups, operations on peers,
reductions, mirrors, and the requests and responses that arrive. -/

namespace Sys2Proof.Machine

/-! ## Groups and descriptors (18 R375, R376) -/

/-- A fabric group. -/
structure FabricGroup where
  n : Nat
  rank : Nat
  rctx : Nat
  fids : List (BitVec 12)
deriving DecidableEq, Repr

/-- Entry i of a partition's fabric group table. -/
def fabricGroup (s : State) (p i : Nat) : Option FabricGroup :=
  let x := s.part p
  if x.fgtN ≤ i then none
  else
    let bs := cellsBytes s.mem (x.fgtBase.toNat + 128 * i) 128
    let n := field bs 0 2
    if n = 0 ∨ 56 < n ∨ n ≤ field bs 2 1 then none
    else some { n := n, rank := field bs 2 1, rctx := field bs 4 2,
                fids := (List.range n).map fun r => BitVec.ofNat 12 (field bs (8 + 2 * r) 2) }

/-- A collective descriptor's fields. -/
structure Coll where
  op : Nat
  b1 : Nat
  b2 : Nat
  b3 : Nat
  group : Nat
  peer : Nat
  buddy : Nat
  flags : Nat
  step : Nat
  locAddr : Nat
  dst : Nat
  len : Nat
  hdr : Nat
  w48 : Nat
  w56 : Nat
deriving DecidableEq, Repr

def parseColl (d : List Byte) : Coll :=
  { op := field d 0 1, b1 := field d 1 1, b2 := field d 2 1, b3 := field d 3 1, group := field d 4 2, peer := field d 6 1,
    buddy := field d 7 1, flags := field d 8 4, step := field d 12 4, locAddr := field d 16 8, dst := field d 24 8,
    len := field d 32 8, hdr := field d 40 8, w48 := field d 48 8, w56 := field d 56 8 }

def reduceFmtOk (n : Nat) : Bool := n == 0 || n == 1 || n == 2 || n == 3 || n == 10 || n == 11

def Coll.qto (c : Coll) : Nat := c.w48 % 2 ^ 32

def Coll.minc (c : Coll) : Nat := c.w48 / 2 ^ 32 % 2 ^ 16

/-- The limits of 18 R376 in a group. -/
def collOk (c : Coll) (g : FabricGroup) : Bool :=
  decide (c.peer < g.n) &&
  match c.op with
  | 2 => (decide (c.b1 ≤ 9) || (decide (11 ≤ c.b1) && decide (c.b1 ≤ 14))) && (c.b2 == 4 || c.b2 == 8) && c.b3 == 0
      && c.buddy == 0xFF && c.flags == 0 && c.locAddr % 8 == 0 && c.dst % c.b2 == 0 && c.len == 0 && c.hdr == 0
  | 5 => c.b1 == 0 && c.b2 == 0 && c.b3 == 0 && (c.buddy == 0xFF || decide (c.buddy < g.n)) && c.flags == 0
      && decide (c.len ≤ 2 ^ 32) && c.hdr == 0 && decide (c.w48 ≤ 2 ^ 32)
  | n =>
    if n < 2 then
      c.b1 == 0 && c.b2 == 0 && c.b3 == 0 && c.buddy == 0xFF && c.flags == 0 && decide (c.len ≤ 2 ^ 40) && c.hdr == 0
      && c.w48 == 0 && c.w56 == 0
    else if n < 5 then
      reduceFmtOk c.b1 && reduceFmtOk c.b2 && decide (c.b3 ≤ 127) && c.buddy == 0xFF && decide (c.flags ≤ 1)
      && decide (1 ≤ c.len) && decide (c.len ≤ 2 ^ 24) && c.hdr % 8 == 0 && decide (1 ≤ c.minc) && decide (c.minc ≤ g.n)
      && c.w48 / 2 ^ 48 == 0 && c.w56 == 0
    else false

/-- Bytes of an element of a reduction's format. -/
def elemBytes (code : Nat) : Nat := codeWidth code / 8

/-- Bytes of a reduction's result. -/
def Coll.resultBytes (c : Coll) : Nat := c.len * elemBytes c.b2

/-- Does this member write a reduction's result? -/
def Coll.getsResult (c : Coll) (g : FabricGroup) : Bool := c.op == 4 || g.rank == c.peer

/-- Where the mirror of a MULTICAST lies at the buddy (18 R384). -/
def Coll.mirror (c : Coll) : Nat := (c.w56 + c.step % 2 * (c.len + c.w48)) % 2 ^ 64

/-- The bytes that the source of a MULTICAST reads: its shard, and with a mirror the state after it (18 R384). -/
def Coll.sentBytes (c : Coll) : Nat := c.len + if c.buddy = 0xFF then 0 else c.w48

/-- Ranges of this device that the operation reads. -/
def Coll.sources (c : Coll) (g : FabricGroup) : List (Nat × Nat) :=
  match c.op with
  | 0 => [(c.locAddr, c.len)]
  | 1 => []
  | 2 => []
  | 5 => if g.rank = c.peer then [(c.locAddr, c.sentBytes)] else []
  | _ => [(c.locAddr, c.len * elemBytes c.b1)]

/-- Ranges of this device that it writes. -/
def Coll.dests (c : Coll) (g : FabricGroup) : List (Nat × Nat) :=
  match c.op with
  | 0 => []
  | 1 => [(c.locAddr, c.len)]
  | 2 => [(c.locAddr, 16)]
  | 5 => (if g.rank = c.peer then [] else [(c.dst, c.len)])
      ++ if g.rank = c.buddy then [(c.mirror, c.len + c.w48)] else []
  | _ => if c.getsResult g then [(c.dst, c.resultBytes), (c.hdr, 16)] else []

/-- Is a destination outside scratchpad (05 R105)? That of a PUT or an ATOMIC lies at the peer. -/
def Coll.writesOut (c : Coll) (g : FabricGroup) : Bool :=
  c.op == 0 || c.op == 2 || (c.dests g).any fun r => r.2 != 0 && !spanScratch r.1

/-- Does its effect reach beyond this device or outside scratchpad, so that the primary twin alone performs it (17 R363)? The
receivers of a MULTICAST and the root of a reduction are the destinations of what other members send. -/
def Coll.reachesOut (c : Coll) (g : FabricGroup) : Bool :=
  c.writesOut g || (c.op == 5 && g.rank == c.peer) || ((c.op == 3 || c.op == 4) && g.rank != c.peer)

/-! ## COLL's issue (09 R209, R214) -/

/-- Bytes loaded with the block's own held stores over them (17 R361). -/
def overlayBytes (b : Block) (va : Nat) (bs : List Byte) : List Byte :=
  if b.held.isEmpty then bs
  else bs.mapIdx fun i x => ((heldByte b.held (va + i)).map (BitVec.ofNat 8)).getD x

/-- COLL. -/
def execColl (p : Option Pfx) (rd ra : Reg) (s : State) : Out :=
  issue s { pfx := p, srcs := [(ra, false)], more := [rd.toNat] } fun h =>
    match h.b.team? h.t.slot with
    | none => h.wait .dep
    | some tm =>
      let bad := h.fault { kind := .program codeOperand, addr := h.t.readX ra } 4 64
      if (h.t.readX ra).toNat % 64 ≠ 0 then bad
      else match windowFault h.s h.b.view (h.t.readX ra).toNat 64 with
        | some f => h.fault f 4 64
        | none =>
          match loadBytes h.s h.b.view (h.t.readX ra).toNat 64 with
          | .inr f => h.fault f 4 64
          | .inl (bs, s1) =>
            let d := overlayBytes h.b (h.t.readX ra).toNat bs
            let c := parseColl d
            match fabricGroup h.s h.b.part c.group with
            | none => bad
            | some g =>
              if !collOk c g then bad
              else if engineWaits h tm rd 3 then h.wait (emptyWait h { dsts := [rd] })
              else
                let k : EngKind := .coll d
                let desc : OpDesc := { major := 20, fn := 4, qual := 0, rm := rmAt p h.t, operands := [h.t.readX ra] }
                let out := c.writesOut g
                let ok := ((c.sources g) ++ c.dests g).all fun r => spanOk h.s h.b.view r.1 r.2
                if uncommitted h.b && (out || !((c.dests g).all fun r => regionStoreOk h.b r.1 r.2)) then h.trap 5 6
                else if !ok then h.submit s1 tm p rd 3 k (some (BitVec.ofInt 64 (-2))) desc
                else if twinned h.b && c.reachesOut g then
                  match gateOf h with
                  | .hold => h.holdAt
                  | .replay r => h.bounded true (h.submit (h.share s1 []) tm p rd 3 (.twin (r.headD 0).toNat) none desc)
                  | .go => h.bounded true (h.submit (h.share s1 [BitVec.ofNat 64 h.s.nextId]) tm p rd 3 k none desc)
                else h.bounded out (h.submit s1 tm p rd 3 k none desc)

/-! ## Values of a reduction (18 R381) -/

/-- The largest magnitude of a contribution. -/
def fixMax : Int := 2 ^ 121 - 1

/-- An input element as a contribution: its value, OVR and NAN. -/
def contribution (code q bits : Nat) : Int × Bool × Bool :=
  let clamp := fun (v : Int) =>
    if fixMax < v then (fixMax, true, false) else if v < -fixMax then (-fixMax, true, false) else (v, false, false)
  if 8 ≤ code then clamp (intVal true (codeWidth code) bits * 2 ^ q)
  else match decodeNum (Fmt.ofCode code) bits with
    | .nan _ => (0, false, true)
    | .inf neg => (if neg then -fixMax else fixMax, true, false)
    | .zero _ => (0, false, false)
    | .fin neg m e st => clamp (toInteger .rne (.fin neg m (e + q) st)).1

/-- The element of a result: S and c contributors (18 R381). -/
def reduceResult (code q c : Nat) (mean nan : Bool) (sum : Int) : Nat :=
  let f := Fmt.ofCode code
  if nan then (if 8 ≤ code then 0 else f.canonNaN)
  else
    let den := 2 ^ q * if mean then c else 1
    let m := sum.natAbs * 2 ^ 512 / den
    let st := sum.natAbs * 2 ^ 512 % den != 0
    let x : Num := if sum = 0 then .zero false else .fin (decide (sum < 0)) m (-512) st
    if 8 ≤ code then satInt true (codeWidth code) (toInteger .rne x).1
    else (roundTo f .rne false x).1

/-- The elements of a result, and its OVR and NAN marks. -/
def reduceAll (k : ReduceKey) (got : List (Nat × List (Int × Bool × Bool))) : List Nat × Bool × Bool :=
  let c := got.length
  let at' := fun (i : Nat) => got.map fun g => g.2.getD i (0, false, false)
  let es := (List.range k.len).map fun i =>
    let xs := at' i
    reduceResult k.dfmt.toNat k.q.toNat c k.mean (xs.any fun x => x.2.2) ((xs.map (·.1)).foldl (· + ·) 0)
  (es, got.any fun g => g.2.any fun x => x.2.1, got.any fun g => g.2.any fun x => x.2.2)

/-- The result header (18 R382). -/
def reduceHeader (members : Nat) (got : List (Nat × List (Int × Bool × Bool))) (ovr nan : Bool) : List Byte :=
  let c := got.length
  let bit := fun (b : Bool) (i : Nat) => if b then 2 ^ i else 0
  leBytes 8 (c + bit ovr 16 + bit nan 17 + bit (decide (c < members)) 18)
  ++ leBytes 8 ((got.map fun g => 2 ^ g.1).foldl (· + ·) 0)

def Coll.key (c : Coll) : ReduceKey :=
  { op := BitVec.ofNat 8 c.op, sfmt := BitVec.ofNat 8 c.b1, dfmt := BitVec.ofNat 8 c.b2, q := BitVec.ofNat 8 c.b3,
    len := c.len, mean := c.flags == 1, root := c.peer }

/-! ## Messages (18 R374, R379) -/

/-- The link that leads to a fabric id, where it is up and in fabric mode. -/
def linkTo (s : State) (target : BitVec 12) : Option Nat :=
  match s.routes.find? fun r => r.1 == target with
  | none => none
  | some r => if (s.link r.2).state = 2 ∧ !(s.link r.2).ethernet then some (r.2 % 16) else none

/-- A message leaves, unless no link leads to its target: then it is lost, as on the way. -/
def emit (s : State) (target : BitVec 12) (seq : BitVec 32) (body : FabricBody) : State :=
  match linkTo s target with
  | none => s
  | some l => { s with fabricOut := s.fabricOut ++ [{ link := l, target := target, seq := seq, body := body }] }

/-- The next sequence number from this device to a target (18 R379). -/
def takeSeq (s : State) (target : BitVec 12) : BitVec 32 × State :=
  let n := ((s.nextSeq.find? fun x => x.1 == (s.fid, target)).map (·.2)).getD 0
  (n, { s with nextSeq := (s.nextSeq.filter fun x => x.1 != (s.fid, target)) ++ [((s.fid, target), n + 1)] })

/-- What a root tells a rank of a reduction's group. -/
def tellRank (s : State) (part group step rank : Nat) (done : Bool) (data : List Byte) : State :=
  match fabricGroup s part group with
  | none => s
  | some g => emit s (g.fids.getD rank 0) 0 (.result group step done data)

/-! ## Starting an operation at the head of its queue -/

def State.setOp (s : State) (o : EngOp) : State := { s with ops := s.ops.map fun x => if x.id = o.id then o else x }

/-- The operation ends with a token value. -/
def endOp (s : State) (oid : Nat) (v : Word) : State :=
  { s with
    ops := s.ops.map fun o => if o.id = oid then { o with result := some v } else o,
    outbound := s.outbound.filter fun x => x.op != oid,
    respHeld := s.respHeld.filter fun x => x.op != oid }

/-- A fault of the operation's own accesses: service, or its end. -/
def opFault (s : State) (b : Block) (o : EngOp) (f : AccFault) : State :=
  match f.kind with
  | .serviceable level entry => requestService s b f.addr 4 level entry (.engine o.id) {}
  | .program _ => endOp (consume s b.view f) o.id (faultToken f)

/-- A request leaves for a member; the operation then waits for what comes back. -/
def sendTo (s : State) (o : EngOp) (target : BitVec 12) (body : FabricBody) : State :=
  let (n, s) := takeSeq s target
  let s := emit s target n body
  { s.setOp { o with progress := 1 } with
    outbound := s.outbound ++ [{ op := o.id, seq := n, target := target, body := body, sends := 1, refusals := 0,
                                 firstAt := s.time, lastAt := s.time }] }

/-- The record of an ATOMIC (18 R380): the old value zero-extended from its width. -/
def atomicRecord (width : Nat) (old : Word) (status : Nat) : List Byte :=
  leBytes 8 (if status = 0 then old.toNat % 2 ^ (8 * width) else 0) ++ leBytes 8 status

/-- An atomic of the fabric on this device (18 R378). -/
def fabricAtomic (s : State) (v : View) (aop width : Nat) (addr : Word) (x q : Word) : (Nat × State) ⊕ AccFault :=
  let cut := fun (y : Word) => y.toNat % 2 ^ (8 * width)
  atomicAt s v addr.toNat width fun old => atomicNew aop (8 * width) old (cut x) (cut q)

/-- A target's view of a group's accesses. -/
def groupView (part : Nat) (g : FabricGroup) : View := ctxView part g.rctx

/-- May a request be performed in its context (18 R377)? -/
def remoteOpen (s : State) (p ctx : Nat) : Bool :=
  (s.part p).state != .resetting
  && ((s.ctx? ctx).any fun c => c.part == p && (c.state == .active || c.state == .suspended))

/-! ## Writing what an operation delivers -/

/-- Runs of bytes written in order, from byte k of them on and at most n: how many are written, and the fault that stops
them. -/
def writeRuns (s : State) (v : View) : List (Nat × List Byte) → Nat → Nat → State × Nat × Option AccFault
  | [], _, _ => (s, 0, none)
  | (va, bs) :: rest, k, n =>
    if bs.length ≤ k then writeRuns s v rest (k - bs.length) n
    else
      let now := (bs.drop k).take n
      match storeBytes s v (va + k) now with
      | (s', some f) => (s', (f.addr.toNat + 2 ^ 64 - (va + k) % 2 ^ 64) % 2 ^ 64, some f)
      | (s', none) =>
        if k + now.length < bs.length then (s', now.length, none)
        else
          let (s'', m, f) := writeRuns s' v rest 0 (n - now.length)
          (s'', now.length + m, f)

/-- The largest piece of a transfer in redundant mode (17 R363). -/
def pieceBytes : Nat := 1048576

/-- The part of runs of bytes that lies between two counts of them. -/
def runsBetween : List (Nat × List Byte) → Nat → Nat → List (Nat × Nat)
  | [], _, _ => []
  | (va, bs) :: rest, lo, hi =>
    let own := if lo < min hi bs.length then [(va + lo, min hi bs.length - lo)] else []
    own ++ runsBetween rest (lo - bs.length) (hi - bs.length)

/-- What an operation delivers is written from where it stands, one piece of it in redundant mode; it ends with v after the
last byte. -/
def deliverTo (s : State) (b : Block) (o : EngOp) (v : View) (bad : State → AccFault → State) (ws : List (Nat × List Byte))
    (val : Word) : State :=
  let total := (ws.map (·.2.length)).sum
  let (s1, m, f) := writeRuns s v ws o.wrote (if twinned b then pieceBytes else total)
  let s2 := if v.bid = none then s1
    else (runsBetween ws o.wrote (o.wrote + m)).foldl (fun s r => keepRow s b o r.1 r.2) s1
  let s3 := s2.setOp { o with wrote := o.wrote + m }
  match f with
  | some f => bad s3 f
  | none => if total ≤ o.wrote + m then endOp s3 o.id val else s3

/-- The same in the block's own view. -/
def deliverOwn (s : State) (b : Block) (o : EngOp) (ws : List (Nat × List Byte)) (val : Word) : State :=
  deliverTo s b o b.view (fun s f => opFault s b o f) ws val

/-! ## Operations on this device itself -/

/-- A fault at the target's side of an operation on this device: served in the group's context, or REFUSED (18 R377). -/
def selfFault (b : Block) (o : EngOp) (g : FabricGroup) (s : State) (f : AccFault) : State :=
  match f.kind with
  | .serviceable .. => askService s b.part g.rctx (.engine o.id) 4 f
  | .program _ => endOp (consume s (ctxView b.part g.rctx) f) o.id (faultToken f)

/-- The fault that writing n bytes at va would meet. -/
def writeFault (s : State) (v : View) (va n : Nat) : Option AccFault :=
  match windowFault s v va n with
  | some f => some f
  | none => match locateAll s v needW (addrs va n) with
    | .inr f => some f
    | .inl _ => none

/-- PUT, GET and ATOMIC on this device itself, checked as any target's (18 R377). An ATOMIC's record must be writable before the
atomic is performed, which is performed once. -/
def performSelf (s : State) (b : Block) (o : EngOp) (c : Coll) (g : FabricGroup) : State :=
  let v := groupView b.part g
  let len := BitVec.ofNat 64 c.len
  if !remoteOpen s b.part g.rctx then
    if c.op = 2 then deliverOwn s b o [(c.locAddr, atomicRecord c.b2 0 2)] 16 else endOp s o.id (BitVec.ofInt 64 (-2))
  else match c.op with
  | 0 => match loadBytes s b.view c.locAddr c.len with
    | .inr f => opFault s b o f
    | .inl (bs, s1) => deliverTo s1 b o v (selfFault b o g) [(c.dst, bs)] len
  | 1 => match loadBytes s v c.dst c.len with
    | .inr f => selfFault b o g s f
    | .inl (bs, s1) => deliverOwn s1 b o [(c.locAddr, bs)] len
  | _ => match writeFault s b.view c.locAddr 16 with
    | some f => opFault s b o f
    | none =>
      match fabricAtomic s v c.b1 c.b2 (BitVec.ofNat 64 c.dst) (BitVec.ofNat 64 c.w48) (BitVec.ofNat 64 c.w56) with
      | .inl (old, s1) => deliverOwn s1 b o [(c.locAddr, atomicRecord c.b2 (BitVec.ofNat 64 old) 0)] 16
      | .inr f => match f.kind with
        | .serviceable .. => selfFault b o g s f
        | .program _ => deliverOwn s b o [(c.locAddr, atomicRecord c.b2 0 2)] 16

/-! ## Reductions at their root (18 R381 to R383) -/

/-- The root's own operation of a reduction, with its descriptor. -/
def rootOp (s : State) (r : Reduction) : Option (EngOp × Coll) :=
  s.ops.findSome? fun o => match o.kind with
    | .coll d =>
      let c := parseColl d
      let part := ((s.block? o.bid).map (·.part)).getD 8
      if o.result.isNone ∧ part = r.part ∧ c.group = r.group ∧ c.step = r.step ∧ (c.op = 3 ∨ c.op = 4)
          ∧ 1 ≤ o.progress then some (o, c) else none
    | _ => none

/-- The header and the result of a reduction (18 R381, R382). -/
def reductionBytes (r : Reduction) : List Byte × List Byte :=
  let (es, ovr, nan) := reduceAll r.key r.got
  (reduceHeader r.members r.got ovr nan, es.flatMap fun e => leBytes (elemBytes r.key.dfmt.toNat) e)

/-- The root's result of a step is written; a fault that can be served leaves it to be written again (04 R82). -/
def writeReduction (s : State) (b : Block) (o : EngOp) (c : Coll) (r : Reduction) : State :=
  let (h, es) := reductionBytes r
  deliverOwn s b o [(c.hdr, h), (c.dst, es)] (BitVec.ofNat 64 c.resultBytes)

/-- Is a reduction that of a step? -/
def Reduction.isStep (part group step : Nat) (x : Reduction) : Bool := x.part == part && x.group == group && x.step == step

/-- Does a contribution come after its step has completed without it (18 R383)? One that a completed step counted begins the
step anew (DESIGN CHOICE, log 84). -/
def missedStep (s : State) (part group step rank : Nat) : Bool :=
  let mine := s.reductions.filter (Reduction.isStep part group step)
  mine.all (·.closed) && mine.any fun r => !(r.got.any fun g => g.1 == rank)

/-- The other members that contributed learn how the step ended: the same header and result under ALLREDUCE, −4 where it has
none (18 R381 to R383). -/
def tellMembers (s : State) (r : Reduction) (ok : Bool) : State :=
  let data := if ok ∧ r.key.op = 4 then (reductionBytes r).1 ++ (reductionBytes r).2 else []
  (r.got.filter fun g => g.1 != r.key.root).foldl (fun s g => tellRank s r.part r.group r.step g.1 ok data) s

/-- The step completes with what it has, or without a result. What an earlier use of its number left goes. -/
def closeReduction (s : State) (r : Reduction) (ok : Bool) : State :=
  let mine := Reduction.isStep r.part r.group r.step
  let s : State := { s with
    reductions := (s.reductions.filter fun x => !(mine x && x.closed)).map fun x =>
      if mine x then { x with closed := true } else x }
  let s := tellMembers s r ok
  match rootOp s r with
  | none => s
  | some (o, c) =>
    match s.block? o.bid with
    | none => s
    | some b =>
      if !ok then endOp s o.id (BitVec.ofInt 64 (-4))
      else
        let s := s.setOp { o with progress := 2 }
        if twinned b then s else writeReduction s b { o with progress := 2 } c r

/-- Have all contributions of a step come, and stands the root's own operation on this device? While its block is captured the
step waits for it (16 R339). -/
def reductionFull (s : State) (r : Reduction) : Bool := decide (r.members ≤ r.got.length) && (rootOp s r).isSome

/-- A contribution reaches the root; one that comes after its step completed without it is answered with −4 (18 R383). -/
def addContribution (s : State) (con : Contribution) (members minc qto : Nat) : State :=
  let same := fun (x : Reduction) => x.isStep con.part con.group con.step && !x.closed
  match s.reductions.find? same with
  | some r =>
    if r.got.any fun g => g.1 == con.rank then s
    else
      let r' : Reduction := { r with
        got := r.got ++ [(con.rank, con.vals)],
        mismatch := r.mismatch || r.key != con.key,
        minc := max r.minc minc,
        qto := max r.qto qto }
      let s : State := { s with reductions := s.reductions.map fun x => if same x then r' else x }
      if reductionFull s r' then closeReduction s r' (!r'.mismatch) else s
  | none =>
    if missedStep s con.part con.group con.step con.rank then
      tellRank s con.part con.group con.step con.rank false []
    else
      let r : Reduction := { part := con.part, group := con.group, step := con.step, members := members, key := con.key,
                             minc := minc, qto := qto, mismatch := false, got := [(con.rank, con.vals)], closed := false,
                             firstAt := s.time }
      let s : State := { s with reductions := s.reductions ++ [r] }
      if reductionFull s r then closeReduction s r true else s

/-- This device's own part in a reduction: its inputs converted, to the root or into the step. -/
def startReduce (s : State) (b : Block) (o : EngOp) (c : Coll) (g : FabricGroup) : State :=
  let eb := elemBytes c.b1
  match loadBytes s b.view c.locAddr (c.len * eb) with
  | .inr f => opFault s b o f
  | .inl (bs, s1) =>
    let con : Contribution :=
      { part := b.part, group := c.group, step := c.step, rank := g.rank, key := c.key,
        vals := (List.range c.len).map fun i => contribution c.b1 c.b3 (field bs (i * eb) eb) }
    if g.rank ≠ c.peer then sendTo s1 o (g.fids.getD c.peer 0) (.contribution con)
    else if missedStep s1 b.part c.group c.step g.rank then endOp s1 o.id (BitVec.ofInt 64 (-4))
    else addContribution (s1.setOp { o with progress := 1 }) con g.n c.minc c.qto

/-! ## The other operations -/

/-- A MULTICAST begins: the source mirrors its bytes where it is its own buddy and sends them to every other member, to the
buddy with the state after them (18 R384); the others wait for them. -/
def startMulticast (s : State) (b : Block) (o : EngOp) (c : Coll) (g : FabricGroup) : State :=
  if g.rank ≠ c.peer then s.setOp { o with progress := 1 }
  else match loadBytes s b.view c.locAddr c.sentBytes with
    | .inr f => opFault s b o f
    | .inl (bs, s1) =>
      match storeBytes s1 b.view c.mirror (if g.rank = c.buddy then bs else []) with
      | (s2, some f) => opFault s2 b o f
      | (s2, none) =>
        let s2 := if g.rank = c.buddy then keepRow s2 b o c.mirror bs.length else s2
        if g.n = 1 then endOp s2 o.id (BitVec.ofNat 64 c.len)
        else ((List.range g.n).filter (· != g.rank)).foldl (fun s r =>
          sendTo s o (g.fids.getD r 0) (.multicast c.group c.step (if r = c.buddy then bs else bs.take c.len))) s2

/-- A PUT to a peer: its bytes leave, one piece of them in redundant mode (17 R363). -/
def startPut (s : State) (b : Block) (o : EngOp) (c : Coll) (g : FabricGroup) : State :=
  match loadBytes s b.view c.locAddr c.len with
  | .inr f => opFault s b o f
  | .inl (bs, s1) =>
    let now := (bs.drop o.wrote).take (if twinned b then pieceBytes else c.len)
    let done := c.len ≤ o.wrote + now.length
    let s2 := sendTo s1 { o with wrote := o.wrote + now.length } (g.fids.getD c.peer 0)
      (.put g.rctx (BitVec.ofNat 64 (c.dst + o.wrote)) now)
    if done then s2 else s2.setOp { o with wrote := o.wrote + now.length }

/-- What a response has an operation write, in order, and the value its token then takes (18 R376 to R384). -/
def responseWrites (c : Coll) (g : FabricGroup) (resp : RemoteResp) : List (Nat × List Byte) × Word :=
  let timeout := BitVec.ofInt 64 (-4)
  match c.op with
  | 0 => ([], if resp.done then BitVec.ofNat 64 c.len else BitVec.ofInt 64 (-2))
  | 1 => if resp.done then ([(c.locAddr, resp.data.take c.len)], BitVec.ofNat 64 c.len) else ([], BitVec.ofInt 64 (-2))
  | 2 => ([(c.locAddr, atomicRecord c.b2 resp.old (if resp.done then 0 else 2))], 16)
  | 3 => ([], if resp.done then 0 else timeout)
  | 4 =>
    if !resp.done then ([], timeout)
    else ([(c.hdr, resp.data.take 16), (c.dst, (resp.data.drop 16).take c.resultBytes)], BitVec.ofNat 64 c.resultBytes)
  | _ =>
    if !resp.done then ([], timeout)
    else if g.rank = c.peer then ([], BitVec.ofNat 64 c.len)
    else ((if g.rank = c.buddy then [(c.mirror, resp.data.take (c.len + c.w48))] else []) ++ [(c.dst, resp.data.take c.len)],
          BitVec.ofNat 64 c.len)

/-- A response is taken: what it brings is written, and the operation ends. -/
def takeResponse (s : State) (b : Block) (o : EngOp) (c : Coll) (g : FabricGroup) (resp : RemoteResp) : State :=
  deliverOwn s b o (responseWrites c g resp).1 (responseWrites c g resp).2

/-- A response is held, and what it brings is written from then on. In redundant mode each piece of it waits for a compare
(17 R363). -/
def takeOrHold (s : State) (b : Block) (o : EngOp) (c : Coll) (g : FabricGroup) (resp : RemoteResp) : State :=
  let o2 : EngOp := { o with progress := 2, wrote := 0 }
  let s1 : State := { s.setOp o2 with
    outbound := s.outbound.filter fun x => x.op != o.id,
    respHeld := (s.respHeld.filter fun x => x.op != o.id) ++ [resp] }
  if twinned b && !(responseWrites c g resp).1.isEmpty then s1 else takeResponse s1 b o2 c g resp

/-- What an operation of which every step is done still has to write. -/
def resumeColl (s : State) (b : Block) (o : EngOp) (c : Coll) (g : FabricGroup) : State :=
  match s.respHeld.find? fun x => x.op == o.id with
  | some resp => takeResponse s b o c g resp
  | none => match s.reductions.find? fun r => r.isStep b.part c.group c.step && r.closed with
    | some r => writeReduction s b o c r
    | none => endOp s o.id (BitVec.ofInt 64 (-4))

/-- The progress at which a COLL is issued again: the recorded step (16 R339). A root whose step the device no longer knows
begins again. -/
def restoredStep (s : State) (b : Block) (d : List Byte) (progress : Nat) : Nat :=
  let c := parseColl d
  let root := (c.op == 3 || c.op == 4) && (fabricGroup s b.part c.group).any fun g => g.rank == c.peer
  let known := s.reductions.any fun r => r.part == b.part && r.group == c.group && r.step == c.step
  if root && !known then 0 else progress

/-- The result that a COLL issued again from its descriptor has: the bytes of an operation of which every step is done, or −4
where its step has ended without it (16 R339). -/
def restoredColl (s : State) (b : Block) (d : List Byte) (progress : Nat) : Option Word :=
  let c := parseColl d
  let reduces := c.op == 3 || c.op == 4
  let done := decide (2 ≤ progress) || (decide (c.op ≤ 2) && decide (1 ≤ progress))
  let red := s.reductions.find? fun r => r.part == b.part && r.group == c.group && r.step == c.step
  if done then
    if reduces && red.isSome then none
    else some (BitVec.ofNat 64 (if c.op = 2 then 16 else if reduces then c.resultBytes else c.len))
  else if reduces && progress == 1 && red.any (·.closed) then some (BitVec.ofInt 64 (-4))
  else none

/-- A COLL whose descriptor a canvas from elsewhere names reads it at its turn; where it breaks its limits the operation ends
with −2 (DESIGN CHOICE, log 18). -/
def readDescriptor (s : State) (b : Block) (o : EngOp) : State :=
  match loadBytes s b.view (o.desc.operands.getD 0 0).toNat 64 with
  | .inr f => opFault s b o f
  | .inl (d, s1) =>
    if (fabricGroup s b.part (parseColl d).group).any (collOk (parseColl d)) then
      s1.setOp { o with
        kind := .coll d, progress := restoredStep s1 b d o.progress, result := restoredColl s1 b d o.progress }
    else endOp s1 o.id (BitVec.ofInt 64 (-2))

/-- The collective engine takes up an operation whose turn has come. -/
def startColl (s : State) (b : Block) (o : EngOp) (d : List Byte) : State :=
  let c := parseColl d
  if d.isEmpty then readDescriptor s b o
  else match fabricGroup s b.part c.group with
  | none => endOp s o.id (BitVec.ofInt 64 (-2))
  | some g =>
    let peer := g.fids.getD c.peer 0
    if o.progress = 2 then resumeColl s b o c g
    else if c.op = 3 ∨ c.op = 4 then startReduce s b o c g
    else if c.op = 5 then startMulticast s b o c g
    else if g.rank = c.peer then performSelf s b o c g
    else if c.op = 0 then startPut s b o c g
    else if c.op = 1 then sendTo s o peer (.get g.rctx (BitVec.ofNat 64 c.dst) c.len)
    else match writeFault s b.view c.locAddr 16 with
      | some f => opFault s b o f
      | none => sendTo s o peer
          (.atomic g.rctx c.b1 c.b2 (BitVec.ofNat 64 c.dst) (BitVec.ofNat 64 c.w48) (BitVec.ofNat 64 c.w56))

/-- Does the next step of a collective operation make a compare of its own: the primary's, where its effect reaches out
(17 R363)? A GET's request writes nothing. -/
def collPiece (s : State) (b : Block) (o : EngOp) : Bool :=
  twinned b && b.primary && match o.kind with
    | .coll d =>
      let c := parseColl d
      !d.isEmpty && o.progress != 1 && (fabricGroup s b.part c.group).any fun g =>
        c.reachesOut g && !(o.progress == 0 && c.op == 1 && g.rank != c.peer)
    | _ => false

/-! ## What arrives for this device's own operations -/

/-- The operation that a response is awaited for. -/
def outstanding (s : State) (oid : Nat) : Option (EngOp × Block × Coll × FabricGroup) :=
  match s.ops.find? fun o => o.id == oid && o.result.isNone &&
      (o.progress == 1 || (o.progress == 0 && s.outbound.any fun x => x.op == oid)) with
  | none => none
  | some o =>
    match o.kind, s.block? o.bid with
    | .coll d, some b =>
      let c := parseColl d
      if d.isEmpty then none
      else (fabricGroup s b.part c.group).bind fun g =>
        if (c.op = 3 ∨ c.op = 4) ∧ g.rank = c.peer then none else some (o, b, c, g)
    | _, _ => none

/-- Is a response one of several that an operation awaits: a PUT sent in pieces, or a MULTICAST at its source? -/
def awaitsMore (s : State) (o : EngOp) (c : Coll) (g : FabricGroup) : Bool :=
  (c.op == 0 || (c.op == 5 && g.rank == c.peer))
  && (o.progress == 0 || decide (1 < (s.outbound.filter fun x => x.op == o.id).length))

/-- The first request of an operation that is still open is answered. -/
def dropFirst (op : Nat) : List Outbound → List Outbound
  | [] => []
  | x :: rest => if x.op = op then rest else x :: dropFirst op rest

/-- Is an operation one of a captured block's, still without a result (16 R339)? -/
def capturedOp (s : State) (oid : Nat) : Bool :=
  s.captured.any fun c => c.blocks.any fun b => b.kept.any fun o => o.id == oid && o.result.isNone

/-- REMOTE_RESPONSE (18 R377 to R384): what came back for an outstanding request. A refusal with bytes says that the target
had no cache entry free; the request then goes on being sent (18 R379). What comes for a captured block's operation is kept for
its restore (16 R339). -/
def execRemoteResponse (resp : RemoteResp) (s : State) : Out :=
  match outstanding s resp.op with
  | none =>
    if capturedOp s resp.op && !(s.respHeld.any fun x => x.op == resp.op) then
      .next { s with
        outbound := s.outbound.filter fun x => x.op != resp.op, respHeld := s.respHeld ++ [resp] }
    else .next s
  | some (o, b, c, g) =>
    if !resp.done ∧ c.op = 2 ∧ !resp.data.isEmpty then
      .next { s with
        outbound := s.outbound.map fun x => if x.op = resp.op then { x with refusals := x.refusals + 1 } else x }
    else if resp.done && awaitsMore s o c g then .next { s with outbound := dropFirst resp.op s.outbound }
    else .next (takeOrHold s b o c g resp)

/-- REMOTE_RETRANSMIT (18 R379): the request is sent again under its number. -/
def execRemoteRetransmit (op : Nat) (s : State) : Out :=
  let s1 := (s.outbound.filter fun x => x.op == op).foldl (fun s x => emit s x.target x.seq x.body) s
  .next { s1 with
    outbound := s.outbound.map fun x => if x.op = op then { x with sends := x.sends + 1, lastAt := s.time } else x }

/-- The record of an ATOMIC without a response is written; where it meets a fault that can be served, the operation goes on as
one still to be given up. -/
def takeRecord (s : State) (b : Block) (o : EngOp) (c : Coll) (status : Nat) : State :=
  deliverOwn s b o [(c.locAddr, atomicRecord c.b2 0 status)] 16

/-- REMOTE_GIVE_UP (18 R379, R380): an ATOMIC that every send saw refused is REFUSED, any other INDETERMINATE; the other
operations end without a result. -/
def execRemoteGiveUp (op : Nat) (s : State) : Out :=
  match outstanding s op with
  | none => .next s
  | some (o, b, c, _) =>
    let refused := s.outbound.any fun x => x.op == op && decide (x.sends ≤ x.refusals)
    if c.op = 2 then .next (takeRecord s b o c (if refused then 2 else 1))
    else .next (endOp s op (BitVec.ofInt 64 (-4)))

/-- REDUCE_CONTRIBUTION (18 R381, R383): another member's contribution reaches this device as root. -/
def execReduceContribution (con : Contribution) (s : State) : Out :=
  match fabricGroup s con.part con.group with
  | none => .next s
  | some g => .next (addContribution s con g.n 0 0)

/-- Has the quorum timer of a step expired, with its completion not in the host's hands? -/
def quorumOver (s : State) (r : Reduction) : Bool :=
  !r.closed && r.qto != 0 && decide (r.firstAt + micros r.qto ≤ s.time)
  && !((s.part r.part).assists.any fun a => a.fn == 5 && a.ref == r.group * 2 ^ 32 + r.step)

/-- Can a step complete short: enough members contributed, and they match? -/
def quorumOk (r : Reduction) : Bool := decide (r.minc ≤ r.got.length) && !r.mismatch

/-- QUORUM_TIMEOUT (18 R383). With COLLQ host-assisted, completing short is the host's to decide (13 R280). -/
def execQuorumTimeout (group step : Nat) (s : State) : Out :=
  match s.reductions.find? fun r => r.group == group && r.step == step && quorumOver s r with
  | none => .next s
  | some r =>
    let ctx := ((rootOp s r).map fun x => x.1.ctx).getD 0
    if quorumOk r && hostAssisted s r.part 5 then
      let ref := group * 2 ^ 32 + step
      .next (postAssist s r.part 5 ctx ref (leBytes 2 group ++ leBytes 4 step)).1
    else .next (closeReduction s r (quorumOk r))

/-! ## Requests of other devices (18 R377, R379) -/

/-- A request waits for the service of a fault, of which one request is open for a page. -/
def holdRemote (s : State) (req : RemoteReq) (f : AccFault) : State :=
  let s : State := { s with remoteHeld := s.remoteHeld ++ [req] }
  askService s req.part req.ctx .remote 4 f

/-- The answer to a request goes back to its source. -/
def answerRemote (s : State) (req : RemoteReq) (done again : Bool) (old : Word) (data : List Byte) : State :=
  emit s req.src req.seq (.answer done again old data)

/-- A request whose access met a fault: held for its service, or REFUSED. -/
def faultRemote (s : State) (req : RemoteReq) (f : AccFault) : State :=
  match f.kind with
  | .serviceable .. => holdRemote s req f
  | .program _ => answerRemote s req false false 0 []

/-- Entries of the result cache younger than 2 ms. -/
def youngResults (s : State) : Nat :=
  (s.results.filter fun x => s.time < x.performedAt + micros 2000).length

/-- A request is performed or refused, and answered, or held for the service of a fault; a retransmitted ATOMIC whose result is
cached gets the cached old value and is not performed again, and one that finds no cache entry is refused for now. -/
def performRemote (s : State) (req : RemoteReq) : State :=
  if !remoteOpen s req.part req.ctx then answerRemote s req false false 0 []
  else
    let v : View := ctxView req.part req.ctx
    match req.kind with
    | .put addr data =>
      match storeBytes s v addr.toNat data with
      | (s', none) => answerRemote s' req true false 0 []
      | (s', some f) => faultRemote s' req f
    | .get addr len =>
      match loadBytes s v addr.toNat len with
      | .inl (bs, s') => answerRemote s' req true false 0 bs
      | .inr f => faultRemote s req f
    | .atomic aop width addr x q =>
      match s.results.find? fun r => r.src == req.src && r.seq == req.seq with
      | some r => answerRemote s req true false r.old []
      | none =>
        if 4096 ≤ youngResults s then answerRemote s req false true 0 []
        else match fabricAtomic s v aop.toNat width addr x q with
          | .inr f => faultRemote s req f
          | .inl (old, s') =>
            answerRemote { s' with
              results := (s'.results.drop (s'.results.length - 4095))
                ++ [{ src := req.src, seq := req.seq, old := BitVec.ofNat 64 old, performedAt := s.time }] }
              req true false (BitVec.ofNat 64 old) []

/-- A request that arrives after a held one of the same source waits behind it (18 R378). -/
def takeRemote (s : State) (req : RemoteReq) : State :=
  if s.remoteHeld.any fun r => r.src == req.src then { s with remoteHeld := s.remoteHeld ++ [req] } else performRemote s req

/-- The held requests are taken up again, in the order in which they came. -/
def retryRemote (s : State) : State := s.remoteHeld.foldl takeRemote { s with remoteHeld := [] }

/-- Would a held request meet a fault on the page of another address? -/
def stoppedAt (s : State) (part ctx : Nat) (va : Word) (req : RemoteReq) : Bool :=
  let v : View := ctxView req.part req.ctx
  let f := match req.kind with
    | .put addr data => (storeBytes s v addr.toNat data).2
    | .get addr len => match loadBytes s v addr.toNat len with
      | .inl _ => none
      | .inr f => some f
    | .atomic aop width addr x q => match fabricAtomic s v aop.toNat width addr x q with
      | .inl _ => none
      | .inr f => some f
  req.part == part && req.ctx == ctx && f.any fun f => f.addr.toNat / 4096 == va.toNat / 4096

/-- The requests that a fault nothing can serve stops are REFUSED; the others are taken up again. -/
def refuseRemote (s : State) (part ctx : Nat) (va : Word) : State :=
  s.remoteHeld.foldl (fun s req =>
    if stoppedAt s part ctx va req then answerRemote s req false false 0 [] else takeRemote s req) { s with remoteHeld := [] }

/-- REMOTE_REQUEST (18 R377 to R379). -/
def execRemoteRequest (req : RemoteReq) (s : State) : Out := .next (takeRemote s req)

end Sys2Proof.Machine
end

