-- ==== Sys2Proof/Machine/Restart.lean ====
section
/-! DEFINITION. Going back: the rewind of a block to its restart snapshot (10 R240), the rollback of a block or cluster to its
pentimento (17 R356 to R358), the re-issue of what was in flight (09 R224, 16 R338), and the restart of access slices
(10 R246). -/

namespace Sys2Proof.Machine

/-! ## Engine operations of a block -/

/-- Team slots whose counters an operation counts in. -/
def opSlots (o : EngOp) : List Nat := match o.kind with
  | .mma _ _ _ _ teams => teams
  | _ => [o.slot]

/-- The counters as the outstanding operations give them (02 R46). -/
def recount (ops : List EngOp) (b : Block) : Block :=
  let count := fun (slot c : Nat) =>
    (ops.filter fun o => o.bid == b.bid && o.cls == c && (opSlots o).contains slot).length
  { b with teams := b.teams.map fun tm => { tm with ctr := Vector.ofFn fun i => count tm.slot i.val } }

/-! ## Access slices (10 R246) -/

/-- Each access context that had run restarts at .access with its start registers; the pushes that were popped before are
discarded again. -/
def restartAccess (b : Block) (since : Nat) : Block :=
  match b.kernel.access with
  | none => b
  | some entry =>
    let fresh := b.teams.flatMap fun tm =>
      if tm.held && tm.accessRun then
        (b.live tm.slot).map fun t =>
          accessThread b.kernel entry since tm.slot t.lane (tm.startRegs.getD t.lane (List.replicate 32 0))
      else []
    { b with
      access := fresh,
      teams := b.teams.map fun tm => { tm with fq := Vector.replicate 128 [], drop := tm.pops } }

/-- Every thread is to execute its instruction afresh: no wait of it, no limit of a RECONV, no spawn decision and no turn to
send stands (01 R33, 07 R167, R175). -/
def freshWaits (since : Nat) (b : Block) : Block :=
  { b with
    threads := b.threads.map fun t => { t with wait := .ready, since := since, reconv := none, parking := none },
    teams := b.teams.map fun tm => { tm with senders := [] } }

/-! ## Rewind (10 R240) -/

/-- The registers of a thread with its restart-live values. -/
def liveRegs (k : Kernel) (wb : Nat) (live : List Word) : Vector Word 256 :=
  Vector.ofFn fun i =>
    if wb + k.restartFirst ≤ i.val ∧ i.val < wb + k.restartFirst + k.restartCount then
      live.getD (i.val - wb - k.restartFirst) 0
    else 0

/-- A thread after a rewind to its entry in the snapshot. Arrivals at cluster and grid barriers are irrevocable and stand as
they are. -/
def rewindThread (b : Block) (sn : Snapshot) (since i : Nat) (t : Thread) : Thread :=
  match sn.threads.find? fun e => e.tid == t.tid with
  | none => t
  | some e =>
    { gessoThread b.kernel [] since t.tid e.slot e.lane with
      life := e.life, spawned := e.spawned, wb := e.wb, spth := e.spth, rm := e.rm, tvec := e.tvec, fpst := e.fpst,
      regs := liveRegs b.kernel e.wb e.live, pc := b.label,
      outst := (sn.outst.getD i []).filter (·.inBlock) ++ t.outst.filter fun o => !o.inBlock }

/-- The scratchpad of the snapshot, with the staging ranges as they are now (05 R109, 10 R240). -/
def keepStaging (staging : List (Nat × Nat)) (now was : Cells) : Cells :=
  staging.foldl (fun c r => cellsPut c r.1 (cellsBytes now r.1 r.2)) was

/-- The block at its restart label and snapshot. -/
def rewindBlock (ops : List EngOp) (since : Nat) (b : Block) (sn : Snapshot) : Block :=
  let b : Block := { b with
    threads := b.threads.mapIdx (rewindThread b sn since),
    teams := b.teams.mapIdx fun i tm =>
      { tm with
        held := sn.held.getD i false, pops := sn.pops.getD i (Vector.replicate 128 0), cells := [], claims := [], senders := [],
        accessRun := ((sn.ran[i]?).map (·.1)).getD tm.accessRun, startRegs := ((sn.ran[i]?).map (·.2)).getD tm.startRegs,
        guards := tm.guards.map fun g => { g with state := .free } },
    spawn := sn.spawn, bars := sn.bars, conv := sn.conv, groups := sn.groups, rounds := [], arrivals := [], shadows := [],
    scratch := keepStaging b.kernel.staging b.scratch sn.scratch,
    handles := sn.handles.map fun x => { x with skp := false }, cursor := sn.cursor, commitVals := [], held := [], cmpAt := [] }
  restartAccess (recount ops b) since

/-- The rewind of a block: what it issued after the commit is abandoned, and what it issued before goes on (10 R240, 16 R338). -/
def rewind (s : State) (bid : Nat) : State :=
  match s.block? bid with
  | none => s
  | some b =>
    match b.snap with
    | none => s
    | some sn =>
      let ops := s.ops.filter fun o => !(o.bid == bid && o.after)
      let s : State := { s with
        ops := ops, prods := s.prods.filter fun p => p.bid != bid || (!p.acc && !p.after) }
      s.onBlock bid fun b => rewindBlock ops s.cycle b sn

/-! ## Re-issue (09 R224, 16 R338) -/

/-- Size and extension of a recorded LD or LDZ (16 R338, 06 R131). -/
def loadSize (d : OpDesc) : Nat × Bool := (2 ^ (d.qual / 8 % 4), decide (32 ≤ d.qual))

/-- A load in flight is made afresh; one that meets a fault is made again once its block runs on. -/
def reissueLoad (s : State) (p : Prod) : State :=
  let (n, zx) := loadSize p.desc
  let va := (p.desc.operands.headD 0).toNat
  let put := fun (s : State) (q : Prod) => { s with prods := s.prods.map fun x => if x.id = q.id then q else x }
  match s.block? p.bid with
  | none => s
  | some b =>
    match loadAt s b.view va n with
    | .inl (x, s) =>
      put s { p with val := extended zx n (overlay b va n x), ready := true, due := s.cycle + Config.latLoad }
    | .inr f =>
      match b.thread? false p.tid with
      | none => s
      | some t => accessFault (put s { p with ready := false }) b t false f t.pc 1 n

/-- Loads of a block that wait to be made afresh. -/
def reissueLoads (s : State) (bid : Nat) : State :=
  (s.prods.filter fun p => p.bid == bid && !p.acc && p.kind == .load && !p.ready).foldl reissueLoad s

/-- A producer as a restore finds it: TSTAMP reads the clock afresh, a weak load is to be made again; the others keep their
values. -/
def restoredProd (s : State) (p : Prod) : Prod :=
  match p.kind with
  | .load => if p.acc then p else { p with ready := false }
  | .tstamp => { p with val := ptpPacked s, due := s.cycle + Config.latSpecial }
  | _ => p

/-! ## Rollback (17 R356 to R358) -/

/-- Strong loads and atomics are awaited: their values are in the image (09 R224). -/
def awaited (p : Prod) : Bool := p.kind == .strong || p.kind == .atomic

/-- Values delivered in a block. -/
def deliverAll (ps : List Prod) (b : Block) : Block :=
  { b with
    threads := b.threads.map fun t => (ps.filter fun p => !p.acc && p.tid == t.tid).foldl (fun t p => deliver p t) t }

/-- Threads that an image brings back to life count again in the cluster's and grid's barriers (01 R22). -/
def recountBar (old new : List Thread) (x : Bar) : Bar :=
  let back := new.filter fun t =>
    t.life != .exited && old.any fun u => u.tid == t.tid && u.life == .exited
  { x with
    expected := x.expected + back.length,
    arrived := x.arrived + (back.filter fun t => t.outst.contains x.id).length }

/-- Outstanding arrivals at cluster and grid barriers stand as they are. -/
def keepArrivals (old : List Thread) (t : Thread) : Thread :=
  match old.find? fun u => u.tid == t.tid && u.life != .exited with
  | none => t
  | some u => { t with outst := t.outst.filter (·.inBlock) ++ u.outst.filter fun o => !o.inBlock }

/-- The block as an image has it; a cluster's member that had ended runs again. -/
def imageBlock (now : Block) (p : Pentimento) (since : Nat) : Block :=
  let b := deliverAll (p.prods.filter awaited) p.image
  let kept := now.grants ++ b.grants.filter fun g => !(now.grants.any fun x => x.1 == g.1)
  let b : Block := { b with
    die := now.die, core := now.core, state := (if now.state = .ended then .running else now.state), twin := now.twin, primary := now.primary,
    mismatched := now.mismatched, errorBanks := now.errorBanks, grants := kept, opDone := now.opDone, capRead := now.capRead, cmpAt := [],
    arrivals := [],
    threads := b.threads.map (keepArrivals now.threads) }
  restartAccess (freshWaits since b) since

/-- A block takes an image's state. Matrix work in flight at the boundary is done again; other engine operations issued before
it go on; what came after is abandoned (05 R109). -/
def rollbackTo (s : State) (now : Block) (p : Pentimento) : State :=
  let mine := fun (o : EngOp) => o.bid == now.bid
  let redo := p.ops.filter fun o => o.isMatrix
  let go := (s.ops.filter fun o => mine o && !o.isMatrix).filterMap fun o =>
    (p.ops.find? fun x => x.id == o.id).map fun x =>
      { o with tok := x.tok, orphan := x.orphan, binding := if o.orphan && !x.orphan then x.binding else o.binding }
  let ops := (s.ops.filter fun o => !mine o) ++ redo ++ go
  let prods := (s.prods.filter fun x => x.bid != now.bid)
    ++ ((p.prods.filter fun x => !awaited x && !x.acc).map (restoredProd s))
  let b := settleBlock (recount ops (imageBlock now p s.cycle))
  let s : State := { s with
    ops := ops, prods := prods,
    launches := s.launches.map fun l =>
      if l.lid = now.launch then { l with bars := l.bars.map (recountBar now.threads b.threads) } else l,
    clusters := s.clusters.map fun c =>
      if c.cid = now.cluster then { c with bars := c.bars.map (recountBar now.threads b.threads) } else c }
  reissueLoads (s.onBlock now.bid fun _ => b) now.bid

/-- The image a block rolls back to. copied: the erroneous word was already copied to the latest image, which then is
completed; otherwise the one before, unless an irrevocable action lies between (17 R356). -/
def rollbackImage (s : State) (bid : Nat) (copied : Bool) : Option Pentimento :=
  let mine := s.pents.filter fun p => p.bid == bid
  match mine.getLast? with
  | none => none
  | some p =>
    if p.complete || copied then some p
    else if p.irrev then none
    else (mine.filter (·.complete)).getLast?

/-- Blocks that roll back together (17 R358). -/
def rollbackSet (s : State) (b : Block) : List Block :=
  if b.csize = 1 then [b] else s.blocks.filter fun x => x.cluster == b.cluster

/-- The rollback of a block or its cluster; without a usable image the context faults with CAUSE 13. -/
def rollback (s : State) (bid : Nat) (copied : Bool) : State :=
  match s.block? bid with
  | none => s
  | some b =>
    let set := rollbackSet s b
    if set.all fun x => (rollbackImage s x.bid copied).isSome then
      set.foldl (fun s x =>
        match rollbackImage s x.bid copied with
        | some p =>
          let s : State := { s with
            pents := (s.pents.filter fun q => q.bid != x.bid) ++ [{ p with complete := true }] }
          rollbackTo s x p
        | none => s) s
    else
      postRecord (contextFault s b.ctx) b.part (recordBytes s 13 b.ctx 0xFFFF b.grid.toNat b.idx 0 0 [])

end Sys2Proof.Machine
end

