-- ==== Sys2Proof/Machine/Complete.lean ====
section
/-! DEFINITION. Completions: long-latency producers (02 R38), engine operations (05 R104), instruction lines (12 R260), team
formation (01 R28), the limit of RECONV (01 R29), pentimenti (17 R355) and the compares of redundant mode (17 R362 to R364). -/

namespace Sys2Proof.Machine

/-! ## Producers -/

/-- LONG_LATENCY_COMPLETE (02 R38): the value is written and its destination becomes full. -/
def execLongLatencyComplete (op : Nat) (s : State) : Out :=
  match s.prods.find? fun p => p.id == op && p.ready with
  | none => .next s
  | some p =>
    let s : State := { s with prods := s.prods.filter fun x => x.id != op }
    .next (s.onBlock p.bid fun b =>
      match b.thread? p.acc p.tid with
      | some t => b.setThread p.acc (deliver p t)
      | none => b)

/-! ## Engine operations -/

/-- What an operation signals: its token is filled and its counters fall (05 R104, 02 R47). -/
def signalOp (o : EngOp) (v : Word) (b : Block) : Block :=
  let b := match if o.cls < 4 then o.tok else none with
    | some y => { b with threads := b.threads.map fun t => if t.tid = o.tid ∧ !o.orphan then t.setY y v else t }
    | none => b
  if o.cls < 4 then
    { b with
      teams := b.teams.map fun tm =>
        if (opSlots o).contains tm.slot then tm.setCount o.cls (tm.count o.cls - 1) else tm }
  else b

/-- A pentimento follows the operations issued before it (17 R356): here an operation's signal, as the image has the
operation. -/
def signalImages (s : State) (o : EngOp) (v : Word) : State :=
  { s with
    pents := s.pents.map fun p => match if p.bid = o.bid then p.ops.find? fun x => x.id == o.id else none with
      | some x => { p with image := signalOp x v p.image, ops := p.ops.filter fun y => y.id != o.id }
      | none => p }

/-- Is the operation done again after a rollback, instead of going on? -/
def redone (o : EngOp) : Bool := match o.kind with
  | .astore .. => false
  | _ => o.isMatrix

/-- The operation completes with a token value. A secondary twin's instance takes the same result (17 R363). -/
def completeOp (s : State) (o : EngOp) (v : Word) : State :=
  let s : State := { s with
    ops := (s.ops.filter fun x => x.id != o.id).map fun x =>
      if x.kind = .twin o.id then { x with result := some v } else x }
  let s := s.onBlock o.bid (signalOp o v)
  let s := match (s.block? o.bid).bind (·.twin) with
    | some w => s.onBlock w fun x => if x.primary then x else { x with opDone := x.opDone ++ [(o.id, v)] }
    | none => s
  let s := if redone o then s else signalImages s o v
  drainMatrix (s.onBlock o.bid settleBlock) o.bid

/-- An operation of the matrix unit that no access serves any more ends: ERROR on its handle, and its counters fall (10 R234,
R236, R237). -/
def errorOp (s : State) (oid : Nat) : State :=
  match s.ops.find? fun o => o.id == oid with
  | none => s
  | some o => match handlesOf o.kind with
    | n :: _ => completeOp (s.onBlock o.bid fun b => b.setHandle n { b.handle n with map := 1 }) o 0
    | [] => s

/-- Rows of bytes that a transfer delivers between two points of its progress. -/
def delivered (k : EngKind) (p0 p1 : Nat) : List (Nat × Nat) :=
  let rows := fun (dst ds len h : Nat) =>
    ((List.range h).map fun i =>
      let lo := max p0 (i * len)
      let hi := min p1 ((i + 1) * len)
      (dst + i * ds + (lo - i * len), hi - lo)).filter fun r => r.2 != 0
  match k with
  | .tileld _ dst _ ds len h typ => rows dst.toNat ds (tileDst len h typ).2 (tileDst len h typ).1
  | .copy src dst len =>
    let hi := min p1 len
    if copyDown src.toNat dst.toNat len then [(dst.toNat + (len - hi), hi - p0)] else [(dst.toNat + p0, hi - p0)]
  | .gather _ _ dst count e =>
    [(dst.toNat + gatherAt dst.toNat count e p0, gatherAt dst.toNat count e p1 - gatherAt dst.toNat count e p0)]
  | _ => []

/-- Scratchpad bytes that an engine wrote are the engine's in the images too (17 R356). -/
def keepWrites (s : State) (b : Block) (o : EngOp) (p1 : Nat) : State :=
  (delivered o.kind o.progress p1).foldl (fun s r => keepRow s b o r.1 r.2) s

/-- Does the operation make a compare before each piece: the primary's, to a destination outside scratchpad (17 R363)? -/
def makesPieces (b : Block) (o : EngOp) : Bool := twinned b && b.primary && writesOut o.kind

/-- Does the operation's next piece, or a collective's next step, make a compare? -/
def needsPiece (s : State) (b : Block) (o : EngOp) : Bool := makesPieces b o || collPiece s b o

/-- Has the compare before the operation's next piece matched, where it makes one? -/
def pieceGranted (s : State) (b : Block) (o : EngOp) : Bool :=
  !needsPiece s b o || b.grants.any fun g => g.1 == pieceKey o.id

/-- Can that compare be opened: it is not open, and the secondary's instance has been issued? -/
def pieceOpens (s : State) (b : Block) (o : EngOp) : Bool :=
  !(b.cmpAt.any fun c => c.1 == pieceKey o.id) && s.ops.any fun x => x.kind == .twin o.id

/-- Both twins get to the operation's compare point. -/
def openPiece (s : State) (b : Block) (o : EngOp) : State :=
  (b.bid :: b.twin.toList).foldl (fun s i => s.onBlock i fun y => openCompare y (pieceKey o.id) (heldCounts y)) s

/-- The operation's compare is used up. -/
def closePiece (s : State) (o : EngOp) : State := s.onBlock o.bid fun b => dropGrant b (pieceKey o.id)

/-- Has the operation's turn come: the oldest of its team and class, its guard resolved, nothing of it under service
(05 R103, R104, 09 R210)? -/
def opReady (s : State) (b : Block) (o : EngOp) : Bool :=
  let first := s.ops.all fun x =>
    !(x.bid == o.bid && x.cls == o.cls && decide (x.id < o.id) && (opSlots x).any fun t => (opSlots o).contains t)
  let turn := match o.binding, o.kind with
    | .episode _ _, .mma .. => true
    | .episode _ _, _ => false
    | _, _ => true
  let runs := match b.state with
    | .running => true
    | .asked _ _ => true
    | .window _ _ => o.isMatrix
    | .writing _ _ => o.cls == 3 && o.progress == 2
    | _ => false
  let free := !(s.faults.any fun f => f.asker == .engine o.id)
  runs && first && turn && free
  && (o.result.isSome || o.binding == .discard || match o.kind with
    | .twin _ => false
    | .coll d => (d.isEmpty || o.progress != 1) && (pieceGranted s b o || pieceOpens s b o)
    | _ => (!o.isMatrix || mayPerform s b o) && (pieceGranted s b o || pieceOpens s b o))

/-- The operation goes on later. -/
def laterOp (s : State) (o : EngOp) (progress : Nat) : State :=
  { s with
    ops := s.ops.map fun x =>
      if x.id = o.id then { x with progress := progress, due := s.cycle + Config.latEngine } else x }

/-- ENGINE_COMPLETE (05 R104): the operation at the head of its team's class is performed and signals. One that failed its
check at issue ends with −2, also under a guard that then resolves FALSE (DESIGN CHOICE, log 74). In redundant mode each piece
of a transfer to outside scratchpad waits for a compare (17 R363). -/
def execEngineComplete (op : Nat) (s : State) : Out :=
  match s.ops.find? fun o => o.id == op with
  | none => .next s
  | some o =>
    match s.block? o.bid with
    | none => .next { s with ops := s.ops.filter fun x => x.id != op }
    | some b =>
      if !opReady s b o then .next s
      else match o.result with
        | some v => .next (completeOp s o v)
        | none =>
          if o.binding = .discard then .next (completeOp s o (BitVec.ofInt 64 (-1)))
          else if !pieceGranted s b o then .next (openPiece s b o)
          else
            let s := if needsPiece s b o then closePiece s o else s
            match o.kind with
            | .coll d => .next (startColl s b o d)
            | .twin _ => .next s
            | k =>
              if o.isMatrix then
                match performMatrix s b o with
                | (s', .done) => .next (completeOp s' o 0)
                | (s', .later pr) => .next (laterOp s' o pr)
              else match transfer s b.view k o.progress (makesPieces b o) with
                | (s', .more pr) => .next (laterOp (keepWrites s' b o pr) o pr)
                | (s', .ended v) => .next (completeOp (keepWrites s' b o (2 ^ 64)) o v)
                | (s', .waits pr f) =>
                  let s' := laterOp (keepWrites s' b o pr) o pr
                  match f.kind with
                  | .serviceable level entry => .next (requestService s' b f.addr 4 level entry (.engine o.id) {})
                  | .program _ => .next s'

/-! ## Instruction lines (12 R260) -/

/-- Lines of a set that a core keeps: four ways, least recently used out. -/
def keepWays (l : ICLine) (lines : List ICLine) : List ICLine :=
  let same := fun (x : ICLine) => x.die == l.die && x.core == l.core && x.line % 128 == l.line % 128
  let keep := ((lines.filter same).take 3)
  l :: lines.filter fun x => !same x || keep.contains x

/-- ICACHE_FILL_COMPLETE. -/
def execIcacheFillComplete (die core ctx line : Nat) (s : State) : Out :=
  let l : ICLine := { die := die, core := core, ctx := ctx, line := line }
  if s.filling l then
    .next { s with fills := s.fills.filter (·.line != l), icache := keepWays l (s.icache.filter (· != l)) }
  else .next s

/-! ## Team formation (01 R28) -/

/-- The entries of a pending target that a team is formed from: those that reserve its slot. -/
def entriesFor (b : Block) (slot : Nat) : List SpawnEntry := (b.spawn.filter fun e => e.slot == slot).take 32

/-- The slot is free for a team (01 R14). -/
def slotFree (b : Block) (slot : Nat) : Bool := (b.team? slot).any (slotIdle b)

/-- Does a wait count for item 2 of 01 R28? -/
def formWait : Wait → Bool
  | .barrier => true
  | .commit => true
  | .reconv => true
  | .xrecv => true
  | .sign => true
  | .setOp => true
  | _ => false

/-- Item 1 or item 2 of 01 R28. -/
def formDue (b : Block) (slot : Nat) : Bool :=
  let n := (entriesFor b slot).length
  slotFree b slot && (decide (32 ≤ n) || (decide (1 ≤ n) && b.threads.all fun t => !t.running || formWait t.wait))

/-- Item 3: the oldest entry parked 512 cycles ago. -/
def formLate (s : State) (b : Block) (slot : Nat) : Bool :=
  slotFree b slot && (entriesFor b slot).any fun e => decide (e.parked + Config.formCycles ≤ b.clk s)

/-- A thread of a formed team (01 R28, log 15). -/
def formedThread (b : Block) (since lane : Nat) (e : SpawnEntry) (t : Thread) : Thread :=
  { gessoThread b.kernel [] since t.tid e.slot lane with
    spawned := true, wb := t.wb, rm := t.rm, fpst := t.fpst, spth := t.spth, tvec := t.tvec, tpc := t.tpc, tval := t.tval,
    outst := t.outst, pc := e.target,
    regs := Vector.ofFn fun i =>
      if t.wb + e.first ≤ i.val ∧ i.val < t.wb + e.first + e.count then e.regs.getD (i.val - t.wb - e.first) 0 else 0 }

/-- A slot as a new team finds it: empty, with guards that are FREE. Their episodes count on, so that no GRES of the new team
resolves one of the old (10 R241). -/
def freshTeam (tm : Team) : Team :=
  { emptyTeam tm.slot tm.quad with held := true, guards := tm.guards.map fun g => { state := .free, episode := g.episode } }

/-- The team former forms the team of a slot; lanes go by ascending sr.tid. -/
def formTeam (since slot : Nat) (b : Block) : Block :=
  let es := entriesFor b slot
  let order := es.foldr (fun e l => insertTid e.tid l) []
  let form := fun (t : Thread) => match es.find? fun e => e.tid == t.tid with
    | some e => formedThread b since ((order.takeWhile (· != t.tid)).length) e t
    | none => t
  let b : Block := { b with
    spawn := b.spawn.filter fun e => !(es.any fun x => x.tid == e.tid),
    threads := b.threads.map form,
    teams := b.teams.map fun tm => if tm.slot = slot then freshTeam tm else tm }
  startAccess b since slot

/-- TEAM_FORMATION (01 R28 items 1 and 2). -/
def execTeamFormation (blk slot : Nat) (s : State) : Out :=
  match s.block? blk with
  | none => .next s
  | some b => if formDue b slot then .next (s.onBlock blk (formTeam s.cycle slot)) else .next s

/-- TEAM_FORM_TIMEOUT (01 R28 item 3). -/
def execTeamFormTimeout (blk slot : Nat) (s : State) : Out :=
  match s.block? blk with
  | none => .next s
  | some b => if formLate s b slot then .next (s.onBlock blk (formTeam s.cycle slot)) else .next s

/-! ## RECONV's limit (01 R29) -/

/-- Has the limit of the RECONV the thread waits in expired? -/
def reconvLate (s : State) (b : Block) (t : Thread) : Bool :=
  t.running && t.reconv.any fun r => decide (r.issued + r.limit ≤ b.clk s)

/-- RECONV_TIMEOUT: the waiting member receives 0. -/
def execReconvTimeout (blk tid : Nat) (s : State) : Out :=
  match s.block? blk with
  | none => .next s
  | some b =>
    match b.thread? false tid with
    | none => .next s
    | some t => if reconvLate s b t then .next (s.setThread blk false (leaveReconv 0 t)) else .next s

/-! ## Pentimenti -/

/-- PENTIMENTO_COMPLETE (17 R355): the image begun at the latest boundary is complete, and the one before it goes. -/
def execPentimentoComplete (blk : Nat) (s : State) : Out :=
  match (s.pents.filter fun p => p.bid == blk).getLast? with
  | none => .next s
  | some p => .next { s with pents := (s.pents.filter fun q => q.bid != blk) ++ [{ p with complete := true }] }

/-! ## Redundant mode -/

/-- Bytes that a held store adds to its thread's signature (17 R362). -/
def storeSig (w : HeldStore) : List Byte :=
  leBytes 8 w.addr.toNat ++ leBytes 1 w.size ++ leBytes w.size w.val.toNat

/-- The first n held stores of a thread. -/
def firstHeld (b : Block) (tid n : Nat) : List HeldStore := (b.held.filter fun w => w.tid == tid).take n

/-- A thread's signature over its first n held stores. -/
def threadSig (b : Block) (tid n : Nat) : BitVec 64 := crc64 ((firstHeld b tid n).flatMap storeSig) 0

/-- A block's signature over a count for each thread, in ascending sr.tid. -/
def blockSig (b : Block) (counts : List (Nat × Nat)) : BitVec 64 :=
  crc64 (counts.flatMap fun c => leBytes 8 (threadSig b c.1 c.2).toNat) 0

/-- The larger count of the two twins, for each thread. -/
def maxCounts (x y : List (Nat × Nat)) : List (Nat × Nat) :=
  x.map fun c => (c.1, max c.2 (((y.find? fun d => d.1 == c.1).map (·.2)).getD 0))

/-- Held stores divided into the covered ones and the others, each in the order in which they were held. -/
def splitHeld : List HeldStore → List (Nat × Nat) → List HeldStore × List HeldStore
  | [], _ => ([], [])
  | w :: rest, counts =>
    if counts.any fun c => c.1 == w.tid && decide (0 < c.2) then
      let (xs, ys) := splitHeld rest (counts.map fun c => if c.1 = w.tid then (c.1, c.2 - 1) else c)
      (w :: xs, ys)
    else
      let (xs, ys) := splitHeld rest counts
      (xs, w :: ys)

/-- Covered held stores. -/
def covered (held : List HeldStore) (counts : List (Nat × Nat)) : List HeldStore := (splitHeld held counts).1

/-- Held stores without the covered ones. -/
def dropCovered (held : List HeldStore) (counts : List (Nat × Nat)) : List HeldStore := (splitHeld held counts).2

/-- The covered stores become visible together (17 R363). A store that meets a program fault now takes its thread's fate. -/
def releaseStores (s : State) (b : Block) (ws : List HeldStore) : State :=
  ws.foldl (fun s w =>
    match storeAt s b.view w.addr.toNat w.size w.val.toNat with
    | .inl s' => s'
    | .inr f => match b.thread? false w.tid with
      | some t => accessFault s b t false f t.pc 2 w.size
      | none => s) s

/-- Can the compare of a key be made: both twins are at it and hold the stores it covers? -/
def compareCounts (p q : Block) (key : Nat) : Option (List (Nat × Nat)) :=
  match p.cmpAt.find? fun c => c.1 == key, q.cmpAt.find? fun c => c.1 == key with
  | some x, some y =>
    let cs := maxCounts x.2 y.2
    if cs.all fun c => (firstHeld p c.1 c.2).length == c.2 && (firstHeld q c.1 c.2).length == c.2 then some cs else none
  | _, _ => none

/-- The first compare of a pair of twins that can be made. -/
def comparable (p q : Block) : Option (Nat × List (Nat × Nat)) :=
  p.cmpAt.findSome? fun c => (compareCounts p q c.1).map fun cs => (c.1, cs)

/-- The point of a compare: its key, the PC of the thread that stands at it, and which time it stands there since the last
boundary that a compare made (17 R363, R364). -/
def comparePoint (b : Block) (key : Nat) : Nat × Nat × Nat :=
  let pc := ((b.thread? false key).map (·.pc.toNat)).getD 0
  (key, pc, (b.passed.filter (· == (key, pc))).length)

/-- Counts of held stores once the first ones of each thread are gone. -/
def lessCounts (gone : List (Nat × Nat)) (cs : List (Nat × Nat)) : List (Nat × Nat) :=
  cs.map fun c => (c.1, c.2 - ((gone.find? fun d => d.1 == c.1).map (·.2)).getD 0)

/-- Does a match of this key let an action go on: a thread's or an operation's by the primary, a barrier phase of both? -/
def grantsAction (b : Block) (key : Nat) : Bool :=
  if 2 ^ 20 ≤ key ∧ key < 2 ^ 21 then true else b.primary && !(decide (2 ^ 21 ≤ key) && decide (key < 2 ^ 22))

/-- A twin after a match: the stores are gone, and the action at the point may go on. The match settles an earlier mismatch at
its point. -/
def matched (key : Nat) (counts : List (Nat × Nat)) (b : Block) : Block :=
  let point := comparePoint b key
  let b : Block := { b with
    held := dropCovered b.held counts,
    cmpAt := (b.cmpAt.filter fun c => c.1 != key).map fun c => (c.1, lessCounts counts c.2),
    mismatched := b.mismatched.filter (· != point),
    passed := if counts.all fun c => c.2 == 0 then b.passed ++ [(key, point.2.1)] else [] }
  if grantsAction b key then { b with grants := b.grants ++ [(key, none)] } else b

/-- A twin after a mismatch, which is noted at its point. -/
def differed (key : Nat) (b : Block) : Block :=
  { b with mismatched := b.mismatched ++ [comparePoint b key], cmpAt := b.cmpAt.filter fun c => c.1 != key }

/-- A serviceable fault that the release of held stores would meet; the compare waits for its service. -/
def heldWait (s : State) (b : Block) (ws : List HeldStore) : Option AccFault :=
  ws.findSome? fun w => firstService s b.view needW w.addr.toNat w.size

/-- REDUNDANT_COMPARE (17 R363, R364), named by the primary. -/
def execRedundantCompare (blk : Nat) (s : State) : Out :=
  match s.block? blk with
  | none => .next s
  | some p =>
    match p.twin.bind s.block? with
    | none => .next s
    | some q =>
      match comparable p q with
      | none => .next s
      | some (key, cs) =>
        if blockSig p cs = blockSig q cs then
          let ws := covered p.held cs
          match heldWait s p ws with
          | some f => .next (askService s p.part p.ctx (.work p.bid) 2 f)
          | none =>
            let s := releaseStores s p ws
            let s := (s.onBlock p.bid (matched key cs)).onBlock q.bid (matched key cs)
            if ws.isEmpty then .next s
            else .next (clusterBoundary (clusterBoundary s p) q)
        else if p.mismatched.contains (comparePoint p key) then
          let s := stick (contextFault s p.ctx) p.ctx stickRedund
          .next (postRecord s p.part (recordBytes s 12 p.ctx 0xFFFF p.grid.toNat p.idx 0 0 []))
        else
          let s := (s.onBlock p.bid (differed key)).onBlock q.bid (differed key)
          .next (rollback (rollback s p.bid true) q.bid true)

end Sys2Proof.Machine
end

