-- ==== Sys2Proof/Machine/Canvas.lean ====
section
/-! DEFINITION. Canvases as bytes: their layout written (16 R331 to R343) and read back with the checks of R332. -/

namespace Sys2Proof.Machine

/-! ## Bytes -/

def zeros (n : Nat) : List Byte := List.replicate n 0

/-- The bytes with zeros up to n. -/
def padTo (n : Nat) (bs : List Byte) : List Byte := (bs ++ zeros n).take n

/-- The bytes padded to a multiple of 64. -/
def pad64 (bs : List Byte) : List Byte := bs ++ zeros ((64 - bs.length % 64) % 64)

def up64 (n : Nat) : Nat := (n + 63) / 64 * 64

def word8 (w : Word) : List Byte := leBytes 8 w.toNat

/-- n bytes of a bitmap: bit i is f i. -/
def bitmap (n : Nat) (f : Nat → Bool) : List Byte :=
  (List.range n).map fun i =>
    BitVec.ofNat 8 ((List.range 8).foldl (fun a j => a + if f (8 * i + j) then 2 ^ j else 0) 0)

/-- Bit i of a bitmap that begins at a byte. -/
def bitAt (bs : List Byte) (off i : Nat) : Bool := (bs.getD (off + i / 8) 0).getLsbD (i % 8)

def bit1 (b : Bool) (i : Nat) : Nat := if b then 2 ^ i else 0

/-- Are n bytes from off on zero? -/
def zeroAt (bs : List Byte) (off n : Nat) : Bool := ((bs.drop off).take n).all (· == 0)

def wordAt (bs : List Byte) (off : Nat) : Word := BitVec.ofNat 64 (field bs off 8)

def byteAt (bs : List Byte) (off : Nat) : Nat := (bs.getD off 0).toNat

def sub (bs : List Byte) (off n : Nat) : List Byte := (bs.drop off).take n

/-! ## Code references (16 R334) -/

/-- The object index and offset of a code address. -/
def codeRef (objs : List Inst) (pc : Word) : Nat × Nat :=
  match objs.findIdx? fun i => decide (i.base.toNat ≤ pc.toNat) && decide (pc.toNat < i.base.toNat + i.image) with
  | some k => (k, pc.toNat - ((objs.map (·.base.toNat)).getD k 0))
  | none => (2 ^ 64 - 1, pc.toNat)

/-- The objects that a set of blocks refers to: those of their kernels and of their threads' PCs; a parked
thread's is its target. -/
def objsOf (s : State) (ctx : Nat) (bs : List Block) : List Inst :=
  (instsOf s ctx).filter fun i =>
    bs.any fun b => b.kernel.inst == i.iid
      || ((b.threads.filter fun t => t.life == .running).map (·.pc) ++ b.spawn.map (·.target)).any fun a =>
          decide (i.base.toNat ≤ a.toNat) && decide (a.toNat < i.base.toNat + i.image)

def objEntry (i : Inst) : List Byte := padTo 32 i.hash ++ word8 i.base ++ leBytes 8 i.image ++ zeros 16

/-! ## A block record written (16 R335 to R338) -/

/-- Threads of a record: 32 for each team slot. -/
def Kernel.slots (k : Kernel) : Nat := k.n + k.s

/-- A thread's record of a block (16 R337). A tid that no thread has is recorded as exited. -/
def encThread (objs : List Inst) (b : Block) (tid : Nat) : List Byte :=
  let size := 192 + 8 * b.kernel.regs
  match b.threads.find? fun t => t.tid == tid with
  | none => padTo size (leBytes 2 tid ++ leBytes 1 (tid / 32) ++ leBytes 1 (tid % 32) ++ leBytes 1 4)
  | some t =>
    let head := leBytes 2 tid ++ leBytes 1 t.slot ++ leBytes 1 t.lane
    if t.life = .exited then padTo size (head ++ leBytes 1 (4 + bit1 t.spawned 0))
    else
      let parked := t.life == .parked
      let pc := match b.spawn.find? fun e => e.tid == tid with
        | some e => e.target
        | none => t.pc
      let r := codeRef objs pc
      head
      ++ leBytes 1 (bit1 t.spawned 0 + bit1 t.inHandler 1 + bit1 parked 3
          + bit1 (t.barsWait && !t.outst.contains .commit) 4)
      ++ leBytes 1 (t.wb / 32) ++ leBytes 1 t.spth.toNat ++ leBytes 1 t.rm.toNat
      ++ leBytes 8 r.1 ++ leBytes 8 r.2
      ++ (t.k.toList.drop 1) ++ leBytes 1 t.fpst.toNat
      ++ word8 t.tvec ++ word8 t.tpc ++ word8 t.tval ++ leBytes 1 t.tcause.toNat ++ zeros 7
      ++ (t.lc.toList.flatMap fun l =>
          leBytes 4 l.remaining.toNat ++ leBytes 1 (bit1 l.active 0) ++ zeros 3 ++ word8 l.start ++ word8 l.stop)
      ++ bitmap 32 (fun i => decide (i < b.kernel.regs) && (parked || t.yFull i))
      ++ (List.range b.kernel.regs).flatMap fun i => if parked then zeros 8 else word8 (t.y i)

/-- A spawn area entry (01 R26). -/
def encSpawn (e : SpawnEntry) : List Byte :=
  word8 e.target ++ leBytes 4 e.tid ++ leBytes 1 e.first ++ leBytes 1 e.count ++ leBytes 1 e.slot ++ leBytes 1 0
  ++ padTo 128 (e.regs.flatMap word8)

def encSpawns (entries : Nat) (l : List SpawnEntry) : List Byte :=
  padTo (64 + 144 * entries) (padTo 64 (leBytes 4 l.length) ++ l.flatMap encSpawn)

/-- Kind and number of a barrier (16 R336). -/
def barCode : BarId → Nat × Nat
  | .block n => (0, n)
  | .cluster n => (1, n)
  | .grid n => (2, n)
  | .commit => (3, 0)

/-- The declared barriers of a kernel, then the commit barrier. -/
def barIds (k : Kernel) : List BarId :=
  (bitsOf 64 k.blockBars.toNat).map .block ++ (bitsOf 16 k.clusterBars.toNat).map .cluster
  ++ (bitsOf 8 k.gridBars.toNat).map .grid ++ [.commit]

/-- A barrier's entry; outst tells whether a tid has an arrival outstanding. -/
def encBar (id : BarId) (x : Bar) (outst : Nat → Bool) : List Byte :=
  (if id.inBlock then leBytes 2 x.expected ++ leBytes 2 x.arrived else zeros 4)
  ++ leBytes 1 (bit1 x.phase 0) ++ leBytes 1 (barCode id).1 ++ leBytes 1 (barCode id).2 ++ leBytes 1 0
  ++ bitmap 128 outst

def encBars (s : State) (b : Block) (bars : List Bar) (outst : Nat → List BarId) : List Byte :=
  (barIds b.kernel).flatMap fun id =>
    let shared := (getBar s b id).getD (freshBar 0 id)
    let x := if id.inBlock then (bars.find? fun x => x.id == id).getD shared else shared
    encBar id x fun tid => (outst tid).contains id

def encDecl (d : ConvDecl) : List Byte :=
  match d with
  | .undeclared => zeros 64
  | .team => padTo 64 (leBytes 8 1)
  | .group k => padTo 64 (leBytes 8 2 ++ word8 k)

/-- The prefix word of a signed MMA; 0 without one. -/
def roundPrefix (r : Round) : Nat :=
  match r.pfx with
  | none => 0
  | some p => ((encode (.mma (some p) 0 0 0 0 0)).headD 0).toNat

def encRound (r : Round) : List Byte :=
  leBytes 1 r.cv ++ leBytes 1 (r.slot.getD 255) ++ leBytes 2 r.first ++ leBytes 4 r.base.toNat ++ leBytes 4 (roundPrefix r)
  ++ zeros 4 ++ padTo 48 (r.pairs.flatMap word8) ++ bitmap 128 fun i => r.signers.contains i

def encGroups (gs : List Group) : List Byte :=
  padTo 64 (leBytes 4 gs.length) ++ gs.flatMap fun g => word8 g.key ++ bitmap 128 fun i => g.members.contains i

def guardCode : GuardState → Nat
  | .free => 0
  | .pending => 1
  | .true => 2
  | .false => 3

def encTeam (tm : Team) : List Byte :=
  let cell := fun (i : Nat) => tm.cells.find? fun c => c.1 == i
  padTo 64 ((tm.ctr.toList.flatMap fun c => leBytes 1 c) ++ leBytes 1 (bit1 tm.held 0 + bit1 tm.accessRun 1) ++ zeros 3
    ++ tm.guards.toList.flatMap fun g => leBytes 1 (guardCode g.state))
  ++ (tm.pops.toList.flatMap fun n => leBytes 4 n)
  ++ ((List.range 32).flatMap fun l => padTo 256 ((tm.startRegs.getD l []).flatMap word8))
  ++ ((List.range 512).flatMap fun i => word8 (((cell i).map (·.2)).getD 0))
  ++ bitmap 64 (fun i => (cell i).isSome) ++ bitmap 64 fun i => tm.claims.any fun c => c.1 == i

def encTile (t : List Word) : List Byte := padTo 1024 (t.flatMap word8)

def faultCode (f : AccFault) : Nat := match f.kind with
  | .program c => c
  | .serviceable .. => codeUnmapped

/-- A shadow; one that no sketch MMA has had its turn in holds its handle's tile. -/
def encShadow (b : Block) (w : Shadow) : List Byte :=
  padTo 64 (leBytes 1 w.handle ++ leBytes 1 w.guard ++ leBytes 1 w.slot ++ leBytes 1 (bit1 w.fault.isSome 0)
    ++ leBytes 1 ((w.fault.map faultCode).getD 0) ++ zeros 3 ++ word8 ((w.fault.map (·.addr)).getD 0))
  ++ encTile (if w.tile.isEmpty then (b.handles.toList.getD w.handle emptyHandle).tile else w.tile)

/-- The committed contents that a KIND 2 record keeps before the tile of an uncommitted handle. -/
def committedTile (b : Block) (i : Nat) (x : Handle) : List Byte :=
  match b.snap with
  | none => []
  | some sn =>
    let c := (sn.handles.toList.getD i emptyHandle)
    if x.unc && c.map != 2 then encTile c.tile else []

def encHandles (b : Block) (kind : Nat) : List Byte :=
  (b.handles.toList.flatMap fun x => word8 (handleWord x))
  ++ ((b.handles.toList.mapIdx fun i x =>
      if x.map = 2 then [] else (if kind = 2 then committedTile b i x else []) ++ encTile x.tile).flatten)
  ++ b.shadows.flatMap (encShadow b)

def encSnapThread (k : Kernel) (sn : Snapshot) (tid : Nat) : List Byte :=
  let size := 64 + 8 * k.restartCount
  match sn.threads.find? fun e => e.tid == tid with
  | none => padTo size (leBytes 2 tid ++ leBytes 1 (tid / 32) ++ leBytes 1 (tid % 32) ++ leBytes 1 4)
  | some e =>
    padTo 64 (leBytes 2 tid ++ leBytes 1 e.slot ++ leBytes 1 e.lane
      ++ leBytes 1 (bit1 e.spawned 0 + bit1 (e.life == .exited) 2 + bit1 (e.life == .parked) 3)
      ++ leBytes 1 (e.wb / 32) ++ leBytes 1 e.spth.toNat ++ leBytes 1 e.rm.toNat ++ word8 e.tvec ++ leBytes 1 e.fpst.toNat)
    ++ padTo (8 * k.restartCount) (e.live.flatMap word8)

def encSnapshot (s : State) (b : Block) (sn : Snapshot) : List Byte :=
  let k := b.kernel
  let outst := fun (tid : Nat) => sn.outst.getD (b.threads.findIdx fun t => t.tid == tid) []
  pad64 ((List.range (32 * k.slots)).flatMap (encSnapThread k sn))
  ++ pad64 (encSpawns k.spawnEntries sn.spawn)
  ++ pad64 (encBars s b sn.bars outst)
  ++ sn.conv.toList.flatMap encDecl
  ++ pad64 (encGroups sn.groups)
  ++ pad64 (sn.pops.flatMap fun v => v.toList.flatMap fun n => leBytes 4 n)

/-- Byte 8 of a descriptor: the guard and what it decided. -/
def guardByte (o : EngOp) : Nat :=
  match o.guard with
  | none => 0
  | some g => 16 + g + match o.binding with
    | .episode _ _ => 0
    | .go => 32
    | .discard => 64

/-- PROGRESS: of a COLL whose result is known every fabric step is done; one that still has bytes to write has not done its
last. -/
def progressOf (o : EngOp) : Nat := match o.kind with
  | .coll d =>
    if o.result.isSome then 2
    else if (parseColl d).op ≤ 2 then 0
    else min o.progress 1
  | _ => o.progress

/-- Byte 10: the handle; of ALOAD and ASTORE with bit 6 of their rd field, for no other byte tells their type (DESIGN CHOICE,
log 18). -/
def accOf : EngKind → Nat
  | .mma acc .. => acc
  | .aload h f64 .. => h + bit1 f64 6
  | .astore h f64 .. => h + bit1 f64 6
  | .azero h => h
  | .scacc h .. => h
  | .amovr h .. => h
  | _ => 0

def encDesc (cls : Nat) (d : OpDesc) (tid slot dest guard acc : Nat) (after : Bool) (progress : Nat) : List Byte :=
  leBytes 1 cls ++ leBytes 1 d.major ++ leBytes 1 d.fn ++ leBytes 1 d.qual ++ leBytes 2 tid ++ leBytes 1 slot ++ leBytes 1 dest
  ++ leBytes 1 guard ++ leBytes 1 d.rm ++ leBytes 1 acc ++ leBytes 1 (bit1 after 0) ++ zeros 4 ++ leBytes 8 progress
  ++ padTo 32 (d.operands.flatMap word8) ++ zeros 8

/-- An operation's descriptor; uncounted matrix work that waits behind an MMA stands among the MATRIX class (log 18). -/
def encOp (o : EngOp) : List Byte :=
  encDesc (if o.cls = 4 then 1 else o.cls) o.desc o.tid o.slot (o.tok.getD 0) (guardByte o) (accOf o.kind) o.after
    (progressOf o)

def encProd (b : Block) (p : Prod) : List Byte :=
  encDesc 4 p.desc p.tid (((b.thread? false p.tid).map (·.slot)).getD 0) (p.y.getD 0) 0 0 p.after 0

/-- What a record takes in flight: operations by class, then register producers. -/
def pendingOps (s : State) (b : Block) : List EngOp :=
  let mine := s.ops.filter fun o => o.bid == b.bid
  (mine.filter fun o => o.cls == 0) ++ (mine.filter fun o => o.isMatrix) ++ (mine.filter fun o => o.cls == 2)
  ++ mine.filter fun o => o.cls == 3

def pendingProds (s : State) (b : Block) : List Prod :=
  s.prods.filter fun p => p.bid == b.bid && !p.acc && p.kind != .amovr

/-- The required core kind of a block (16 R335). -/
def needKind (b : Block) : Nat :=
  if b.kernel.acc ≠ 0 then 0
  else match b.node with
    | some n => if field n.2 28 1 = 1 then 0 else if field n.2 28 1 = 2 then 1 else 2
    | none => b.reqKind

/-- A block record. -/
def encBlock (s : State) (objs : List Inst) (kind : Nat) (b : Block) : List Byte :=
  let k := b.kernel
  let rewound := match b.state with
    | .writing _ r => r
    | _ => false
  let sn := b.snap.getD (snapshot b)
  let ops := pendingOps s b
  let prods := pendingProds s b
  let outst := fun (tid : Nat) => ((b.threads.find? fun t => t.tid == tid).map (·.outst)).getD []
  let kref := codeRef objs k.kpb
  let parts :=
    pad64 ((List.range (32 * k.slots)).flatMap (encThread objs b))
    ++ pad64 (encSpawns k.spawnEntries b.spawn)
    ++ pad64 (cellsBytes b.scratch 0 k.scratch)
    ++ pad64 (encBars s b b.bars outst)
    ++ pad64 ((b.conv.toList.flatMap encDecl) ++ b.rounds.flatMap encRound)
    ++ pad64 (encGroups b.groups)
    ++ pad64 (b.teams.flatMap encTeam)
    ++ pad64 (encHandles b kind)
    ++ encSnapshot s b sn
    ++ ops.flatMap encOp ++ prods.flatMap (encProd b)
  leBytes 8 (256 + parts.length) ++ leBytes 4 b.idx ++ leBytes 1 b.crank ++ leBytes 1 b.csize ++ leBytes 1 k.n ++ leBytes 1 k.s
  ++ leBytes 2 k.regs ++ leBytes 1 (needKind b) ++ leBytes 1 b.cfg
  ++ leBytes 1 (bit1 k.access.isSome 0 + bit1 (kind == 2 && uncommitted b) 1 + bit1 rewound 2)
  ++ leBytes 1 k.restartFirst ++ leBytes 1 k.restartCount ++ leBytes 1 (barIds k).length
  ++ leBytes 8 kref.1 ++ leBytes 8 kref.2 ++ leBytes 4 k.scratch ++ leBytes 4 k.spawnEntries ++ leBytes 2 k.acc
  ++ leBytes 2 b.groups.length ++ leBytes 2 b.rounds.length ++ leBytes 2 b.shadows.length
  ++ leBytes 4 (ops.length + prods.length) ++ zeros 4
  ++ word8 b.label ++ leBytes 8 b.cursor ++ leBytes 8 sn.cursor ++ leBytes 4 b.grid.toNat ++ leBytes 4 b.nblk
  ++ leBytes 2 sn.groups.length ++ zeros 158
  ++ parts

/-! ## The whole canvas (16 R333, R340 to R342) -/

/-- A barrier of a cluster or grid. -/
def encShared (bars : List Bar) (id : BarId) : List Byte :=
  match bars.find? fun x => x.id == id with
  | none => zeros 8
  | some x => leBytes 3 x.expected ++ leBytes 3 x.arrived ++ leBytes 2 (bit1 x.phase 0)

/-- The CLU section; empty where it is not written. -/
def encClu (s : State) (bs : List Block) : List Byte :=
  let co := bs.any (·.coresident)
  if !(co || bs.any fun b => b.kernel.clusterBars != 0) then []
  else
    let cids := (bs.map (·.cluster)).eraseDups
    let cbars := fun (c : Nat) => ((s.clusters.find? fun x => x.cid == c).map (·.bars)).getD []
    let gbars := (((bs.find? (·.coresident)).bind fun b => s.launches.find? fun l => l.lid == b.launch).map (·.bars)).getD []
    padTo 64 (leBytes 4 cids.length ++ leBytes 1 (bit1 co 0))
    ++ (cids.flatMap fun c => (List.range 16).flatMap fun n => encShared (cbars c) (.cluster n))
    ++ if co then (List.range 8).flatMap fun n => encShared gbars (.grid n) else []

/-- The graph section of a context's canvas (log 18). -/
def encGraph (s : State) (ctx : Nat) : List Byte :=
  let ns := s.nodes.filter fun n => n.ctx == ctx
  let cs := s.credits.filter fun c => c.ctx == ctx
  let ms := s.commissions.filter fun m => m.ctx == ctx
  let part := ((s.ctx? ctx).map (·.part)).getD 0
  let qs := ((s.part part).queues.toList.mapIdx fun i q => (i, q)).filter fun x => x.2.ctx == ctx && x.2.state != .disabled
  let qcode := fun (q : Queue) => match q.state with
    | .disabled => 0
    | .unmapped => 1
    | .mapped => 2
    | .stopped => 3
  let qent := fun (x : Nat × Queue) =>
    let ids := (s.packets.filter fun p => p.part == part && p.q == x.1 && p.started).map (·.pkid.toNat)
    (if ids.isEmpty then [0] else ids).map fun id =>
      leBytes 2 x.1 ++ leBytes 2 x.2.head ++ leBytes 4 (qcode x.2) ++ leBytes 8 id
  let qes := qs.flatMap qent
  padTo 64 (leBytes 4 ns.length ++ leBytes 4 cs.length ++ leBytes 4 ms.length ++ leBytes 4 qes.length)
  ++ (ns.flatMap fun n => padTo 128 (word8 n.addr ++ leBytes 8 n.remaining ++ padTo 64 n.desc))
  ++ pad64 (cs.flatMap fun c => word8 c.addr ++ leBytes 8 c.count)
  ++ (ms.flatMap fun m =>
      padTo 64 (word8 m.info.addr ++ word8 m.old ++ word8 m.info.desc ++ leBytes 4 m.info.grid.toNat ++ leBytes 4 m.info.blk
        ++ leBytes 8 m.scope))
  ++ pad64 qes.flatten

/-- The atelier section: a record for each valid map entry (16 R341). -/
def encAtelier (s : State) (c : Ctx) : List Byte :=
  let es := c.atl.filter fun e => (s.atlEntry c e.1).isSome
  padTo 64 (leBytes 4 es.length)
  ++ es.flatMap fun e =>
    padTo 64 (leBytes 8 e.1) ++ cellsBytes s.atelier ((e.2.1 * 1024 + e.2.2) * 65536) 65536

/-- A present entry of a page table: where it lies, the first address it translates, and its level. -/
structure TableEntry where
  addr : Nat
  va : Nat
  level : Nat
  entry : Word
deriving DecidableEq, Repr

def TableEntry.pa (e : TableEntry) : Nat := e.entry.toNat / 2 ^ 12 % 2 ^ 40 * 2 ^ 12

/-- Does an entry end its walk (15 R311)? -/
def TableEntry.ends (e : TableEntry) : Bool := e.level == 1 || e.entry.getLsbD 1

/-- Is it a leaf? LEAF at level 4 or 5 is none. -/
def TableEntry.leaf (e : TableEntry) : Bool := e.ends && decide (e.level ≤ 3)

/-- Bytes of a leaf's page. -/
def TableEntry.size (e : TableEntry) : Nat := 2 ^ (12 + 9 * (e.level - 1))

/-- Places of the present entries of a table: of an entry that memory does not list, P is blank (log 1). -/
def presentAt (m : Cells) (table : Nat) : List Nat :=
  m.filterMap fun c =>
    if table ≤ c.1 ∧ c.1 < table + 4096 ∧ (c.1 - table) % 8 = 0 ∧ c.2.getLsbD 0 then some ((c.1 - table) / 8) else none

/-- Present entries of a table and of those below it, in ascending address (15 R311). -/
def entriesBelow (s : State) (p : Nat) : Nat → Nat → Nat → List TableEntry
  | 0, _, _ => []
  | l + 1, table, va =>
    if !physOk s p table then []
    else (presentAt s.mem table).flatMap fun i =>
      let e : TableEntry :=
        { addr := table + 8 * i, va := va + i * 2 ^ (12 + 9 * l), level := l + 1,
          entry := BitVec.ofNat 64 (cellsRead s.mem (table + 8 * i) 8) }
      if e.ends then [e] else e :: entriesBelow s p l e.pa e.va

/-- The present entries of a context's tables. -/
def ctxEntries (s : State) (c : Ctx) : List TableEntry := entriesBelow s c.part 5 c.ptroot 0

/-- The page list: each present page that is no CODE page, by its 4 KiB parts (16 R342). -/
def encPages (s : State) (c : Ctx) : List (List Byte) :=
  ((ctxEntries s c).filter (·.leaf)).flatMap fun r =>
    if r.entry.getLsbD 5 then []
    else
      let tpl := r.entry.toNat % 2 ^ 12 + r.entry.toNat / 2 ^ 52 * 2 ^ 52
      let tpl := tpl - (if r.entry.getLsbD 8 then 2 ^ 8 else 0)
      (List.range (r.size / 4096)).map fun i =>
        leBytes 8 (r.va + 4096 * i) ++ leBytes 8 tpl ++ leBytes 8 (r.pa + 4096 * i) ++ zeros 8

/-- A canvas of blocks of a context; whole adds the sections of KIND 3, expo the page list. -/
def encCanvas (s : State) (kind ctx : Nat) (bs : List Block) (expo : Bool) : List Byte :=
  let objs := objsOf s ctx bs
  let otab := objs.flatMap objEntry
  let recs := bs.map (encBlock s objs kind)
  let dirAt := 128 + otab.length
  let recAt := dirAt + up64 (8 * bs.length)
  let offs := (recs.foldl (fun (a : List Nat × Nat) r => (a.1 ++ [a.2], a.2 + r.length)) ([], recAt)).1
  let clu := encClu s bs
  let c := (s.ctx? ctx)
  let graph := if kind = 3 then encGraph s ctx else []
  let atl := if kind = 3 then (c.map (encAtelier s)).getD [] else []
  let pages := if expo then (c.map (encPages s)).getD [] else []
  let cluAt := recAt + (recs.map (·.length)).sum
  let graphAt := cluAt + clu.length
  let atlAt := graphAt + graph.length
  let pagesAt := atlAt + atl.length
  let at' := fun (part : List Byte) (a : Nat) => if part.isEmpty then 0 else a
  let tail := pad64 pages.flatten
  let first := bs.head?
  let gridWord := if kind = 1 ∨ kind = 2 then
      (first.map (·.grid.toNat)).getD 0 + 2 ^ 32 * (first.map (·.nblk)).getD 0
    else 0
  leBytes 4 0x56435849 ++ leBytes 2 1 ++ leBytes 1 1 ++ leBytes 1 kind ++ leBytes 4 ctx ++ leBytes 4 bs.length
  ++ leBytes 8 (pagesAt + tail.length) ++ leBytes 4 objs.length
  ++ leBytes 4 (bit1 expo 0 + bit1 (bs.any (·.redundant)) 1 + bit1 (bs.any (·.coresident)) 2)
  ++ leBytes 8 128 ++ leBytes 8 dirAt ++ leBytes 8 (at' clu cluAt) ++ leBytes 8 (at' graph graphAt) ++ leBytes 8 (at' atl atlAt)
  ++ leBytes 8 (if expo then pagesAt else 0) ++ leBytes 8 pages.length ++ leBytes 8 gridWord ++ word8 (ptpPacked s) ++ zeros 24
  ++ otab ++ pad64 (offs.flatMap (leBytes 8)) ++ recs.flatten ++ clu ++ graph ++ atl ++ tail

/-! ## A block record read -/

/-- Sizes of the parts of a block record, from its header. -/
structure Shape where
  t : Nat
  n : Nat
  s : Nat
  d : Nat
  scr : Nat
  e : Nat
  nb : Nat
  l : Nat
  g : Nat
  gs : Nat
  r : Nat
  h : Nat
  p : Nat
deriving DecidableEq, Repr

def shapeOf (bs : List Byte) : Shape :=
  { t := 32 * (byteAt bs 14 + byteAt bs 15), n := byteAt bs 14, s := byteAt bs 15, d := field bs 16 2, scr := field bs 40 4,
    e := field bs 44 4, nb := byteAt bs 23, l := byteAt bs 22, g := field bs 50 2, gs := field bs 96 2, r := field bs 52 2,
    h := field bs 54 2, p := field bs 56 4 }

/-- Bytes of the parts up to the handles. -/
def Shape.head (x : Shape) : List Nat :=
  [up64 (x.t * (192 + 8 * x.d)), up64 (64 + 144 * x.e), up64 x.scr, up64 (136 * x.nb), 1024 + 192 * x.r, up64 (64 + 136 * x.g),
   (x.n + x.s) * 12992]

def Shape.snapPieces (x : Shape) : List Nat :=
  [up64 (x.t * (64 + 8 * x.l)), up64 (64 + 144 * x.e), up64 (136 * x.nb), 1024, up64 (64 + 136 * x.gs), 512 * (x.n + x.s)]

/-- Consecutive pieces of a list of bytes. -/
def pieces : List Nat → List Byte → List (List Byte)
  | [], _ => []
  | n :: rest, bs => bs.take n :: pieces rest (bs.drop n)

/-- Fixed-size records, count of them. -/
def records (size count : Nat) (bs : List Byte) : List (List Byte) := (List.range count).map fun i => sub bs (size * i) size

/-- A code address from an object index and an offset. -/
def codeAddr (bases : List Nat) (idx off : Nat) : Word :=
  BitVec.ofNat 64 (if idx = 2 ^ 64 - 1 then off else bases.getD idx 0 + off)

def lifeOf (fl : Nat) : Life := if fl / 4 % 2 = 1 then .exited else if fl / 8 % 2 = 1 then .parked else .running

def decLoop (bs : List Byte) : Loop :=
  { remaining := BitVec.ofNat 32 (field bs 0 4), active := byteAt bs 4 == 1, start := wordAt bs 8, stop := wordAt bs 16 }

/-- A thread's record read; outstanding arrivals are added with the barriers. -/
def decThread (bases : List Nat) (k : Kernel) (since : Nat) (bs : List Byte) : Thread :=
  let fl := byteAt bs 4
  let t := gessoThread k [] since (field bs 0 2) (byteAt bs 2) (byteAt bs 3)
  if lifeOf fl = .exited then { t with life := .exited, spawned := fl % 2 == 1 }
  else
    { t with
      life := lifeOf fl, spawned := fl % 2 == 1, inHandler := fl / 2 % 2 == 1, barsWait := fl / 16 % 2 == 1,
      wb := 32 * byteAt bs 5, spth := BitVec.ofNat 5 (byteAt bs 6), rm := BitVec.ofNat 3 (byteAt bs 7),
      pc := codeAddr bases (field bs 8 8) (field bs 16 8),
      k := Vector.ofFn fun i => if i.val = 0 then 0 else bs.getD (23 + i.val) 0,
      fpst := BitVec.ofNat 5 (byteAt bs 31), tvec := wordAt bs 32, tpc := wordAt bs 40, tval := wordAt bs 48,
      tcause := BitVec.ofNat 8 (byteAt bs 56),
      lc := Vector.ofFn fun i => decLoop (sub bs (64 + 24 * i.val) 24),
      full := Vector.ofFn fun i => decide (k.regs ≤ i.val) || bitAt bs 160 i.val,
      regs := Vector.ofFn fun i => if i.val < k.regs then wordAt bs (192 + 8 * i.val) else 0 }

/-- A spawn entry as a record gives it. No record says when it was parked: its 512 cycles start anew at the restore (DESIGN
CHOICE, log 76). -/
def decSpawn (since : Nat) (bs : List Byte) : SpawnEntry :=
  { target := wordAt bs 0, tid := field bs 8 4, first := byteAt bs 12, count := byteAt bs 13, slot := byteAt bs 14,
    regs := (List.range (byteAt bs 13)).map fun i => wordAt bs (16 + 8 * i), parked := since }

def decSpawns (since : Nat) (bs : List Byte) : List SpawnEntry :=
  (records 144 (field bs 0 4) (bs.drop 64)).map (decSpawn since)

def barIdOf (kind n : Nat) : BarId :=
  match kind with
  | 0 => .block n
  | 1 => .cluster n
  | 2 => .grid n
  | _ => .commit

/-- A barrier's entry: the barrier and the tids with an arrival outstanding. -/
def decBar (bs : List Byte) : Bar × List Nat :=
  ({ id := barIdOf (byteAt bs 5) (byteAt bs 6), expected := field bs 0 2, arrived := field bs 2 2, phase := byteAt bs 4 % 2 == 1 },
   (List.range 1024).filter fun i => bitAt bs 8 i)

def decDecl (bs : List Byte) : ConvDecl :=
  match byteAt bs 0 with
  | 1 => .team
  | 2 => .group (wordAt bs 8)
  | _ => .undeclared

def decRound (bs : List Byte) : Round :=
  let base := BitVec.ofNat 32 (field bs 4 4)
  let pw := BitVec.ofNat 32 (field bs 8 4)
  let (pfx, acc, fmt) := match decode (if pw = 0 then base else pw) (if pw = 0 then 0 else base) with
    | .ok (.mma p acc _ _ _ fmt, _) => (p, acc.toNat, fmt.toNat)
    | _ => (none, 0, 0)
  { cv := byteAt bs 0, slot := if byteAt bs 1 = 255 then none else some (byteAt bs 1), first := field bs 2 2, pfx := pfx,
    base := base, acc := acc, fmt := fmt, pairs := (List.range 4).map fun i => wordAt bs (16 + 8 * i),
    signers := (List.range 1024).filter fun i => bitAt bs 64 i }

def decGroups (bs : List Byte) : List Group :=
  (records 136 (field bs 0 4) (bs.drop 64)).map fun g =>
    { key := wordAt g 0, members := (List.range 1024).filter fun i => bitAt g 8 i }

def guardOf (n : Nat) : GuardState :=
  match n with
  | 1 => .pending
  | 2 => .true
  | 3 => .false
  | _ => .free

/-- A team's part; a claim's producer is found with the pending descriptors. -/
def decTeam (slot : Nat) (bs : List Byte) : Team :=
  { emptyTeam slot (slot % 4) with
    held := byteAt bs 4 % 2 == 1, accessRun := byteAt bs 4 / 2 % 2 == 1,
    ctr := Vector.ofFn fun i => byteAt bs i.val,
    guards := Vector.ofFn fun i => { state := guardOf (byteAt bs (8 + i.val)), episode := 1 },
    pops := Vector.ofFn fun i => field bs (64 + 4 * i.val) 4,
    startRegs := (List.range 32).map fun l => (List.range 32).map fun r => wordAt bs (576 + 256 * l + 8 * r),
    cells := ((List.range 512).filter fun i => bitAt bs (576 + 8192 + 4096) i).map fun i =>
      (i, wordAt bs (576 + 8192 + 8 * i)) }

def decTile (bs : List Byte) : List Word := (List.range 128).map fun i => wordAt bs (8 * i)

/-- The handles with a committed tile, of so many: those named, else the first uncommitted mapped ones (log 18). -/
def committedOf (words : List Word) (extra : Nat) (kept : Option (List Nat)) : List Nat :=
  kept.getD (((List.range words.length).filter fun i =>
    let w := words.getD i 0
    w.toNat % 4 != 2 && w.getLsbD 2).take extra)

/-- Handles in order from number i on with the tiles that follow the state words: the current handle, and the committed tile
where one is recorded. -/
def decHandles (committed : List Nat) : Nat → List Word → List Byte → List (Handle × Option (List Word))
  | _, [], _ => []
  | i, w :: rest, bs =>
    let map := w.toNat % 4
    let x : Handle := { map := map, unc := w.getLsbD 2, skp := w.getLsbD 3, tile := List.replicate 128 0 }
    if map = 2 then (x, none) :: decHandles committed (i + 1) rest bs
    else if committed.contains i then
      ({ x with tile := decTile (bs.drop 1024) }, some (decTile bs)) :: decHandles committed (i + 1) rest (bs.drop 2048)
    else ({ x with tile := decTile bs }, none) :: decHandles committed (i + 1) rest (bs.drop 1024)

def decShadow (bs : List Byte) : Shadow :=
  { handle := byteAt bs 0, guard := byteAt bs 1, slot := byteAt bs 2, episode := 1, born := 0, tile := decTile (bs.drop 64),
    fault := if byteAt bs 3 % 2 = 1 then some { kind := .program (byteAt bs 4), addr := wordAt bs 8 } else none,
    touched := [] }

def decSnapThread (k : Kernel) (bs : List Byte) : SnapThread :=
  let fl := byteAt bs 4
  { tid := field bs 0 2, slot := byteAt bs 2, lane := byteAt bs 3, life := lifeOf fl, spawned := fl % 2 == 1,
    wb := 32 * byteAt bs 5, spth := BitVec.ofNat 5 (byteAt bs 6), rm := BitVec.ofNat 3 (byteAt bs 7), tvec := wordAt bs 8,
    fpst := BitVec.ofNat 5 (byteAt bs 16), live := (List.range k.restartCount).map fun i => wordAt bs (64 + 8 * i) }

/-- A pending descriptor's fields (16 R338). -/
structure PendDesc where
  cls : Nat
  desc : OpDesc
  tid : Nat
  slot : Nat
  dest : Nat
  guard : Nat
  acc : Nat
  after : Bool
  progress : Nat
deriving DecidableEq, Repr

def decDesc (bs : List Byte) : PendDesc :=
  { cls := byteAt bs 0,
    desc := { major := byteAt bs 1, fn := byteAt bs 2, qual := byteAt bs 3, rm := byteAt bs 9,
              operands := (List.range 4).map fun i => wordAt bs (24 + 8 * i) },
    tid := field bs 4 2, slot := byteAt bs 6, dest := byteAt bs 7, guard := byteAt bs 8, acc := byteAt bs 10,
    after := byteAt bs 11 % 2 == 1, progress := field bs 16 8 }

/-- A block record as read: the block without its place, its pending descriptors and claims, the kind of core it needs. -/
structure BlockImage where
  block : Block
  pend : List PendDesc
  claims : List (Nat × Nat)
  kind : Nat
deriving DecidableEq, Repr

/-- The zero bits of a thread record with d registers (16 R337). -/
def threadZeros (d : Nat) (t : List Byte) : Bool :=
  decide (byteAt t 4 < 32) && zeroAt t 57 7
  && (byteAt t 4 / 4 % 2 == 0 || decide (byteAt t 4 ≤ 5) && zeroAt t 5 (187 + 8 * d))
  && ((List.range 4).all fun i => decide (byteAt t (64 + 24 * i + 4) ≤ 1) && zeroAt t (64 + 24 * i + 5) 3)
  && field t 160 32 / 2 ^ d == 0

/-- A spawn area: the count within its entries, the header's and the entries' zero bytes. -/
def spawnZeros (entries : Nat) (bs : List Byte) : Bool :=
  decide (field bs 0 4 ≤ entries) && zeroAt bs 4 60
  && (records 144 (field bs 0 4) (bs.drop 64)).all fun e =>
    byteAt e 15 == 0 && decide (byteAt e 13 ≤ 16) && zeroAt e (16 + 8 * byteAt e 13) (128 - 8 * byteAt e 13)

def barZeros (e : List Byte) : Bool :=
  decide (byteAt e 4 ≤ 1) && decide (byteAt e 5 ≤ 3) && byteAt e 7 == 0 && (decide (byteAt e 5 % 3 = 0) || zeroAt e 0 4)

def declZeros (e : List Byte) : Bool := decide (byteAt e 0 ≤ 2) && zeroAt e 1 7 && zeroAt e 16 48

def roundZeros (e : List Byte) : Bool := zeroAt e 12 4 && zeroAt e 48 16

def teamZeros (t : List Byte) : Bool :=
  decide (byteAt t 4 ≤ 3) && zeroAt t 5 3 && zeroAt t 24 40 && (List.range 16).all fun i => decide (byteAt t (8 + i) ≤ 3)

def shadowZeros (w : List Byte) : Bool := decide (byteAt w 3 ≤ 1) && zeroAt w 5 3 && zeroAt w 16 48

def snapZeros (e : List Byte) : Bool := decide (byteAt e 4 < 16) && byteAt e 4 / 2 % 2 == 0 && zeroAt e 17 47

def descZeros (e : List Byte) : Bool := decide (byteAt e 11 ≤ 1) && zeroAt e 12 4 && zeroAt e 56 8

/-- Sizes of the parts and pieces of a record before they are padded. -/
def Shape.rawHead (x : Shape) : List Nat :=
  [x.t * (192 + 8 * x.d), 64 + 144 * x.e, x.scr, 136 * x.nb, 1024 + 192 * x.r, 64 + 136 * x.g, (x.n + x.s) * 12992]

def Shape.rawSnap (x : Shape) : List Nat :=
  [x.t * (64 + 8 * x.l), 64 + 144 * x.e, 136 * x.nb, 1024, 64 + 136 * x.gs, 512 * (x.n + x.s)]

/-- The bytes that pad pieces of given sizes are zero. -/
def padZeros (raw : List Nat) (ps : List (List Byte)) : Bool :=
  (raw.zip ps).all fun x => zeroAt x.2 x.1 (x.2.length - x.1)

/-- The zero bytes of a record and the counts in it (16 R332, R335 to R338). -/
def recordZeros (bs : List Byte) : Bool :=
  let x := shapeOf bs
  let size := field bs 0 8
  let ps := pieces x.head (bs.drop 256)
  let part := fun (i : Nat) => ps.getD i []
  let headLen := 256 + x.head.sum
  let tailLen := x.snapPieces.sum + 64 * x.p
  let hs := sub bs headLen (size - headLen - tailLen)
  let sns := pieces x.snapPieces (bs.drop (size - tailLen))
  let sn := fun (i : Nat) => sns.getD i []
  zeroAt bs 60 4 && zeroAt bs 98 158 && decide (byteAt bs 20 < 8) && decide (byteAt bs 18 ≤ 2) && decide (x.l ≤ 16)
  && padZeros x.rawHead ps && padZeros x.rawSnap sns
  && (records (192 + 8 * x.d) x.t (part 0)).all (threadZeros x.d)
  && spawnZeros x.e (part 1) && spawnZeros x.e (sn 1)
  && (records 136 x.nb (part 3)).all barZeros && (records 136 x.nb (sn 2)).all barZeros
  && (records 64 16 (part 4)).all declZeros && (records 64 16 (sn 3)).all declZeros
  && (records 192 x.r ((part 4).drop 1024)).all roundZeros
  && zeroAt (part 5) 4 60 && zeroAt (sn 4) 4 60
  && (records 12992 (x.n + x.s) (part 6)).all teamZeros
  && ((List.range 64).all fun i => decide (byteAt hs (8 * i) < 16) && zeroAt hs (8 * i + 1) 7)
  && (records 1088 x.h (hs.drop (hs.length - 1088 * x.h))).all shadowZeros
  && (records (64 + 8 * x.l) x.t (sn 0)).all snapZeros
  && (records 64 x.p (bs.drop (size - 64 * x.p))).all descZeros

/-- Kernel declarations as the record gives them, over those of its parameter block. -/
def recordKernel (bs : List Byte) (k : Kernel) : Kernel :=
  { k with
    regs := field bs 16 2, n := byteAt bs 14, s := byteAt bs 15, scratch := field bs 40 4, spawnEntries := field bs 44 4,
    acc := field bs 48 2, restartFirst := byteAt bs 21, restartCount := byteAt bs 22 }

/-- The block of a record; kept names the handles with a committed tile, where they are known. The snapshot's scratchpad, which
no record holds, is the recorded one (log 18). -/
def decBlock (bases : List Nat) (k0 : Kernel) (since kind : Nat) (kept : Option (List Nat)) (bs : List Byte) : BlockImage :=
  let x := shapeOf bs
  let k := recordKernel bs k0
  let ps := pieces x.head (bs.drop 256)
  let part := fun (i : Nat) => ps.getD i []
  let size := field bs 0 8
  let headLen := 256 + x.head.sum
  let tailLen := x.snapPieces.sum + 64 * x.p
  let hs := sub bs headLen (size - headLen - tailLen)
  let sns := pieces x.snapPieces (bs.drop (size - tailLen))
  let sn := fun (i : Nat) => sns.getD i []
  let words := (List.range 64).map fun i => wordAt hs (8 * i)
  let mapped := (words.filter fun w => w.toNat % 4 != 2).length
  let extra := if kind = 2 then (hs.length - 512 - 1088 * x.h) / 1024 - mapped else 0
  let dh := decHandles (committedOf words extra kept) 0 words (hs.drop 512)
  let handles : Vector Handle 64 := Vector.ofFn fun i => (dh.map (·.1)).getD i.val emptyHandle
  let was : Vector Handle 64 := Vector.ofFn fun i =>
    match dh.getD i.val (emptyHandle, none) with
    | (_, some t) => { map := 0, unc := false, skp := false, tile := t }
    | (h, none) => if h.unc then emptyHandle else { h with skp := false }
  let bars := (records 136 x.nb (part 3)).map decBar
  let outst := fun (tid : Nat) => (bars.filter fun y => y.2.contains tid).map (·.1.id)
  let ts := ((records (192 + 8 * x.d) x.t (part 0)).take (32 * x.n)).map (decThread bases k since)
  let ts := ts.map fun t =>
    let o := outst t.tid
    { t with outst := o, barsWait := t.barsWait || o.contains .commit }
  let snBars := (records 136 x.nb (sn 2)).map decBar
  let snOut := fun (tid : Nat) => (snBars.filter fun y => y.2.contains tid).map (·.1.id)
  let teamBytes := records 12992 (x.n + x.s) (part 6)
  let teams := teamBytes.mapIdx decTeam
  let snap : Snapshot :=
    { threads := ((records (64 + 8 * x.l) x.t (sn 0)).take (32 * x.n)).map (decSnapThread k),
      spawn := decSpawns since (sn 1), held := (List.range (x.n + x.s)).map fun _ => true,
      bars := (snBars.map (·.1)).filter (·.id.inBlock), outst := ts.map fun t => snOut t.tid,
      conv := Vector.ofFn fun i => decDecl (sub (sn 3) (64 * i.val) 64), groups := decGroups (sn 4),
      pops := (List.range (x.n + x.s)).map fun i => Vector.ofFn fun j => field (sn 5) (512 * i + 4 * j.val) 4,
      cursor := field bs 80 8, handles := was, scratch := cellsPut [] 0 (sub (part 2) 0 x.scr),
      ran := teams.map fun tm => (tm.accessRun, tm.startRegs) }
  let held := (List.range (x.n + x.s)).map fun i => snap.threads.any fun t => t.slot == i && t.life == .running
  let b : Block :=
    { bid := 0, part := 0, ctx := 0, launch := 0, grid := BitVec.ofNat 32 (field bs 88 4), idx := field bs 8 4,
      nblk := field bs 92 4, crank := byteAt bs 12, csize := byteAt bs 13, cluster := 0, die := 0, core := 0, kind := .mCore,
      reqKind := byteAt bs 18,
      cfg := byteAt bs 19, kernel := k, args := [], coresident := false, redundant := false, twin := none, primary := true,
      commission := none, node := none, placed := 0, state := .running,
      teams := teams, threads := ts, access := [],
      scratch := cellsPut [] 0 (sub (part 2) 0 x.scr), spawn := decSpawns since (part 1),
      bars := (bars.map (·.1)).filter (·.id.inBlock),
      conv := Vector.ofFn fun i => decDecl (sub (part 4) (64 * i.val) 64),
      rounds := (records 192 x.r ((part 4).drop 1024)).map decRound, handles := handles,
      shadows := (records 1088 x.h (hs.drop (hs.length - 1088 * x.h))).map decShadow, groups := decGroups (part 5), arrivals := [],
      label := wordAt bs 64, commitVals := [], snap := some { snap with held := held }, distT := 0, distG := 0,
      cursor := field bs 72 8, held := [], mismatched := [], cmpAt := [], grants := [], opDone := [], issued := [],
      errorBanks := [], wanted := false }
  { block := b, pend := (records 64 x.p (bs.drop (size - 64 * x.p))).map decDesc,
    claims := (teamBytes.mapIdx fun slot t =>
      ((List.range 512).filter fun i => bitAt t (576 + 8192 + 4096 + 64) i).map fun i => (slot, i)).flatten,
    kind := byteAt bs 18 }

/-! ## The header of a canvas read (16 R332, R333) -/

/-- The zero bytes and counts of the sections of a canvas (16 R333, R340 to R342). -/
def sectionZeros (bs : List Byte) : Bool :=
  let size := field bs 16 8
  let clu := field bs 48 8
  let graph := field bs 56 8
  let atl := field bs 64 8
  let pages := field bs 72 8
  let cluN := 128 * field bs clu 4 + if byteAt bs (clu + 4) = 0 then 0 else 64
  let g := fun (i : Nat) => field bs (graph + 4 * i) 4
  let gSizes := [64, 128 * g 0, up64 (16 * g 1), 64 * g 2, up64 (16 * g 3)]
  let dirEnd := field bs 40 8 + 8 * field bs 12 4
  zeroAt bs dirEnd (up64 dirEnd - dirEnd)
  && (clu == 0 || decide (clu + 64 + cluN ≤ size) && decide (byteAt bs (clu + 4) ≤ 1) && zeroAt bs (clu + 5) 59
      && (records 8 (cluN / 8) (bs.drop (clu + 64))).all fun e => decide (byteAt e 6 ≤ 1) && byteAt e 7 == 0)
  && (graph == 0 || decide (graph + gSizes.sum ≤ size) && zeroAt bs (graph + 16) 48
      && ((records 128 (g 0) (bs.drop (graph + 64))).all fun e => zeroAt e 80 48)
      && zeroAt bs (graph + 64 + 128 * g 0 + 16 * g 1) (up64 (16 * g 1) - 16 * g 1)
      && zeroAt bs (graph + gSizes.sum - (up64 (16 * g 3) - 16 * g 3)) (up64 (16 * g 3) - 16 * g 3))
  && (atl == 0 || decide (atl + 64 + 65600 * field bs atl 4 ≤ size) && zeroAt bs (atl + 4) 60
      && (List.range (field bs atl 4)).all fun i => zeroAt bs (atl + 64 + 65600 * i + 8) 56)
  && (pages == 0 ||
      let n := field bs 80 8
      decide (pages + up64 (32 * n) ≤ size) && zeroAt bs (pages + 32 * n) (up64 (32 * n) - 32 * n)
      && (records 32 n (bs.drop pages)).all fun e => zeroAt e 24 8 && field e 0 8 % 4096 == 0)

/-- The handles part of a record lies within it: the state words, a tile for each mapped handle, and the shadows (16 R336). -/
def handlesFit (r : List Byte) : Bool :=
  let x := shapeOf r
  let words := 256 + x.head.sum
  let mapped := ((List.range 64).filter fun i => byteAt r (words + 8 * i) % 4 != 2).length
  decide (words + 512 + x.snapPieces.sum + 64 * x.p ≤ field r 0 8)
  && decide (words + 512 + 1024 * mapped + 1088 * x.h + x.snapPieces.sum + 64 * x.p ≤ field r 0 8)

/-- The structural checks of the header and the offsets. -/
def headerOk (bs : List Byte) : Bool :=
  let size := field bs 16 8
  let nblk := field bs 12 4
  let nobj := field bs 24 4
  let secs := [field bs 48 8, field bs 56 8, field bs 64 8, field bs 72 8]
  decide (128 ≤ bs.length) && field bs 0 4 == 0x56435849 && field bs 4 2 == 1 && decide (byteAt bs 7 ≤ 3)
  && decide (size ≤ bs.length) && decide (nobj ≤ 65534) && decide (field bs 28 4 < 8) && zeroAt bs 104 24
  && field bs 32 8 % 64 == 0 && decide (field bs 32 8 + 64 * nobj ≤ size)
  && field bs 40 8 % 64 == 0 && decide (field bs 40 8 + 8 * nblk ≤ size)
  && (secs.all fun o => o % 64 == 0 && decide (o ≤ size))
  && decide (field bs 72 8 + 32 * field bs 80 8 ≤ size)
  && ((List.range nblk).all fun i =>
      let o := field bs (field bs 40 8 + 8 * i) 8
      o % 64 == 0 && decide (o + 256 ≤ size)
      && (let r := bs.drop o
          decide (o + field r 0 8 ≤ size) && handlesFit r && recordZeros r))
  && ((List.range nobj).all fun i => zeroAt bs (field bs 32 8 + 64 * i + 48) 16)
  && sectionZeros bs
  && (byteAt bs 7 == 1 || byteAt bs 7 == 2 || field bs 88 8 == 0)
  && (!(byteAt bs 7 == 1 || byteAt bs 7 == 2) ||
      (List.range nblk).all fun i =>
        let r := bs.drop (field bs (field bs 40 8 + 8 * i) 8)
        field r 88 8 == field bs 88 8 && decide (field r 8 4 < field r 92 4))

/-- The block records of a canvas. -/
def canvasRecords (bs : List Byte) : List (List Byte) :=
  (List.range (field bs 12 4)).map fun i =>
    let r := bs.drop (field bs (field bs 40 8 + 8 * i) 8)
    r.take (field r 0 8)

/-- The objects a canvas lists: hash and base. -/
def canvasObjs (bs : List Byte) : List (List Byte × Nat) :=
  (List.range (field bs 24 4)).map fun i =>
    let o := field bs 32 8 + 64 * i
    (sub bs o 32, field bs (o + 32) 8)

/-- The bytes of the canvas that lies at an address of a context. -/
def canvasAt (s : State) (v : View) (va : Nat) : List Byte ⊕ AccFault :=
  match peek s v va 128 with
  | .inr f => .inr f
  | .inl h => peek s v va (max 128 (field h 16 8))

/-- The same as a packet reads it while it is executed, which counts as an access (15 R316). -/
def canvasLoad (s : State) (v : View) (va : Nat) : (List Byte × State) ⊕ AccFault :=
  match loadBytes s v va 128 with
  | .inr f => .inr f
  | .inl (h, s') => loadBytes s' v va (max 128 (field h 16 8))

end Sys2Proof.Machine
end

