-- ==== Sys2Proof/Machine/Launch.lean ====
section
/-! DEFINITION. Placement: what a block needs of a core (14 R302, 16 R350), configurations (14 R303), blocks, clusters, twins
and co-resident grids placed by gesso canvases (14 R301, 17 R360), and what happens when blocks and launches end
(14 R293, R305, R306). -/

namespace Sys2Proof.Machine

/-! ## Cores and room -/

def coreKindOf (core : Nat) : CoreKind := if core < Config.mCores then .mCore else .sCore

/-- Does a core meet a required kind: 0 M, 1 S, 2 either (16 R335)? -/
def kindOk (need core : Nat) : Bool :=
  match need with
  | 0 => coreKindOf core == .mCore
  | 1 => coreKindOf core == .sCore
  | _ => true

/-- Does a block hold its reservation? One that ended holds it as long as its cluster runs (01 R16). -/
def resident (b : Block) : Bool :=
  match b.state with
  | .suspended r _ => r
  | _ => true

/-- Registers, teams, scratchpad bytes and tiles that a kernel's block takes (14 R302). -/
def needs (k : Kernel) : List Nat :=
  [k.regs * 32 * k.slots, k.slots, k.scratch + 144 * k.spawnEntries, k.acc, 1]

/-- The same resources of a core: registers, teams (48, and what the registers leave), scratchpad, tiles, block slots. -/
def capsOf (s : State) (die core : Nat) : List Nat :=
  let c := coreStat s die core
  let kind := coreKindOf core
  [capRegs c, min 48 (capThreads c / 32), capScratch kind c, capTiles kind c, 32]

def sumNeeds (bs : List Block) : List Nat :=
  bs.foldl (fun a b => a.zipWith (· + ·) (needs b.kernel)) [0, 0, 0, 0, 0]

/-- What the resident blocks leave of a core. -/
def freeOf (s : State) (die core : Nat) : List Nat :=
  (capsOf s die core).zipWith (· - ·) (sumNeeds (s.blocks.filter fun b => b.die == die && b.core == core && resident b))

/-- How many blocks of a need go into an amount of each resource. -/
def roomIn (room need : List Nat) : Nat :=
  ((room.zip need).filterMap fun x => if x.2 = 0 then none else some (x.1 / x.2)).foldl min 32

def lostCore (s : State) (die core : Nat) : Bool := (coreStat s die core).lost

/-- Dies of a partition in service. -/
def diesOf (s : State) (p : Nat) : List Nat :=
  (List.range Config.dies).filter fun d => (s.part p).cfg.dies.getLsbD d && !s.dieOut.getLsbD d

/-- Spawn area entries that a block may have (01 R20). -/
def spawnLimit : CoreKind → Nat
  | .mCore => 512
  | .sCore => 2048

/-- Working cores of a die of a kind that may hold a kernel's block. -/
def coresOf (s : State) (die need : Nat) (k : Kernel) : List Nat :=
  (List.range (Config.mCores + Config.sCores)).filter fun c =>
    kindOk need c && !lostCore s die c && decide (k.spawnEntries ≤ spawnLimit (coreKindOf c))

/-- The kind a launch's kernel needs (01 R21). -/
def kernelKind (k : Kernel) : Nat := if k.acc ≠ 0 then 0 else 2

/-- Blocks of a kernel that an empty die, or one as it stands, holds. -/
def dieRoom (s : State) (die need : Nat) (k : Kernel) (empty : Bool) : Nat :=
  ((coresOf s die need k).map fun c => roomIn (if empty then capsOf s die c else freeOf s die c) (needs k)).sum

/-- Units of csize blocks that the partition holds. -/
def partRoom (s : State) (p need csize : Nat) (k : Kernel) (empty : Bool) : Nat :=
  ((diesOf s p).map fun d => dieRoom s d need k empty / csize).sum

/-! ## Placing -/

/-- The first core of a die with room for a kernel's block, but for those to avoid. -/
def pickCore (s : State) (die need : Nat) (avoid : List Nat) (k : Kernel) : Option Nat :=
  (coresOf s die need k).find? fun c => !avoid.contains c && decide (1 ≤ roomIn (freeOf s die c) (needs k))

/-- Blocks added one by one on a die; mk gives a block its number, core and crank. The cores taken come back with them; avoid
holds, for each of them in turn, a core it may not take. -/
def addUnit (die need : Nat) (k : Kernel) (mk : Nat → Nat → Nat → Block) : Nat → Nat → List Nat → State →
    Option (State × List Nat)
  | 0, _, _, s => some (s, [])
  | n + 1, crank, avoid, s =>
    match pickCore s die need (avoid.take 1) k with
    | none => none
    | some c =>
      let b := mk s.nextId c crank
      match addUnit die need k mk n (crank + 1) (avoid.drop 1)
          { s with nextId := s.nextId + 1, blocks := s.blocks ++ [b] } with
      | none => none
      | some (s', cs) => some (s', c :: cs)

/-- A warm slot of a die for a context's kernel: most recently used first, 32 of them (14 R307). -/
def warmUp (s : State) (die ctx : Nat) (kpb : Word) : State :=
  let mine := ((s.warm.filter fun w => w.1 == die && w.2 != (ctx, kpb)).take 31)
  { s with warm := (die, ctx, kpb) :: mine ++ s.warm.filter fun w => w.1 != die }

/-- What a placed block brings: its image as a first pentimento (10 R240, 17 R355), and the lines of .prefetch in its core's
instruction cache (14 R301 step 5). -/
def pushLine (s : State) (b : Block) (va : Nat) : State :=
  match locate s b.view needX va with
  | .bad _ => s
  | .ok l =>
    let (c, s) := if leafCode [l] then codeCheck s b.part b.ctx va else (.ok, s)
    let line : ICLine := { die := b.die, core := b.core, ctx := b.ctx, line := va / 128 }
    if c = .ok then { s with icache := keepWays line (s.icache.filter (· != line)) } else s

/-- A .prefetch target's line, and the next where the target is a prefix at a line's end. -/
def pushTarget (s : State) (b : Block) (off : Nat) : State :=
  let va := b.kernel.base.toNat + off
  let s := pushLine s b va
  if lenAt s b.view (BitVec.ofNat 64 va) = 8 ∧ (va + 4) / 128 ≠ va / 128 then pushLine s b (va + 4) else s

def settlePlaced (s : State) (bid : Nat) : State :=
  match s.block? bid with
  | none => s
  | some b =>
    let img : Pentimento :=
      { bid := bid, complete := true, irrev := false, image := b, ops := s.ops.filter fun o => o.bid == bid,
        prods := s.prods.filter fun p => p.bid == bid }
    let s : State := { s with pents := (s.pents.filter fun p => p.bid != bid) ++ [img] }
    b.kernel.prefetch.foldl (fun s off => pushTarget s b off) (warmUp s b.die b.ctx b.kernel.kpb)

/-- A cluster's barriers are made anew. -/
def newCluster (s : State) (k : Kernel) (csize : Nat) : State × Nat :=
  ({ s with
    nextId := s.nextId + 1, clusters := s.clusters ++ [{ cid := s.nextId, bars := clusterBarsOf k csize }] }, s.nextId)

/-- Two units are twins: the one on the lower die, then core, is the primary (17 R360). -/
def pairTwins (s : State) (xs ys : List Block) : State :=
  (xs.zip ys).foldl (fun s p =>
    let first := decide (p.1.die < p.2.die) || (p.1.die == p.2.die && decide (p.1.core < p.2.core))
    (s.onBlock p.1.bid fun b => { b with twin := some p.2.bid, primary := first }).onBlock p.2.bid fun b =>
      { b with twin := some p.1.bid, primary := !first }) s

/-- A unit of csize blocks on the first die where it fits; for redundant mode its twins on another die when there is one. mk
gives a block its number, die, core, crank and cluster. -/
def placePair (s : State) (p need csize : Nat) (prefer : Option Nat) (redundant : Bool) (k : Kernel)
    (mk : Nat → Nat → Nat → Nat → Nat → Block) : Option State :=
  let all := diesOf s p
  let dies := (prefer.toList.filter all.contains) ++ all.filter fun d => prefer != some d
  let one := fun (s : State) (avoid : List Nat) (die : Nat) =>
    let (s1, cid) := newCluster s k csize
    addUnit die need k (fun bid core crank => mk bid die core crank cid) csize 0 avoid s1
  let try1 := fun (s : State) (avoid : Nat → List Nat) (ds : List Nat) =>
    ds.findSome? fun d => (one s (avoid d) d).map fun r => (r, d)
  match try1 s (fun _ => []) dies with
  | none => none
  | some ((s1, cores), d) =>
    let fresh := s1.blocks.drop s.blocks.length
    let s2 := fresh.foldl (fun s b => settlePlaced s b.bid) s1
    if !redundant then some s2
    else
      let others := if all.length ≤ 1 then all else all.filter (· != d)
      match try1 s2 (fun d' => if d' = d then cores else []) others with
      | none => none
      | some ((s3, _), _) =>
        let twins := s3.blocks.drop s2.blocks.length
        some (pairTwins (twins.foldl (fun s b => settlePlaced s b.bid) s3) fresh twins)

/-- The same; twins that may stand on either kind of core stand on one kind (17 R360). -/
def placeUnit (s : State) (p need csize : Nat) (prefer : Option Nat) (redundant : Bool) (k : Kernel)
    (mk : Nat → Nat → Nat → Nat → Nat → Block) : Option State :=
  (if redundant && need == 2 then [0, 1] else [need]).findSome? fun n => placePair s p n csize prefer redundant k mk

/-! ## Launches (14 R301 to R303) -/

/-- Units of a launch, or pairs of them in redundant mode, that the partition holds. -/
def launchRoom (s : State) (l : Launch) (need : Nat) (k : Kernel) (empty : Bool) : Nat :=
  let units := fun (n : Nat) => partRoom s l.part n k.cluster k empty
  if !l.redundant then units need else if need = 2 then units 0 / 2 + units 1 / 2 else units need / 2

/-- Can a configuration be placed on an empty partition (14 R303)? -/
def cfgFits (s : State) (l : Launch) (need : Nat) (k : Kernel) : Bool :=
  let room := launchRoom s l need k true
  decide (1 ≤ k.cluster) && l.nblk % k.cluster == 0 && decide (1 ≤ room)
  && (!l.coresident || decide (l.nblk / k.cluster ≤ room))

/-- The configuration a launch takes: its number and kernel. -/
def chooseCfg (s : State) (l : Launch) (need : Kernel → Nat) : Option (Nat × Kernel) :=
  let ks := (l.kpbs.mapIdx fun i a => (i, a)).filterMap fun x =>
    if x.2 = 0 then none else (loadedKernel s l.part l.ctx x.2.toNat).map fun k => (x.1, k)
  ks.find? fun x => cfgFits s l (need x.2) x.2

def setLaunch (s : State) (l : Launch) : State :=
  { s with launches := s.launches.map fun x => if x.lid = l.lid then l else x }

/-- A launch's next block from a gesso canvas. -/
def launchBlock (s : State) (l : Launch) (cfg : Nat) (k : Kernel) (bid die core crank cid : Nat) : Block :=
  let b := gessoBlock bid l.part l.ctx l.lid l.grid (l.next + crank) l.nblk crank k.cluster cid die core (coreKindOf core) cfg k
    l.args l.coresident l.redundant s.nextId s.cycle
  { b with distT := l.distT, distG := l.distG, cursor := shareLo l.distT l.nblk b.idx }

/-- The next unit of a launch, if there is room. -/
def placeNext (s : State) (l : Launch) (cfg : Nat) (k : Kernel) (need : Nat) (prefer : Option Nat) : Option State :=
  match placeUnit s l.part need k.cluster prefer l.redundant k (launchBlock s l cfg k) with
  | none => none
  | some s' => some (setLaunch s' { l with next := l.next + k.cluster })

/-- Units until the launch is placed or room ends; fuel bounds them. -/
def placeMany (cfg : Nat) (k : Kernel) (need : Nat) (prefer : Option Nat) : Nat → Launch → State → State
  | 0, _, s => s
  | n + 1, l, s =>
    if l.nblk ≤ l.next then s
    else match placeNext s l cfg k need prefer with
      | none => s
      | some s' => placeMany cfg k need prefer n { l with next := l.next + k.cluster } s'

/-- The launch is at its end before it began: OVERCAP or CODEINT (14 R303, 15 R328). -/
def failLaunch (s : State) (l : Launch) (status : Nat) : State :=
  let s := setLaunch s { l with next := l.nblk, status := max l.status status }
  if status = 2 then stick s l.ctx stickOvercap else s

/-- Could the launch place its next unit now? -/
def hasRoom (s : State) (l : Launch) (need : Kernel → Nat) : Bool :=
  match chooseCfg s l need with
  | none => true
  | some (cfg, k) =>
    if l.coresident then
      decide (l.nblk / k.cluster ≤ launchRoom s l (need k) k false)
    else (placeNext s l cfg k (need k) none).isSome

/-- A launch places what fits: a co-resident grid whole or not at all (14 R302). -/
def advanceLaunch (s : State) (l : Launch) (need : Kernel → Nat) (prefer : Option Nat) : State :=
  if l.nblk ≤ l.next then s
  else if l.kpbs.any fun a => a != 0 && kernelPoisoned s l.ctx a.toNat then failLaunch s l 5
  else match chooseCfg s l need with
    | none => failLaunch s l 2
    | some (cfg, k) =>
      let l1 := if l.next = 0 then { l with bars := gridBarsOf k l.nblk } else l
      let room := launchRoom s l (need k) k false
      if l.coresident ∧ room < l.nblk / k.cluster then s
      else
        let s' := placeMany cfg k (need k) prefer (room + 1) l1 (setLaunch s l1)
        if l.coresident && ((s'.launches.find? fun x => x.lid == l.lid).any fun x => decide (x.next < x.nblk)) then s else s'

/-! ## The end of blocks (14 R293, R305, R306) -/

/-- A serviceable fault that the copies of a node's tiles would meet: of modes 1 and 3 before it starts, of modes 2 and 3 after
its last thread (14 R305). -/
def tileWait (s : State) (v : View) (d : List Byte) (back : Bool) : Option AccFault :=
  (tileOps d).findSome? fun t =>
    if t.mode = (if back then 1 else 2) then none else firstService s v (if back then needW else needR) t.addr t.size

/-- A serviceable fault that the reading of a node's successor list would meet (14 R306). -/
def succWait (s : State) (v : View) (d : List Byte) : Option AccFault := firstService s v needR (field d 16 8) (8 * field d 26 2)

/-- A node's tiles of modes 1 and 3 as memory has them: bytes and token for each (14 R305). -/
def readTiles (s : State) (v : View) (d : List Byte) : State × List (TileOp × List Byte × Word) :=
  (tileOps d).foldl (fun (a : State × List (TileOp × List Byte × Word)) t =>
    if t.mode = 2 then (a.1, a.2 ++ [(t, [], 0)])
    else match loadBytes a.1 v t.addr t.size with
      | .inl (bs, s') => (s', a.2 ++ [(t, bs, BitVec.ofNat 64 t.size)])
      | .inr f => (a.1, a.2 ++ [(t, [], faultToken f)])) (s, [])

/-- A block that starts with tiles in its scratchpad and their tokens in its threads' registers, before its access slice starts
and its first restart snapshot is taken. -/
def withTiles (tiles : List (TileOp × List Byte × Word)) (since : Nat) (b : Block) : Block :=
  let b : Block := { b with
    access := [],
    scratch := tiles.foldl (fun m x => cellsPut m x.1.off x.2.1) b.scratch,
    threads := b.threads.map fun th => tiles.foldl (fun th x => th.writeN x.1.token x.2.2) th }
  let b := (List.range b.kernel.n).foldl (fun b slot => startAccess b since slot) b
  { b with snap := some (snapshot b) }

/-- The tiles of modes 2 and 3 after its last thread. -/
def unstageTiles (s : State) (b : Block) (d : List Byte) : State :=
  (tileOps d).foldl (fun s t =>
    if t.mode = 1 then s else (storeBytes s b.view t.addr (cellsBytes b.scratch t.off t.size)).1) s

/-- One decrement of a node, or a credit for one not yet accepted (14 R306). -/
def decrement (s : State) (ctx : Nat) (addr : Word) : State :=
  if s.nodes.any fun n => n.ctx == ctx && n.addr == addr && decide (0 < n.remaining) then
    { s with
      nodes := s.nodes.map fun n =>
        if n.ctx = ctx ∧ n.addr = addr then { n with remaining := n.remaining - 1 } else n }
  else if s.credits.any fun c => c.ctx == ctx && c.addr == addr then
    { s with
      credits := s.credits.map fun c => if c.ctx = ctx ∧ c.addr = addr then { c with count := c.count + 1 } else c }
  else { s with credits := s.credits ++ [{ ctx := ctx, addr := addr, count := 1 }] }

/-- The successors of a node that ended, in order. -/
def successors (s : State) (part ctx : Nat) (d : List Byte) : State :=
  let v : View := ctxView part ctx
  (List.range (field d 26 2)).foldl (fun s i =>
    match loadBytes s v (field d 16 8 + 8 * i) 8 with
    | .inl (bs, s') => decrement s' ctx (BitVec.ofNat 64 (leNat bs))
    | .inr _ => s) s

/-- A serviceable fault that the end of a node's block would meet: in the write-back of its tiles, then in its successor list. -/
def nodeWait (s : State) (b : Block) : Option AccFault :=
  b.node.bind fun x => (tileWait s b.view x.2 true).orElse fun _ => succWait s (ctxView b.part b.ctx) x.2

/-- A block that ended leaves the device; a node writes back its tiles and decrements its successors. Stores it
still holds go with it: the spec says nothing of them (DESIGN CHOICE, log 82). -/
def reapBlock (s : State) (bid : Nat) : State :=
  match s.block? bid with
  | none => s
  | some b =>
    let s := match b.node with
      | some (_, d) => successors (unstageTiles s b d) b.part b.ctx d
      | none => s
    let left := s.blocks.filter fun x => x.bid != bid
    { s with
      blocks := left,
      clusters := s.clusters.filter fun c => c.cid != b.cluster || left.any fun x => x.cluster == c.cid,
      prods := s.prods.filter fun p => p.bid != bid,
      ops := s.ops.filter fun o => o.bid != bid,
      pents := s.pents.filter fun p => p.bid != bid }

/-- May an ended block leave? A cluster's blocks leave together (01 R16), and so do twins. -/
def reapable (s : State) (b : Block) : Bool :=
  b.state == .ended && (s.blocks.all fun x => x.cluster != b.cluster || x.state == .ended) && match b.twin.bind s.block? with
    | some w => w.state == .ended || !b.redundant
    | none => true

/-- Nothing of a launch is left to place, to run or to restore. -/
def launchOver (s : State) (l : Launch) : Bool :=
  decide (l.nblk ≤ l.next) && !(s.blocks.any fun b => b.launch == l.lid) && !(s.captured.any fun c => c.blocks.any fun x => x.launch == l.lid)
  && !(s.nodes.any fun n => n.launch == l.lid) && !(s.commissions.any fun c => c.launch == l.lid)

/-- Status of a packet: the higher number is kept (14 R292). -/
def raiseStatus (s : State) (pid status : Nat) : State :=
  { s with packets := s.packets.map fun p => if p.pid = pid then { p with status := max p.status status } else p }

/-- A launch that is over tells its packet. -/
def reapLaunch (s : State) (l : Launch) : State :=
  let s : State := { s with launches := s.launches.filter fun x => x.lid != l.lid }
  match l.pid with
  | some pid => raiseStatus s pid l.status
  | none => s

end Sys2Proof.Machine
end

