-- ==== Sys2Proof/Machine/Signature.lean ====
section
/-! DEFINITION. HSS signatures with the parameter sets of 19 R388, LMS_SHA256_M32_H10 and LMOTS_SHA256_N32_W8: their
verification, and the two-level signatures of the device identity key (19 R400). The algorithms are those of RFC 8554, which the
spec names and does not repeat (PRESUMED, log 9). -/

namespace Sys2Proof.Machine

/-- n bytes of a number, the highest first. -/
def bigEndian : Nat → Nat → List Byte
  | 0, _ => []
  | n + 1, v => bigEndian n (v / 256) ++ [BitVec.ofNat 8 v]

def bigNat (bs : List Byte) : Nat := bs.foldl (fun a b => a * 256 + b.toNat) 0

def slice (bs : List Byte) (off n : Nat) : List Byte := (bs.drop off).take n

/-- Type codes of the parameter sets, and the numbers of chains and tree levels. -/
def lmotsType : Nat := 4

def lmsType : Nat := 6

def otsChains : Nat := 34

def lmsLevels : Nat := 10

/-- A key's identifier and the number of one of its leaves, as they begin what is hashed. -/
def keyPart (id : List Byte) (q : Nat) : List Byte := id ++ bigEndian 4 q

/-! ## One-time signatures -/

/-- A chain of hashes from step j on, n of them. -/
def otsChain (id : List Byte) (q i : Nat) : Nat → Nat → List Byte → List Byte
  | 0, _, x => x
  | n + 1, j, x => otsChain id q i n (j + 1) (sha256 (keyPart id q ++ bigEndian 2 i ++ bigEndian 1 j ++ x))

/-- The digest of a message with its checksum: 34 digits of 8 bits. -/
def otsDigits (id : List Byte) (q : Nat) (c msg : List Byte) : List Nat :=
  let d := sha256 (keyPart id q ++ bigEndian 2 0x8181 ++ c ++ msg)
  (d ++ bigEndian 2 (d.map fun b => 255 - b.toNat).sum).map (·.toNat)

/-- The public key that the ends of the chains give. -/
def otsKey (id : List Byte) (q : Nat) (ends : List (List Byte)) : List Byte :=
  sha256 (keyPart id q ++ bigEndian 2 0x8080 ++ ends.flatten)

/-- The public key that a one-time signature gives for a message. -/
def otsCandidate (id : List Byte) (q : Nat) (sig msg : List Byte) : List Byte :=
  otsKey id q ((otsDigits id q (slice sig 4 32) msg).mapIdx fun i a => otsChain id q i (255 - a) a (slice sig (36 + 32 * i) 32))

/-! ## Trees -/

/-- A leaf, and an inner node over its children. -/
def leafHash (id : List Byte) (node : Nat) (key : List Byte) : List Byte :=
  sha256 (keyPart id node ++ bigEndian 2 0x8282 ++ key)

def nodeHash (id : List Byte) (node : Nat) (left right : List Byte) : List Byte :=
  sha256 (keyPart id node ++ bigEndian 2 0x8383 ++ left ++ right)

/-- The root above a node along a path. -/
def climb (id : List Byte) : List (List Byte) → Nat → List Byte → List Byte
  | [], _, x => x
  | p :: rest, node, x =>
    climb id rest (node / 2) (if node % 2 = 1 then nodeHash id (node / 2) p x else nodeHash id (node / 2) x p)

/-- Bytes of a one-time signature, of a signature of a tree, and of a tree's public key. -/
def otsSize : Nat := 4 + 32 + 32 * otsChains

def lmsSize : Nat := 4 + otsSize + 4 + 32 * lmsLevels

def lmsKeySize : Nat := 56

/-- Does a tree's signature verify? -/
def lmsVerify (key msg sig : List Byte) : Bool :=
  let id := slice key 8 16
  let q := bigNat (slice sig 0 4)
  let node := 2 ^ lmsLevels + q
  let path := (List.range lmsLevels).map fun i => slice sig (8 + otsSize + 32 * i) 32
  key.length == lmsKeySize && sig.length == lmsSize && bigNat (slice key 0 4) == lmsType && bigNat (slice key 4 4) == lmotsType
  && bigNat (slice sig 4 4) == lmotsType && bigNat (slice sig (4 + otsSize) 4) == lmsType && decide (q < 2 ^ lmsLevels)
  && climb id path node (leafHash id node (otsCandidate id q (slice sig 4 otsSize) msg)) == slice key 24 32

/-- Signatures of further levels: each signs the next tree's public key, and the last the message. -/
def hssLevels (msg : List Byte) : Nat → List Byte → List Byte → Bool
  | 0, key, sig => lmsVerify key msg sig
  | n + 1, key, sig =>
    let next := slice sig lmsSize lmsKeySize
    lmsVerify key next (sig.take lmsSize) && hssLevels msg n next (sig.drop (lmsSize + lmsKeySize))

/-- Does an HSS signature of a message verify under a public key (19 R388)? -/
def hssVerify (key msg sig : List Byte) : Bool :=
  let levels := bigNat (slice key 0 4)
  decide (1 ≤ levels) && decide (levels ≤ 8) && bigNat (slice sig 0 4) + 1 == levels
  && hssLevels msg (levels - 1) (key.drop 4) (sig.drop 4)

/-! ## The identity key (19 R400) -/

/-- Tree 0 of the identity key is the top one, and tree n + 1 lies under its leaf n. What was generated at manufacture is free
(log 9): a tree's identifier, and where chain i of its leaf q starts. -/
def treeId (k : Nat) : List Byte := (Config.identityId k ++ List.replicate 16 0).take 16

def chainStart (k q i : Nat) : List Byte := (Config.identitySeed k q i ++ List.replicate 32 0).take 32

/-- The one-time public key of leaf q. -/
def leafKey (k q : Nat) : List Byte :=
  otsKey (treeId k) q ((List.range otsChains).map fun i => otsChain (treeId k) q i 255 0 (chainStart k q i))

/-- The node of a number, h levels above the leaves. -/
def treeNode (k : Nat) : Nat → Nat → List Byte
  | 0, n => leafHash (treeId k) n (leafKey k (n - 2 ^ lmsLevels))
  | h + 1, n => nodeHash (treeId k) n (treeNode k h (2 * n)) (treeNode k h (2 * n + 1))

def treeKey (k : Nat) : List Byte := bigEndian 4 lmsType ++ bigEndian 4 lmotsType ++ treeId k ++ treeNode k lmsLevels 1

/-- A node's neighbour. -/
def sibling (n : Nat) : Nat := if n % 2 = 1 then n - 1 else n + 1

/-- Tree k's signature of a message with leaf q; its randomiser is free. -/
def treeSign (k q : Nat) (c msg : List Byte) : List Byte :=
  let c := (c ++ List.replicate 32 0).take 32
  bigEndian 4 q ++ bigEndian 4 lmotsType ++ c
  ++ ((otsDigits (treeId k) q c msg).mapIdx fun i a => otsChain (treeId k) q i a 0 (chainStart k q i)).flatten
  ++ bigEndian 4 lmsType
  ++ (List.range lmsLevels).flatMap fun i => treeNode k i (sibling ((2 ^ lmsLevels + q) / 2 ^ i))

/-- The identity public key, which the attestation certificate holds: two levels. -/
def identityKey : List Byte := bigEndian 4 2 ++ treeKey 0

/-- The identity key's signature of a message with a one-time index: a leaf of the top tree signs the lower tree that the index
lies in. -/
def hssSign (idx : Nat) (msg : List Byte) : List Byte :=
  let top := idx / 2 ^ lmsLevels
  bigEndian 4 1 ++ treeSign 0 top (Config.identityRandom top) (treeKey (top + 1)) ++ treeKey (top + 1)
  ++ treeSign (top + 1) (idx % 2 ^ lmsLevels) (Config.identityRandom (2 ^ lmsLevels + idx)) msg

end Sys2Proof.Machine
end

