-- ==== Sys2Proof/Machine/Objects.lean ====
section
/-! DEFINITION. Code objects: the file (19 R388, R389), relocation (R394, R395), LOAD, UNLOAD and SETSLOT with their results
(R391 to R393, R396 to R398), and the pages a control core supplies. -/

namespace Sys2Proof.Machine

/-! ## Pages of the pool and leaves -/

/-- Physical ranges of a partition that something uses, as start and size: tables and mapped pages of its contexts, pages of its
instances, context records, and the fault and assist rings. -/
def usedRanges (s : State) (part : Nat) : List (Nat × Nat) :=
  let p := s.part part
  [(p.ctxbase.toNat, 256 * p.cfg.ccount), (p.frbase.toNat, 64 * p.frsize), (p.asbase.toNat, 0x100000)]
  ++ ((s.ctxs.filter fun c => c.part == part).flatMap fun c =>
      (c.ptroot, 4096) :: (ctxEntries s c).map fun e => (e.pa, if e.leaf then e.size else 4096))
  ++ (s.insts.filter fun i => i.part == part).flatMap fun i => i.pages.map fun pg => (pg.2, 4096)

def rangesTouch (a b : Nat × Nat) : Bool := decide (a.1 < b.1 + b.2) && decide (b.1 < a.1 + a.2)

/-- A range of a size, aligned to it, of a partition's near DRAM that meets none of those in use. The first place tried is free
(log 19); then the lowest of each die and those behind what is in use. -/
def freeRange (s : State) (part size : Nat) (used : List (Nat × Nat)) : Option Nat :=
  let dies := diesOf s part
  let tries := [Config.poolPage s.freeCount * size]
    ++ dies.map (fun d => (d * Config.nearBytes + size - 1) / size * size)
    ++ used.map fun r => (r.1 + r.2 + size - 1) / size * size
  tries.find? fun a =>
    let die := a / Config.nearBytes
    dies.contains die && decide (a + size ≤ (die + 1) * Config.nearBytes - unbacked s die)
    && !used.any (rangesTouch (a, size))

/-- A page from the pool, apart from those drawn before that nothing maps yet. -/
def takePage (s : State) (part : Nat) (drawn : List (Nat × Nat) := []) : Option (Nat × State) :=
  (freeRange s part 4096 (usedRanges s part ++ drawn)).map fun a => (a, { s with freeCount := s.freeCount + 1 })

/-- The level-1 entry's address for a page, through present tables; the device writes no other entry (15 R312). -/
def levelOne (s : State) (p va : Nat) : Nat → Nat → Option Nat
  | 0, _ => none
  | l + 1, table =>
    let ea := table + 8 * (va / 2 ^ (12 + 9 * l) % 512)
    if !physOk s p ea then none
    else if l = 0 then some ea
    else
      let e := BitVec.ofNat 64 (cellsRead s.mem ea 8)
      if e.getLsbD 0 ∧ !e.getLsbD 1 then levelOne s p va l (e.toNat / 2 ^ 12 % 2 ^ 40 * 2 ^ 12) else none

/-- The level-1 entry of a context's page. -/
def entryOf (s : State) (ctx va : Nat) : Option Nat :=
  (s.ctx? ctx).bind fun c => levelOne s c.part va 5 c.ptroot

/-- A level-1 entry written whole. -/
def writeEntry (s : State) (ctx va e : Nat) : State :=
  match entryOf s ctx va with
  | some ea => { s with mem := cellsWrite s.mem ea 8 e }
  | none => s

/-- A page's bytes written. -/
def fillPage (s : State) (pa : Nat) (bs : List Byte) : State :=
  { s with mem := cellsPut (cellsClear s.mem pa (pa + 4096)) pa bs,
           poison := s.poison.filter fun u => decide (u < pa) || decide (pa + 4096 ≤ u) }

/-! ## The file -/

/-- The bytes of the file. -/
def fileAt (s : State) (f off n : Nat) : List Byte := cellsBytes s.mem (hostStart + f + off) n

/-- The header of a file, as read, with the tables it names: SECT, SYM, REL, SLOT entries, and the bytes of STR. -/
structure ObjFile where
  addr : Nat
  size : Nat
  header : List Byte
  sect : List (List Byte)
  sym : List (List Byte)
  str : List Byte
  rel : List (List Byte)
  slot : List (List Byte)
deriving DecidableEq, Repr

def hdr (o : ObjFile) (off : Nat) : Nat := field o.header off 8

def ObjFile.image (o : ObjFile) : Nat := hdr o 16

/-- The entries of a table of the file. -/
def tableAt (s : State) (f off size : Nat) : List (List Byte) :=
  let n := leNat (fileAt s f off 8)
  records size n (fileAt s f (off + 8) (size * n))

def readObj (s : State) (f size : Nat) : ObjFile :=
  let h := fileAt s f 0 128
  let at' := fun (o : Nat) => field h o 8
  { addr := f, size := size, header := h, sect := tableAt s f (at' 32) 32, sym := tableAt s f (at' 40) 32,
    str := fileAt s f (at' 48 + 8) (leNat (fileAt s f (at' 48) 8)), rel := tableAt s f (at' 56) 32,
    slot := tableAt s f (at' 64) 16 }

/-- Bytes of a table with its count. -/
def tableBytes (s : State) (f off size : Nat) : List Byte :=
  fileAt s f off (8 + size * leNat (fileAt s f off 8))

/-- The end of a table within the file, before anything of it is read. -/
def tableFits (s : State) (f limit off size : Nat) : Bool :=
  decide (off + 8 ≤ limit) && decide (off + 8 + size * leNat (fileAt s f off 8) ≤ limit)

/-- The header's form, its counts and offsets (19 R388). -/
def objShapeOk (s : State) (f size : Nat) : Bool :=
  let h := fileAt s f 0 128
  let at' := fun (o : Nat) => field h o 8
  let sig := at' 80
  decide (128 ≤ size) && field h 0 4 == 0x4F425849 && field h 4 2 == 1 && byteAt h 7 == 0 && at' 8 % 4096 == 0
  && at' 16 % 4096 == 0 && decide (1 ≤ at' 16) && at' 24 % 64 == 0 && decide (sig ≤ size) && decide (at' 24 + at' 16 ≤ sig)
  && tableFits s f sig (at' 32) 32 && tableFits s f sig (at' 40) 32 && tableFits s f sig (at' 48) 1
  && tableFits s f sig (at' 56) 32 && tableFits s f sig (at' 64) 16
  && decide (at' 72 + 32 * (at' 16 / 4096) ≤ sig) && zeroAt h 120 8

/-- A name that starts at an offset of STR. -/
def nameAt (o : ObjFile) (off : Nat) : List Byte := (o.str.drop off).takeWhile (· != 0)

/-- Pages of the image that sections of some kinds touch. -/
def sectPages (o : ObjFile) (kinds : List Nat) : List Nat :=
  (List.range (o.image / 4096)).filter fun i =>
    o.sect.any fun e => kinds.contains (byteAt e 0) && field e 16 8 != 0
      && decide (field e 8 8 < 4096 * (i + 1)) && decide (4096 * i < field e 8 8 + field e 16 8)

/-- The entries' own limits, and no page of both code and data sections (19 R389). -/
def objEntriesOk (o : ObjFile) : Bool :=
  !((sectPages o [0, 2, 4]).any fun i => (sectPages o [1, 3]).contains i)
  && (o.sect.all fun e => decide (byteAt e 0 ≤ 4) && zeroAt e 1 7 && zeroAt e 24 8
    && decide (field e 8 8 + field e 16 8 ≤ o.image))
  && (o.sym.all fun e => decide (byteAt e 4 ≤ 2) && decide (byteAt e 5 ≤ 1) && zeroAt e 6 2 && zeroAt e 24 8
    && decide (field e 0 4 ≤ o.str.length) && decide (field e 8 8 ≤ o.image)
    && (byteAt e 4 != 1 || decide (field e 16 8 + 128 ≤ o.image)) && (byteAt e 4 != 2 || field e 8 8 == 0))
  && (o.rel.all fun e => zeroAt e 9 3 && decide (1 ≤ byteAt e 8) && decide (byteAt e 8 ≤ 7)
    && (byteAt e 8 == 4 || field e 24 8 == 0)
    && decide (field e 12 4 < if byteAt e 8 = 7 then o.slot.length else o.sym.length)
    && decide (field e 0 8 + (if byteAt e 8 = 6 then 8 else 4) ≤ o.image))
  && o.slot.all fun e => zeroAt e 4 4

/-- TABHASH matches (19 R388). -/
def tabHashOk (s : State) (o : ObjFile) : Bool :=
  let t := fun (off size : Nat) => tableBytes s o.addr (hdr o off) size
  sha256 (t 32 32 ++ t 40 32 ++ t 48 1 ++ t 56 32 ++ t 64 16) == sub o.header 88 32

/-- The signature verifies under a trusted key (19 R391, R392 step 3). -/
def signatureOk (s : State) (p : Part) (o : ObjFile) : Bool :=
  let msg := o.header ++ fileAt s o.addr (hdr o 72) (32 * (o.image / 4096))
  let sig := fileAt s o.addr (hdr o 80) (o.size - hdr o 80)
  (List.range p.okeyN).any fun i => hssVerify (fileAt s (p.okeyBase.toNat + 64 * i) 0 60) msg sig

/-- The content hash (19 R388). -/
def contentHash (s : State) (o : ObjFile) : List Byte := sha256 (fileAt s o.addr 0 (hdr o 80))

/-! ## Relocation (19 R394, R395) -/

def relHi (v : Int) : Int := (v + 0x800) / 4096

def relLo (v : Int) : Int := v - relHi v * 4096

/-- v of a record for an instance at a base with slot values. For GOTCALL sym is the entry's address; for SLOT the slot. -/
def relocVal (base : Nat) (slots : List Int) (r : Reloc) : Int :=
  match r.typ with
  | 1 => r.sym + r.addend
  | 2 => r.sym + r.addend
  | 3 => r.sym + r.addend - (base + r.off : Nat)
  | 4 => r.sym + r.addend - (base + r.pair : Nat)
  | 5 => r.sym - (base + r.off : Nat)
  | 6 => r.sym + r.addend
  | _ => slots.getD r.sym.toNat 0

def isI (w : Nat) : Bool := decide (2 ≤ w / 2 ^ 27) && decide (w / 2 ^ 27 ≤ 5)

/-- Is the patched word of the kind the type needs, and aligned as its kind is? -/
def relocForm (r : Reloc) (w : Nat) (inData paired : Bool) : Bool :=
  r.off % 4 == 0 && match r.typ with
  | 1 => w / 2 ^ 27 == 28
  | 2 => isI w
  | 3 => w / 2 ^ 27 == 29
  | 4 => isI w && paired
  | 5 => w / 2 ^ 27 == 30
  | 6 => inData && r.off % 8 == 0
  | 7 => isI w || w / 2 ^ 27 == 28
  | _ => false

def inRange (v : Int) (bits : Nat) : Bool := decide (-(2 ^ (bits - 1)) ≤ v) && decide (v < 2 ^ (bits - 1))

/-- Does the value fit its field? -/
def relocFits (r : Reloc) (w : Nat) (v : Int) : Bool :=
  match r.typ with
  | 1 => inRange (relHi v) 20
  | 3 => inRange (relHi v) 20
  | 5 => inRange (v / 4) 20
  | 7 => inRange v (if w / 2 ^ 27 = 28 then 20 else 12)
  | _ => true

/-- The bytes the patch leaves over the word or dword w. -/
def relocBytes (r : Reloc) (w : Nat) (v : Int) : List Byte :=
  let imm := fun (bits : Nat) (x : Int) => leBytes 4 (w / 2 ^ bits * 2 ^ bits + (x % 2 ^ bits).toNat)
  match r.typ with
  | 1 => imm 20 (relHi v)
  | 2 => imm 12 (relLo v)
  | 3 => imm 20 (relHi v)
  | 4 => imm 12 (relLo v)
  | 5 => imm 20 (v / 4)
  | 6 => leBytes 8 (v % 2 ^ 64).toNat
  | _ => if w / 2 ^ 27 = 28 then imm 20 v else imm 12 v

/-- Bytes laid over others. -/
def splice (bs : List Byte) (off : Nat) (x : List Byte) : List Byte := bs.take off ++ x ++ bs.drop (off + x.length)

/-- A page of the image with its relocations applied. -/
def patchPage (base : Nat) (slots : List Int) (relocs : List Reloc) (idx : Nat) (bs : List Byte) : List Byte :=
  (relocs.filter fun r => r.off / 4096 == idx).foldl (fun bs r =>
    let o := r.off % 4096
    splice bs o (relocBytes r (field bs o 4) (relocVal base slots r))) bs

/-- A page of an instance as it lies in memory. -/
def pageImage (s : State) (i : Inst) (idx : Nat) : List Byte :=
  patchPage i.base.toNat i.slots i.relocs idx (fileBytes s i (i.imgOff + 4096 * idx) 4096)

/-- The GOT's entry for a target (19 R395). -/
def gotEntry (target : Int) : List Byte :=
  leBytes 4 0xE9F00000 ++ leBytes 4 0x31F3F802 ++ leBytes 4 0xD003E000 ++ leBytes 4 0x10000000
  ++ leBytes 8 (target % 2 ^ 64).toNat ++ zeros 8

/-! ## LOAD (19 R392) -/

/-- Global kernels of a name in the instances of a context, as addresses after load. -/
def kernelsNamed (s : State) (ctx : Nat) (name : List Byte) : List Nat :=
  (instsOf s ctx).flatMap fun i => (i.globals.filter fun k => k.name == name).map fun k => i.base.toNat + k.entry

/-- What LOAD has found when a step fails: the result and INDEX. -/
abbrev LoadErr := Nat × Nat

/-- The external symbols resolved in table order: each symbol's address, or the entry that fails (19 R392 step 5). -/
def resolveSyms (s : State) (ctx base : Nat) (o : ObjFile) : Nat → List (List Byte) → List Nat ⊕ LoadErr
  | _, [] => .inl []
  | i, e :: rest =>
    let here := if byteAt e 4 = 2 then
        match kernelsNamed s ctx (nameAt o (field e 0 4)) with
        | [a] => some a
        | _ => none
      else some (base + field e 8 8)
    match here, resolveSyms s ctx base o (i + 1) rest with
    | none, _ => .inr (5, i)
    | some _, .inr x => .inr x
    | some a, .inl l => .inl (a :: l)

/-- External symbols that GOTCALL records name, in ascending index (19 R395). -/
def gotSyms (o : ObjFile) : List Nat :=
  (List.range o.sym.length).filter fun i =>
    byteAt (o.sym.getD i []) 4 == 2 && o.rel.any fun e => byteAt e 8 == 5 && field e 12 4 == i

/-- A REL entry as a record of the instance. -/
def relocOf (o : ObjFile) (base : Nat) (addrsOf : List Nat) (e : List Byte) : Reloc :=
  let symIdx := field e 12 4
  let typ := byteAt e 8
  let sym : Int :=
    if typ = 7 then symIdx
    else if typ = 5 then ((base + o.image + 32 * ((gotSyms o).takeWhile (· != symIdx)).length : Nat) : Int)
    else ((addrsOf.getD symIdx 0 : Nat) : Int)
  { off := field e 0 8, typ := typ, sym := sym, addend := (wordAt e 16).toInt, pair := field e 24 8 }

/-- The first REL entry that fails, with its result (19 R392 step 6, R394). -/
def relocErr (s : State) (o : ObjFile) (base : Nat) (slots : List Int) (rs : List Reloc) : Option LoadErr :=
  ((rs.zip o.rel).mapIdx fun i x => (i, x)).findSome? fun x =>
    let r := x.2.1
    let w := leNat (fileAt s o.addr (hdr o 24 + r.off) 4)
    let inData := o.sect.any fun t => (byteAt t 0 == 1 || byteAt t 0 == 3) && decide (field t 8 8 ≤ r.off)
      && decide (r.off + 8 ≤ field t 8 8 + field t 16 8)
    let paired := (rs.zip o.rel).any fun y => y.1.typ == 3 && y.1.off == r.pair && field y.2 12 4 == field x.2.2 12 4
      && y.1.addend == r.addend && leNat (fileAt s o.addr (hdr o 24 + r.pair) 4) / 2 ^ 27 == 29
    let ext := byteAt (o.sym.getD (field x.2.2 12 4) []) 4 == 2
    if !relocForm r w inData paired || (r.typ == 5 && !ext) then some (7, x.1)
    else if !relocFits r w (relocVal base slots r) then some (6, x.1)
    else none

/-- The first page of a range that is not free in a context: mapped, or non-present with a supplier (16 R342). -/
def overlapPage (s : State) (ctx base n : Nat) : Option Nat :=
  (List.range n).find? fun i =>
    let va := base + 4096 * i
    match s.ctx? ctx with
    | none => false
    | some c =>
      match entryOf s ctx va with
      | some ea => let e := cellsRead s.mem ea 8; e % 2 == 1 || e / 2 % 8 != 0
      | none => match walkFrom s c.part va 5 c.ptroot with
        | .leaf _ => true
        | .bad _ => false

/-- A leaf of a data page: R, and W where .data lies on it. -/
def dataLeaf (pa : Nat) (w : Bool) : Nat := pa + 0x7 + if w then 0x8 else 0

/-- A leaf of a present code page: P, LEAF, R, X and CODE (15 R324). -/
def codeLeaf (pa : Nat) : Nat := pa + 0x37

/-- A leaf of a GOT page. -/
def gotLeaf (pa : Nat) : Nat := pa + 0x17

/-- The non-present entry of a code page (19 R392 step 10). -/
def codeEntry (iid idx : Nat) : Nat := 2 + iid % 2 ^ 32 * 2 ^ 4 + idx % 2 ^ 16 * 2 ^ 36

/-- The instance's pages mapped into a context: data pages and the GOT present, code pages present once they are in memory. -/
def mapInst (s : State) (i : Inst) (writable : List Nat) (ctx : Nat) : State :=
  let n := i.image / 4096
  let s := i.pages.foldl (fun s pg =>
    let e := if n ≤ pg.1 then gotLeaf pg.2 else if i.codePages.contains pg.1 then codeLeaf pg.2
      else dataLeaf pg.2 (writable.contains pg.1)
    writeEntry s ctx (i.base.toNat + 4096 * pg.1) e) s
  (i.codePages.filter fun idx => !(i.pages.any fun pg => pg.1 == idx)).foldl (fun s idx =>
    writeEntry s ctx (i.base.toNat + 4096 * idx) (codeEntry i.iid idx)) s

/-- The result of a command. -/
def objResult (s : State) (part : Nat) (r : LoadErr) : State :=
  s.setPart part { s.part part with ocmdBusy := false, ocmdResult := r.1, ocmdIndex := r.2 }

/-- The request's fields (19 R391). -/
structure ObjReq where
  obj : Nat
  size : Nat
  ctx : Nat
  nslot : Nat
  base : Nat
  slots : Nat
  ok : Bool
deriving DecidableEq, Repr

def readReq (s : State) (req : Word) : ObjReq :=
  let bs := cellsBytes s.mem (hostStart + req.toNat) 64
  { obj := field bs 0 8, size := field bs 8 8, ctx := field bs 16 4, nslot := field bs 20 4, base := field bs 24 8,
    slots := field bs 32 8, ok := zeroAt bs 40 24 && field bs 24 8 % 4096 == 0 }

/-- The slot values of a request over others. -/
def slotValues (s : State) (q : ObjReq) (old : List Int) : List Int :=
  old.mapIdx fun i v =>
    if i < q.nslot then (BitVec.ofNat 64 (cellsRead s.mem (hostStart + q.slots + 8 * i) 8)).toInt else v

/-- Is the context loaded into: ACTIVE or SUSPENDED, of the partition? -/
def ctxOpen (s : State) (part ctx : Nat) : Bool :=
  (s.ctx? ctx).any fun c => c.part == part && (c.state == .active || c.state == .suspended)

/-- The symbols of a kind that an instance keeps. -/
def kernelSyms (o : ObjFile) (onlyGlobal : Bool) : List KernelSym :=
  (o.sym.filter fun e => byteAt e 4 == 1 && (!onlyGlobal || byteAt e 5 == 1)).map fun e =>
    { name := nameAt o (field e 0 4), entry := field e 8 8, kpb := field e 16 8 }

/-- A page is allocated, filled and kept. -/
def loadPage (a : State × Inst) (idx : Nat) (bs : List Byte) : Option (State × Inst) :=
  (takePage a.1 a.2.part (a.2.pages.map fun pg => (pg.2, 4096))).map fun x =>
    (fillPage x.2 x.1 bs, { a.2 with pages := a.2.pages ++ [(idx, x.1)] })

/-- Data pages, then the GOT's (19 R392 steps 8 and 9); none where memory has no more room. -/
def loadPages (s : State) (i : Inst) (data : List Nat) (got : List Byte) : Option (State × Inst) :=
  let a := data.foldl (fun a idx => a.bind fun a => loadPage a idx (pageImage s i idx)) (some (s, i))
  (List.range ((i.gotBytes + 4095) / 4096)).foldl
    (fun a j => a.bind fun a => loadPage a (i.image / 4096 + j) (sub got (4096 * j) 4096)) a

/-- Pages of .data of an instance. -/
def writablePages (s : State) (i : Inst) : List Nat := sectPages (readObj s i.file i.fileSize) [3]

/-- LOAD's steps from 4 on, for a file whose form, level and signature stand. -/
def loadObject (s : State) (part : Nat) (q : ObjReq) (o : ObjFile) : State :=
  let base := if q.base = 0 then hdr o 8 else q.base
  let hash := contentHash s o
  let slots := slotValues s q (o.slot.map fun e => (wordAt e 8).toInt)
  if s.poisoned.contains hash then objResult s part (11, 0)
  else match resolveSyms s q.ctx base o 0 o.sym with
    | .inr x => objResult s part x
    | .inl syms =>
      let rs := o.rel.map (relocOf o base syms)
      match relocErr s o base slots rs with
      | some x => objResult s part x
      | none =>
        let gsyms := gotSyms o
        let got := gsyms.flatMap fun i => gotEntry ((syms.getD i 0 : Nat) : Int)
        let pages := o.image / 4096 + (got.length + 4095) / 4096
        match overlapPage s q.ctx base pages with
        | some p => objResult s part (8, p)
        | none =>
          if 2 ^ 56 < base + 4096 * pages then objResult s part (1, 0)
          else if !((List.range pages).all fun p => (entryOf s q.ctx (base + 4096 * p)).isSome) then objResult s part (9, 0)
          else
            let ext := ((List.range o.sym.length).filter fun i =>
              byteAt (o.sym.getD i []) 4 == 2 && o.rel.any fun e => byteAt e 8 != 7 && field e 12 4 == i).map fun i =>
                BitVec.ofNat 64 (syms.getD i 0)
            let data := sectPages o [1, 3]
            match s.insts.find? fun i =>
                i.part == part && i.hash == hash && i.base.toNat == base && i.slots == slots && i.ext == ext with
            | some i =>
              let i' : Inst := { i with refs := i.refs + 1, ctxs := i.ctxs ++ [q.ctx] }
              objResult ((mapInst s i' (sectPages o [3]) q.ctx).setInst i') part (0, 0)
            | none =>
              let i : Inst :=
                { iid := s.nextId, part := part, hash := hash, base := BitVec.ofNat 64 base, image := o.image,
                  gotBytes := got.length, slots := slots, ext := ext, refs := 1, ctxs := [q.ctx], file := o.addr,
                  imgOff := hdr o 24, hashOff := hdr o 72, fileSize := o.size, kernels := kernelSyms o false,
                  globals := kernelSyms o true, relocs := rs, codePages := sectPages o [0, 2, 4], pages := [], unloading := [],
                  checked := [] }
              if !Config.poolRoom s.freeCount then objResult s part (9, 0)
              else match loadPages { s with nextId := s.nextId + 1 } i data got with
                | none => objResult s part (9, 0)
                | some (s1, i1) => match data.find? fun p => !pageHashOk s i p with
                  | some p => objResult s part (4, p)
                  | none =>
                    objResult (mapInst { s1 with insts := s1.insts ++ [i1] } i1 (sectPages o [3]) q.ctx) part (0, 0)

/-- OBJ_LOAD (19 R392). -/
def execObjLoad (part : Nat) (req : Word) (s : State) : Out :=
  if (s.part part).ocmdBusy || !barOpen s part then .next s
  else
    let q := readReq s req
    if !ctxOpen s part q.ctx then .next (objResult s part (12, 0))
    else if !q.ok || !objShapeOk s q.obj q.size then .next (objResult s part (1, 0))
    else
      let o := readObj s q.obj q.size
      if !objEntriesOk o || decide (o.slot.length < q.nslot) then .next (objResult s part (1, 0))
      else if byteAt o.header 6 ≠ 1 then .next (objResult s part (3, 0))
      else if !tabHashOk s o || !signatureOk s (s.part part) o then .next (objResult s part (2, 0))
      else .next (loadObject s part q o)

/-! ## UNLOAD (19 R397) -/

/-- The instance a request names. -/
def namedInst (s : State) (q : ObjReq) : Option Inst :=
  (instsOf s q.ctx).find? fun i => i.base.toNat == q.base

/-- The pages of an instance: its image's, then its GOT's. -/
def Inst.pageCount (i : Inst) : Nat := i.image / 4096 + (i.gotBytes + 4095) / 4096

/-- Is an instruction line one of an instance's pages? -/
def lineOf (i : Inst) (l : ICLine) : Bool :=
  i.ctxs.contains l.ctx && decide (i.base.toNat ≤ 128 * l.line) && decide (128 * l.line < i.base.toNat + 4096 * i.pageCount)

/-- Does an address lie in an instance's image? -/
def inInst (i : Inst) (a : Nat) : Bool := decide (i.base.toNat ≤ a) && decide (a < i.base.toNat + i.image)

/-- Does anything of the context still run a kernel of the instance? -/
def instUsed (s : State) (i : Inst) (ctx : Nat) : Bool :=
  (s.blocks.any fun b => b.ctx == ctx && b.kernel.inst == i.iid && resident b)
  || (s.nodes.any fun n => n.ctx == ctx && inInst i (field n.desc 0 8))
  || (s.commissions.any fun m => m.ctx == ctx && inInst i m.kpb)
  || s.launches.any fun l => l.ctx == ctx && decide (l.next < l.nblk) && l.kpbs.any fun a => inInst i a.toNat

/-- Has everything of some contexts that translated through an old entry completed (15 R320)? Other accesses are performed where
they translate (log 2), so what counts is operations under way, an MMA from its issue on, COPY and WAIT packets, loads of access
slices, and held stores, which were translated when they were held. -/
def quietCtxs (s : State) (hit : Nat → Bool) : Bool :=
  !(s.ops.any fun o => hit o.ctx && (o.progress != 0 || !o.xlat.isEmpty) && o.result.isNone)
  && !(s.packets.any fun x => hit x.ctx && x.started && !x.finished && (x.typ == 5 || (x.typ == 3 && x.progress != 0)))
  && !(s.blocks.any fun b => hit b.ctx && (!b.held.isEmpty
        || s.prods.any fun p => p.bid == b.bid && p.acc && p.kind == .load))

/-- May an UNLOAD end: nothing runs a kernel of the instance, and the accesses that its shoot-down waits for are over? -/
def unloadReady (s : State) (i : Inst) (ctx : Nat) : Bool := !instUsed s i ctx && quietCtxs s (· == ctx)

/-- A page's entry cleared. -/
def unmapRange (s : State) (ctx base pages : Nat) : State :=
  (List.range pages).foldl (fun s p => writeEntry s ctx (base + 4096 * p) 0) s

/-- The instance leaves a context; at count zero it is gone, and with the last of its hash the poison. -/
def dropInst (s : State) (i : Inst) (ctx : Nat) : State :=
  let s := unmapRange s ctx i.base.toNat i.pageCount
  let i' : Inst := { i with
    refs := i.refs - 1, ctxs := i.ctxs.filter (· != ctx), unloading := i.unloading.filter (· != ctx) }
  let left := if i'.refs = 0 then s.insts.filter fun x => x.iid != i.iid
    else s.insts.map fun x => if x.iid = i.iid then i' else x
  { s with insts := left, poisoned := s.poisoned.filter fun h => h != i.hash || left.any fun x => x.hash == h,
           icache := s.icache.filter fun l => !(l.ctx == ctx && lineOf i l) }

/-- The UNLOAD of a partition that waits for its users. -/
def unloading (s : State) (part : Nat) : Option (Inst × Nat) :=
  if !(s.part part).ocmdBusy then none
  else s.insts.findSome? fun i => if i.part = part then (i.unloading.head?).map fun c => (i, c) else none

/-- UNLOAD_COMPLETE (19 R397, 15 R320). -/
def execUnloadComplete (part : Nat) (s : State) : Out :=
  match unloading s part with
  | none => .next s
  | some (i, ctx) => if unloadReady s i ctx then .next (objResult (dropInst s i ctx) part (0, 0)) else .next s

/-- OBJ_UNLOAD (19 R397): new launches are refused from here on. -/
def execObjUnload (part : Nat) (req : Word) (s : State) : Out :=
  if (s.part part).ocmdBusy || !barOpen s part then .next s
  else
    let q := readReq s req
    if !ctxOpen s part q.ctx then .next (objResult s part (12, 0))
    else match namedInst s q with
      | none => .next (objResult s part (13, 0))
      | some i =>
        let s := s.setInst { i with unloading := i.unloading ++ [q.ctx] }
        .next (s.setPart part { s.part part with ocmdBusy := true, ocmdIndex := 0 })

/-! ## SETSLOT (19 R398) -/

/-- The first SLOT record that new values break. -/
def slotErr (s : State) (i : Inst) (slots : List Int) : Option LoadErr :=
  (i.relocs.mapIdx fun k r => (k, r)).findSome? fun x =>
    let w := leNat (fileBytes s i (i.imgOff + x.2.off) 4)
    if x.2.typ = 7 ∧ !relocFits x.2 w (relocVal i.base.toNat slots x.2) then some (6, x.1) else none

/-- The present pages that hold SLOT words are patched again. -/
def repatch (s : State) (i : Inst) : State :=
  (i.relocs.filter fun r => r.typ == 7).foldl (fun s r =>
    match i.pages.find? fun pg => pg.1 == r.off / 4096 with
    | none => s
    | some pg =>
      let a := pg.2 + r.off % 4096
      { s with mem := cellsPut s.mem a (relocBytes r (cellsRead s.mem a 4) (relocVal i.base.toNat i.slots r)) }) s

/-- OBJ_SETSLOT (19 R398): every thread is between two instructions, as the slot fence asks. -/
def execObjSetslot (part : Nat) (req : Word) (s : State) : Out :=
  if (s.part part).ocmdBusy || !barOpen s part then .next s
  else
    let q := readReq s req
    if !ctxOpen s part q.ctx then .next (objResult s part (12, 0))
    else match namedInst s q with
      | none => .next (objResult s part (13, 0))
      | some i =>
        if 1 < i.refs then .next (objResult s part (10, 0))
        else if i.slots.length < q.nslot then .next (objResult s part (1, 0))
        else
          let slots := slotValues s q i.slots
          match slotErr s i slots with
          | some x => .next (objResult s part x)
          | none =>
            let i' : Inst := { i with slots := slots }
            let s := repatch (s.setInst i') i'
            let s : State := { s with
              icache := s.icache.filter fun l => !lineOf i l }
            .next (objResult s part (0, 0))

/-- OBJ_BAD_OP (19 R391). -/
def execObjBadOp (part : Nat) (_value : Word) (s : State) : Out :=
  if (s.part part).ocmdBusy || !barOpen s part then .next s else .next (objResult s part (1, 0))

end Sys2Proof.Machine
end

