-- ==== Sys2Proof/Machine/Easel.lean ====
section
/-! DEFINITION. The Easel and the restore: canvas storage (16 R344), the capture of blocks, clusters and co-resident grids
(16 R345, R346, R348), fault images (15 R323), context captures, the checks and steps of a restore (16 R332, R349, R350), and
the relaunch of blocks that fit nowhere (17 R368). -/

namespace Sys2Proof.Machine

/-! ## Launches and views -/

/-- A launch with nothing yet. -/
def blankLaunch (s : State) (part ctx : Nat) (pid : Option Nat) (grid : BitVec 32) (cls weight : Nat) : Launch :=
  { lid := s.nextId, pid := pid, part := part, ctx := ctx, grid := grid, kpbs := [], args := [], nblk := 0, next := 0,
    coresident := false, redundant := false, deadline := none, canvas := 0, distT := 0, distG := 0, fixBase := 0, fixSize := 0,
    bars := [], firstIssued := false, cls := cls, weight := weight, status := 0 }

def addLaunch (s : State) (l : Launch) : State := { s with nextId := s.nextId + 1, launches := s.launches ++ [l] }

/-! ## Canvas storage (16 R344) -/

def up4k (n : Nat) : Nat := (n + 4095) / 4096 * 4096

/-- Is a range of the CANVAS area, by its offset, free of canvases? -/
def spotFree (c : Ctx) (n off : Nat) : Bool :=
  decide (off + n ≤ c.canvasSize) && c.canvases.all fun x => decide (off + n ≤ x.1) || decide (x.1 + x.2 ≤ off)

/-- The lowest offset in units of 4 KiB where n bytes are free. -/
def firstFit (c : Ctx) (n : Nat) : Option Nat :=
  ((0 :: c.canvases.map fun x => up4k (x.1 + x.2)).filter (spotFree c n)).foldl (fun a o => match a with
    | none => some o
    | some x => some (min x o)) none

/-- Can every page of a range be written? -/
def rangeOk (s : State) (v : View) (need : Need) (va n : Nat) : Bool :=
  n == 0 || (List.range ((va + n - 1) / 4096 - va / 4096 + 1)).all fun i =>
    match locate s v need (max va ((va / 4096 + i) * 4096)) with
    | .ok _ => true
    | .bad _ => false

/-- Where a canvas of n bytes goes: the host's address where it lies in the area, else first fit. None where it does not fit,
which a page of the area that cannot be written counts as (log 18). -/
def canvasSpot (s : State) (ctx n : Nat) (wish : Word) : Option (Word × Nat) :=
  match s.ctx? ctx with
  | none => none
  | some c =>
    let m := up4k n
    let v : View := ctxView c.part ctx
    let ok := fun (off : Nat) => spotFree c m off && rangeOk s v needW (c.canvasBase.toNat + off) n
    let asked := wish.toNat - c.canvasBase.toNat
    if wish ≠ 0 ∧ c.canvasBase.toNat ≤ wish.toNat ∧ ok asked then some (wish, asked)
    else match firstFit c m with
      | some off => if ok off then some (c.canvasBase + BitVec.ofNat 64 off, off) else none
      | none => none

/-- The canvas is written and its storage taken. -/
def putCanvas (s : State) (ctx : Nat) (spot : Word × Nat) (bytes : List Byte) : State :=
  match s.ctx? ctx with
  | none => s
  | some c =>
    let s := s.setCtx { c with canvases := c.canvases ++ [(spot.2, up4k bytes.length)] }
    (storeBytes s (ctxView c.part ctx) spot.1.toNat bytes).1

/-! ## What is captured together (01 R16, 14 R309, 17 R360) -/

/-- A block with its cluster, its co-resident grid, and their twins. -/
def unitOf (s : State) (b : Block) : List Block :=
  let base := s.blocks.filter fun x =>
    x.bid == b.bid || (decide (1 < b.csize) && x.cluster == b.cluster) || (b.coresident && x.launch == b.launch)
  let twins := base.filterMap (·.twin)
  let cls := (s.blocks.filter fun x => twins.contains x.bid).map (·.cluster)
  s.blocks.filter fun x => (base.any fun y => y.bid == x.bid) || twins.contains x.bid
    || (decide (1 < b.csize) && cls.contains x.cluster)

/-- The blocks of a unit that its canvas records: of each pair of twins the primary, which has what the engines deliver
(log 16). -/
def recorded (bs : List Block) : List Block :=
  bs.filter fun b => match b.twin with
    | some w => b.primary || !(bs.any fun x => x.bid == w)
    | none => true

/-- Handles whose committed tiles a KIND 2 record keeps (16 R336). -/
def committedHandles (b : Block) : List Nat :=
  (List.range 64).filter fun i =>
    let x := b.handles.toList.getD i emptyHandle
    x.map != 2 && x.unc && b.snap.any fun sn => (sn.handles.toList.getD i emptyHandle).map != 2

/-- What a canvas's record has no field for. -/
def capBlocks (s : State) (bs : List Block) : List CapBlock :=
  bs.mapIdx fun i b =>
    { idx := i, launch := b.launch, node := b.node, commission := b.commission, held := b.held,
      grants := b.grants.filter fun g => g.2.isSome, committed := committedHandles b,
      kept := pendingOps s b, vals := (pendingProds s b).map fun p =>
        if p.kind = .divide ∨ p.kind = .special then some (p.val, p.flags) else none,
      unborn := b.shadows.map (·.tile.isEmpty), capRead := b.capRead, fresh := false }

/-- Blocks leave the device as canvases. -/
def dropBlocks (s : State) (bs : List Block) : State :=
  let ids := bs.map (·.bid)
  let gone := (s.ops.filter fun o => ids.contains o.bid).map (·.id)
  let left := s.blocks.filter fun b => !ids.contains b.bid
  { s with
    blocks := left,
    clusters := s.clusters.filter fun c => !(bs.any fun b => b.cluster == c.cid) || left.any fun b => b.cluster == c.cid,
    prods := s.prods.filter fun p => !ids.contains p.bid,
    ops := s.ops.filter fun o => !ids.contains o.bid,
    pents := s.pents.filter fun p => !ids.contains p.bid,
    outbound := s.outbound.filter fun x => !gone.contains x.op,
    respHeld := s.respHeld.filter fun x => !gone.contains x.op,
    faults := s.faults.filter fun f => match f.asker with
      | .block x => !ids.contains x
      | .engine o => !gone.contains o
      | _ => true }

/-- The canvas at an address now holds these blocks; whole: it is of KIND 3, whose sections are written with its first blocks.
Open requests of their collective operations stay open (16 R339). -/
def toCaptured (s : State) (bs : List Block) (addr : Word) (whole : Bool := false) : State :=
  match bs.head? with
  | none => s
  | some b =>
    let c : Captured := { id := s.nextId, part := b.part, ctx := b.ctx, addr := addr, blocks := capBlocks s (recorded bs),
                          sections := whole }
    { dropBlocks s bs with
      captured := s.captured ++ [c], nextId := s.nextId + 1, outbound := s.outbound, respHeld := s.respHeld }

/-! ## Stopping a block (16 R345 steps 1 to 3) -/

/-- Values that are delivered before the state is written: strong loads and atomics are awaited (09 R224), and filled claims
and performed AMOVRs arrive meanwhile (08 R195, 10 R249). Loads, divisions, special functions and TSTAMPs in flight are
recorded (07 R175, 08 R199, 16 R338). -/
def settles (bid : Nat) (p : Prod) : Bool :=
  p.bid == bid && !p.acc && p.ready && match p.kind with
    | .strong => true
    | .atomic => true
    | .xrecv => true
    | .amovr => true
    | _ => false

def settleProds (s : State) (bid : Nat) : State :=
  { s.onBlock bid (deliverAll (s.prods.filter (settles bid))) with prods := s.prods.filter fun p => !settles bid p }

/-- Operations that must be performed whole before the handles are recorded: uncounted ones, and every earlier one on their
handles. Operations come in order; with the handles that the later ones need. -/
def neededOps : List EngOp → List Nat × List Nat
  | [] => ([], [])
  | o :: rest =>
    let (ids, hs) := neededOps rest
    if o.cls = 4 ∨ (handlesOf o.kind).any fun h => hs.contains h then (o.id :: ids, handlesOf o.kind ++ hs) else (ids, hs)

/-- Matrix work of the block in order: AZERO, SCACC and AMOVR are performed with what stands before them on their handles; each
other issued operation whose turn has come finishes its current row (10 R249, 16 R345). -/
def settleMatrix (s : State) (bid : Nat) : State :=
  let mine := s.ops.filter fun o => o.bid == bid && o.isMatrix
  let whole := (neededOps mine).1
  (mine.map (·.id)).foldl (fun s oid =>
    match s.ops.find? fun o => o.id == oid, s.block? bid with
    | some o, some b =>
      if o.result.isSome || o.binding != .go || !mayPerform s b o then s
      else match performRows s b o (if whole.contains oid then allRows else 1) with
        | (s', .done) => if o.cls = 4 then { s' with ops := s'.ops.filter fun x => x.id != oid } else completeOp s' o 0
        | (s', .later pr) => { s' with ops := s'.ops.map fun x => if x.id = oid then { x with progress := pr } else x }
    | _, _ => s) s

/-- The barrier of the arrive-and-wait instruction at a thread's PC. -/
def waitingAt (s : State) (b : Block) (t : Thread) : Option BarId :=
  match fetchAt s b.view t.pc.toNat with
  | .inl (w, _) => match decode (BitVec.ofNat 32 w) 0 with
    | .ok (.bars n, _) => some (.block n.toNat)
    | .ok (.acommit _ _, _) => some .commit
    | _ => none
  | .inr _ => none

/-- A thread whose barrier phase has completed stands after the instruction (16 R346). -/
def finishWait (s : State) (b : Block) (t : Thread) : Thread :=
  if t.barsWait then
    match waitingAt s b t with
    | some id => if t.outst.contains id then t else { t with barsWait := false }.advance 4
    | none => t
  else t

/-- The block stands still: half-performed set operations are withdrawn and nothing of the access slice goes on. -/
def stillBlock (s : State) (b : Block) : Block :=
  freshWaits s.cycle { b with threads := b.threads.map (finishWait s b), arrivals := [] }

/-- Is the block suspended for a fault, its image still to be written? -/
def faultStopped (b : Block) : Bool := match b.state with
  | .suspended _ none => true
  | _ => false

/-- Steps 1 to 3 for a block; a fault that its current matrix row meets stops it with an image that stands as the canvas
(16 R348). It then waits for its canvas to be written. rew: it goes back to its restart label first; so does
a block that holds uncommitted tiles once its matrix work has settled, unless keep: a fault's image rewinds nothing. -/
def haltBlock (s : State) (bid : Nat) (addr : Word) (rew keep : Bool) : State :=
  let s := settleMatrix (if rew then rewind s bid else s) bid
  if (s.block? bid).any faultStopped then s.onBlock bid fun b => { b with wanted := true }
  else
  let late := !rew && !keep && (s.block? bid).any uncommitted
  let s := settleProds (if late then rewind s bid else s) bid
  match s.block? bid with
  | none => s
  | some b =>
    let s : State := { s with prods := s.prods.filter fun p => !(p.bid == bid && p.acc) }
    s.onBlock bid fun _ => { stillBlock s b with state := .writing addr (rew || late) }

/-- An image written for a fault that stands as the captured canvas (16 R348). -/
def imageOf (b : Block) : Option Word :=
  match b.state with
  | .suspended _ (some a) => if a = 0 then none else some a
  | _ => none

/-- The capture of one block begins; one in capture joins it. A suspended block's image is to stand as its canvas (16 R348): it
is awaited where it is still to be written, and the block is written with its unit where that is more than the image holds. -/
def captureOne (s : State) (b : Block) : State :=
  let drop := fun (s : State) => show State from { s with faults := s.faults.filter fun f => f.asker != .block b.bid }
  match b.state with
  | .running => if uncommitted b then s.onBlock b.bid fun x => { x with state := .window s.time 0, issued := [] }
    else haltBlock s b.bid 0 false false
  | .asked _ a => if uncommitted b then s.onBlock b.bid fun x => { x with state := .window s.time a, issued := [] }
    else haltBlock s b.bid a false false
  | .suspended _ none => s.onBlock b.bid fun x => { x with wanted := true }
  | .suspended _ (some a) =>
    let s := haltBlock ((drop s).onBlock b.bid fun x => { x with state := .writing 0 false }) b.bid 0 false true
    if a = 0 then s else freeCanvas s b.ctx a
  | _ => s

/-- The capture of a block's unit begins. -/
def beginCapture (s : State) (b : Block) : State :=
  let unit := unitOf s b
  match imageOf b with
  | some a => if unit.all fun x => imageOf x == some a then toCaptured s unit a else unit.foldl captureOne s
  | none => unit.foldl captureOne s

/-- EASEL_CAPTURE (16 R345). -/
def execEaselCapture (blk : Nat) (s : State) : Out :=
  match s.block? blk with
  | none => .next s
  | some b => .next (beginCapture s b)

/-- COMMIT_WINDOW_CLOSE (16 R346): captured after the commit, or rewound. -/
def execCommitWindowClose (blk : Nat) (s : State) : Out :=
  match s.block? blk with
  | none => .next s
  | some b => match b.state with
    | .window _ a => .next (haltBlock s blk a (uncommitted b) false)
    | _ => .next s

/-- A block that was stopped runs on where it stands (15 R323 step 5). -/
def resumeBlock (s : State) (bid : Nat) : State :=
  let s : State := { s with
    prods := (s.prods.filter fun p => !(p.bid == bid && p.acc)).map fun p => if p.bid = bid then restoredProd s p else p }
  let s := s.onBlock bid fun b => restartAccess (freshWaits s.cycle { b with state := .running }) s.cycle
  reissueLoads s bid

/-! ## Relaunch from the kernel entry (17 R368) -/

/-- The launch of a block that fits nowhere ends with OVERCAP and a record (17 R368 step 3). -/
def overcapLaunch (s : State) (lid : Nat) : State :=
  match s.launches.find? fun l => l.lid == lid with
  | none => s
  | some l =>
    let s := stick (endLaunch s lid 2) l.ctx stickOvercap
    postRecord s l.part (recordBytes s 14 l.ctx 0xFFFF l.grid.toNat 0 0 0 [])

/-- The fallback configuration under which blocks of a launch are relaunched: 1, then 2. -/
def fallback (s : State) (l : Launch) (csize : Nat) : Option (Nat × Kernel) :=
  [1, 2].findSome? fun i =>
    let a := l.kpbs.getD i 0
    if a = 0 then none
    else match loadedKernel s l.part l.ctx a.toNat with
      | some k => if k.cluster = csize ∧ cfgFits s l (kernelKind k) k then some (i, k) else none
      | none => none

/-- Blocks of a launch, by their index in the grid, are to be relaunched; without a fallback the launch ends. -/
def relaunch (s : State) (part ctx lid : Nat) (csize : Nat) (bs : List CapBlock) : State :=
  match s.launches.find? fun l => l.lid == lid with
  | none => s
  | some l =>
    let bs := bs.map fun x => { x with fresh := true, held := [], grants := [] }
    if (fallback s l csize).isNone then overcapLaunch s lid
    else { s with
        nextId := s.nextId + 1,
        captured := s.captured ++ [{ id := s.nextId, part := part, ctx := ctx, addr := 0, blocks := bs }] }

/-- Blocks that leave a core without a canvas. -/
def relaunchBlocks (s : State) (bs : List Block) : State :=
  match bs.head? with
  | none => s
  | some b =>
    let caps := (recorded bs).map fun x =>
      { idx := x.idx, launch := x.launch, node := x.node, commission := x.commission, held := [], grants := [],
        capRead := x.capRead, fresh := true : CapBlock }
    relaunch (dropBlocks s bs) b.part b.ctx b.launch b.csize caps

/-- Do the reservations on a core exceed what it still has (17 R368)? -/
def overfull (s : State) (die core : Nat) : Bool :=
  let used := sumNeeds (s.blocks.filter fun b => b.die == die && b.core == core && resident b)
  lostCore s die core || ((used.zip (capsOf s die core)).any fun x => decide (x.2 < x.1))

/-! ## Writing canvases (16 R345 steps 4 and 5) -/

/-- Is a fabric step of the block under way? The collective engine finishes it first: a PUT, GET or ATOMIC with the writing of
what it brought, or the sending of a MULTICAST by its source; a contribution to a reduction is sent in one step (16 R339). -/
def fabricBusy (s : State) (bid : Nat) : Bool :=
  s.ops.any fun o => o.bid == bid && o.result.isNone
    && ((s.outbound.any fun x => x.op == o.id) || s.respHeld.any fun x => x.op == o.id) && match o.kind with
    | .coll d =>
      let c := parseColl d
      decide (c.op ≤ 2) || (c.op == 5 && ((s.block? bid).bind fun b => fabricGroup s b.part c.group).any fun g => g.rank == c.peer)
    | _ => false

/-- Is a SUSPEND of a context in progress? -/
def suspending (s : State) (ctx : Nat) : Bool :=
  match s.ctx? ctx with
  | none => false
  | some c => let p := s.part c.part; p.ccmdBusy && p.ccmdOp == 2 && p.ccmdCtx == ctx

/-- Does a context's work go on: ACTIVE, and no SUSPEND under way (13 R282)? -/
def ctxRuns (s : State) (ctx : Nat) : Bool :=
  ((s.ctx? ctx).any fun c => c.state == .active) && !suspending s ctx

/-- The reference of a context's EASEL request. -/
def ctxRef (ctx : Nat) : Nat := 2 ^ 40 + ctx

/-- Is an EASEL request open? -/
def easelOpen (s : State) (part ref : Nat) : Bool := askedHost s part 2 ref

/-- The host is asked about a block's canvas (13 R280). -/
def askEasel (s : State) (b : Block) : State :=
  if easelOpen s b.part b.bid then s
  else (postAssist s b.part 2 b.ctx b.bid (leBytes 4 b.grid.toNat ++ leBytes 4 b.idx)).1

/-- A stopped block with nothing left to await. -/
def stopped (s : State) (b : Block) : Bool :=
  match b.state with
  | .writing _ _ => !fabricBusy s b.bid
  | .ended => true
  | _ => false

/-- The address the host gave for a block's canvas. -/
def wishOf (b : Block) : Word := match b.state with
  | .writing a _ => a
  | _ => 0

/-- A unit's canvas is written and its reservations are freed, with KIND 2 where a fault's image is part of it; where it does
not fit, the unit runs on, or leaves its core without a canvas if it must. -/
def writeUnit (s : State) (unit : List Block) : State :=
  match unit.head? with
  | none => s
  | some b =>
    let bytes := encCanvas s (if unit.any uncommitted then 2 else 1) b.ctx (recorded unit) false
    match canvasSpot s b.ctx bytes.length (((unit.map wishOf).find? (· != 0)).getD 0) with
    | some spot => toCaptured (putCanvas s b.ctx spot bytes) unit spot.1
    | none =>
      if unit.any fun x => overfull s x.die x.core then relaunchBlocks s unit
      else unit.foldl (fun s x => if x.state = .ended then s else resumeBlock s x.bid) s

/-- A context command ends with a result. -/
def endCmd (s : State) (part res : Nat) : State :=
  s.setPart part { s.part part with ccmdBusy := false, ccmdResult := res, ccmdOp := 0 }

/-! ## Fault images (15 R323 step 2) -/

/-- The blocks that a fault suspends together. -/
def faultUnit (s : State) (b : Block) : List Block :=
  if b.csize = 1 then [b] else s.blocks.filter fun x => x.cluster == b.cluster

/-- The image of a suspended block or cluster: nothing is rewound. Where there is no room it is not written (16 R344). A capture
asked for meanwhile takes the image as its canvas (16 R348). -/
def writeImage (s : State) (b : Block) (wish : Word) : State :=
  let unit := faultUnit s b
  let s := unit.foldl (fun s x => if x.state = .ended then s else
    let s := settleProds (settleMatrix s x.bid) x.bid
    s.onBlock x.bid fun y => { stillBlock s y with state := x.state }) s
  let unit := unit.filterMap fun x => s.block? x.bid
  let bytes := encCanvas s 2 b.ctx unit false
  let set := fun (s : State) (a : Word) => unit.foldl (fun s x => s.onBlock x.bid fun y => match y.state with
    | .suspended r _ => { y with state := .suspended r (some a) }
    | _ => y) s
  match canvasSpot s b.ctx bytes.length wish with
    | some spot =>
      let s := set (putCanvas s b.ctx spot bytes) spot.1
      if unit.any (·.wanted) then ((s.block? b.bid).map (beginCapture s)).getD s else s
    | none => set s 0

/-- Images still to be written, by the blocks that need them; where EASEL is the host's duty it is asked first. -/
def tryImage (s : State) (b : Block) : State :=
  if !((faultUnit s b).all fun x => !fabricBusy s x.bid) then s
  else if hostDuty s b.part 2 b.bid then askEasel s b
  else writeImage s b 0

/-! ## The checks of a restore (16 R332, R334, R350) -/

/-- The group counts of a record agree with its header (16 R336). -/
def recordGroupsOk (r : List Byte) : Bool :=
  let x := shapeOf r
  let ps := pieces x.head (r.drop 256)
  let tail := x.snapPieces.sum + 64 * x.p
  let sn := pieces x.snapPieces (r.drop (field r 0 8 - tail))
  field (ps.getD 5 []) 0 4 == x.g && field (sn.getD 4 []) 0 4 == x.gs

/-- The block images of a canvas in directory order, where every kernel is loaded. kept: what the device itself knows of the
blocks it captured. -/
def canvasImages (s : State) (part ctx : Nat) (bs : List Byte) (kept : List CapBlock := []) : Option (List BlockImage) :=
  let bases := (canvasObjs bs).map (·.2)
  ((canvasRecords bs).mapIdx fun i r => (i, r)).foldr (fun x a => match a with
    | none => none
    | some l =>
      match loadedKernel s part ctx (codeAddr bases (field x.2 24 8) (field x.2 32 8)).toNat with
      | none => none
      | some k =>
        let own := (kept.find? fun c => c.idx == x.1).map (·.committed)
        some (decBlock bases k s.cycle (byteAt bs 7) own x.2 :: l)) (some [])

/-- Units of a canvas: the images of a cluster stand together; each with its place in the directory. -/
def canvasUnits : Nat → List (Nat × BlockImage) → List (List (Nat × BlockImage))
  | 0, _ => []
  | _ + 1, [] => []
  | n + 1, x :: rest =>
    let c := max 1 x.2.block.csize
    (x :: rest.take (c - 1)) :: canvasUnits n (rest.drop (c - 1))

def unitsOfCanvas (ims : List BlockImage) : List (List (Nat × BlockImage)) :=
  canvasUnits (ims.length + 1) (ims.mapIdx fun i x => (i, x))

/-- Pages of the atelier section: window page and bytes. -/
def atelierPages (bs : List Byte) : List (Nat × List Byte) :=
  let o := field bs 64 8
  if o = 0 then []
  else (List.range (field bs o 4)).map fun i =>
    let r := o + 64 + 65600 * i
    (field bs r 8, sub bs (r + 64) 65536)

/-- The kind of core for a member: twins that may stand on either kind stand on the one chosen for both (17 R360). -/
def memberKind (choice need : Nat) : Nat := if need = 2 then choice else need

/-- Members of a unit put on the first cores of a die with room; avoid holds a core each may not take. -/
def putMembers (die choice : Nat) : List (BlockImage × (Nat → Nat → Block)) → List Nat → State → Option (State × List Nat)
  | [], _, s => some (s, [])
  | (im, mk) :: rest, avoid, s =>
    match pickCore s die (memberKind choice im.kind) (avoid.take 1) im.block.kernel with
    | none => none
    | some c =>
      let b := mk s.nextId c
      match putMembers die choice rest (avoid.drop 1) { s with nextId := s.nextId + 1, blocks := s.blocks ++ [b] } with
      | none => none
      | some (s', cs) => some (s', c :: cs)

/-- A unit on the first die where it fits, or its twins on another die when there is one. put places it on a die with a
choice of kind, and tells the cores it took. -/
def putPair {α : Type} (s : State) (part : Nat) (redundant : Bool)
    (put : State → Nat → Nat → List Nat → Option (State × List Nat × α)) : Option (State × α × Option α) :=
  let dies := diesOf s part
  if !redundant then (dies.findSome? fun d => put s 2 d []).map fun r => (r.1, r.2.2, none)
  else [0, 1].findSome? fun choice =>
    (dies.findSome? fun d => (put s choice d []).map fun r => (r, d)).bind fun x =>
      let others := if dies.length ≤ 1 then dies else dies.filter (· != x.2)
      (others.findSome? fun d => put x.1.1 choice d (if d = x.2 then x.1.2.1 else [])).map fun y =>
        (y.1, x.1.2.2, some y.2.2)

/-- The state without the blocks of a partition, to see what an empty one holds. -/
def emptied (s : State) (part : Nat) : State := { s with blocks := s.blocks.filter fun b => b.part != part }

/-- A unit without its place, for the check of room. -/
def bareMembers (die : Nat) (u : List (Nat × BlockImage)) : List (BlockImage × (Nat → Nat → Block)) :=
  u.map fun x => (x.2, fun bid core => { x.2.block with bid := bid, die := die, core := core })

/-- The state with a unit, and its twins, on the partition. -/
def putUnit (s : State) (part : Nat) (redundant : Bool) (u : List (Nat × BlockImage)) : Option State :=
  (putPair s part redundant fun s choice d avoid =>
    (putMembers d choice (bareMembers d u) avoid s).map fun r => (r.1, r.2, ())).map (·.1)

/-- Is a recorded grid co-resident? A canvas has the mode as one flag: of a canvas from elsewhere it holds for the grids
that declare grid barriers, or for every grid where none does (DESIGN CHOICE, log 18). -/
def coGrid (bs : List Byte) (ims : List BlockImage) (grid : Nat) : Bool :=
  field bs 28 4 / 4 % 2 == 1
  && ((ims.any fun im => im.block.grid.toNat == grid && im.block.kernel.gridBars != 0)
      || ims.all fun im => im.block.kernel.gridBars == 0)

/-- The launch of a recorded block, where the device has it. -/
def launchAt (s : State) (blocks : List CapBlock) (i : Nat) : Option Launch :=
  (blocks.find? fun x => x.idx == i).bind fun x => s.launches.find? fun l => l.lid == x.launch

/-- The co-resident grid that a recorded block belongs to. -/
def coKey (s : State) (bs : List Byte) (ims : List BlockImage) (blocks : List CapBlock) (i : Nat) : Option Nat :=
  let grid := (ims[i]?.map (·.block.grid.toNat)).getD 0
  match launchAt s blocks i with
  | some l => if l.coresident then some grid else none
  | none => if coGrid bs ims grid then some grid else none

/-- Has a recorded block a twin? -/
def recordTwinned (s : State) (bs : List Byte) (blocks : List CapBlock) (i : Nat) : Bool :=
  match launchAt s blocks i with
  | some l => l.redundant
  | none => field bs 28 4 / 2 % 2 == 1

/-- Do units fit an empty partition: those of a co-resident grid all together, each other one alone (16 R350)? Of a canvas whose
blocks are partly placed only the others count. -/
def unitsFit (s : State) (part : Nat) (bs : List Byte) (ims : List BlockImage) (blocks : List CapBlock)
    (us : List (List (Nat × BlockImage))) : Bool :=
  let us := us.filter fun u => blocks.isEmpty || u.any fun x => blocks.any fun b => b.idx == x.1
  let first := fun (u : List (Nat × BlockImage)) => (u.head?.map (·.1)).getD 0
  let key := fun u => coKey s bs ims blocks (first u)
  let put := fun (s : State) u => putUnit s part (recordTwinned s bs blocks (first u)) u
  (us.all fun u => (key u).isSome || (put (emptied s part) u).isSome)
  && ((us.filterMap key).eraseDups).all fun g =>
    ((us.filter fun u => key u == some g).foldl (fun (a : Option State) u => a.bind fun s => put s u)
      (some (emptied s part))).isSome

/-- What stops a restore of a canvas: INVALID 8 or OVERCAP 2 (16 R350). blocks: those of it that the device has launches for. -/
def restoreErr (s : State) (part ctx : Nat) (bs : List Byte) (blocks : List CapBlock := []) : Option Nat :=
  match s.ctx? ctx with
  | none => some 8
  | some c =>
    let fl := field bs 28 4
    if !headerOk bs || byteAt bs 6 != 1 then some 8
    else if !((canvasRecords bs).all recordGroupsOk) then some 8
    else if !((canvasObjs bs).all fun o => (instsOf s ctx).any fun i => i.hash == o.1 && i.base.toNat == o.2) then some 8
    else if !((atelierPages bs).all fun p => (s.atlEntry c p.1).isSome) then some 8
    else if (fl / 2 % 2 == 1 && !c.redundant) || (fl / 4 % 2 == 1 && !c.coresident) then some 8
    else match canvasImages s part ctx bs with
      | none => some 8
      | some ims => if unitsFit s part bs ims blocks (unitsOfCanvas ims) then none else some 2

/-! ## The sections of a canvas restored (16 R340, R341) -/

/-- The entry of a context's commission table that a descriptor names, as memory has it (14 R297). -/
def tableEntry (s : State) (ctx : Nat) (desc : Word) : Nat :=
  ((s.ctx? ctx).map fun c => c.cmsnTab.toNat + 16 * (desc.toNat % 65536)).getD 0

/-- The kernel it names. -/
def tableKpb (s : State) (part ctx : Nat) (desc : Word) : Nat :=
  match peek s (ctxView part ctx) (tableEntry s ctx desc) 8 with
  | .inl bs => leNat bs / 64 * 64
  | .inr _ => 0

/-- The graph section's entries of a KIND 3 canvas come to the pool and the launch paths (16 R340); kpbs: the kernels
of its commissions. -/
def restoreGraph (s : State) (part ctx lid pid : Nat) (kpbs : List Nat) (bs : List Byte) : State :=
  let o := field bs 56 8
  if byteAt bs 7 ≠ 3 ∨ o = 0 then s
  else
    let n := field bs o 4
    let c := field bs (o + 4) 4
    let m := field bs (o + 8) 4
    let credAt := o + 64 + 128 * n
    let cmAt := credAt + up64 (16 * c)
    let s := (records 128 n (bs.drop (o + 64))).foldl (fun (s : State) r =>
      { s with nextId := s.nextId + 1,
               nodes := s.nodes ++ [{ part := part, ctx := ctx, addr := wordAt r 0, desc := sub r 16 64, remaining := field r 8 8,
                                      launch := lid, pid := some pid, order := s.nextId }] }) s
    let s := (records 16 c (bs.drop credAt)).foldl (fun (s : State) r =>
      { s with credits := s.credits ++ [{ ctx := ctx, addr := wordAt r 0, count := field r 8 8 }] }) s
    ((records 64 m (bs.drop cmAt)).mapIdx fun i r => (kpbs.getD i 0, r)).foldl (fun (s : State) x =>
      let r := x.2
      let addr := wordAt r 0
      let home : Nat × Nat := (sliceAt s (ctxView part ctx) needRW addr.toNat).getD (0, 0)
      { s with nextId := s.nextId + 1, commissions := s.commissions ++
          [{ id := s.nextId, kpb := x.1, part := part, ctx := ctx, die := home.1, slice := home.2, old := wordAt r 8,
             info := { addr := addr, desc := wordAt r 16, grid := BitVec.ofNat 32 (field r 24 4), blk := field r 28 4 },
             scope := field r 32 8, launch := lid, pid := some pid }] }) s

/-- The atelier pages of a canvas are written into the slices the context's map names (16 R341). -/
def restoreAtelier (s : State) (ctx : Nat) (bs : List Byte) : State :=
  match s.ctx? ctx with
  | none => s
  | some c => (atelierPages bs).foldl (fun s p =>
      match s.atlEntry c p.1 with
      | some (d, n) => { s with atelier := cellsPut s.atelier ((d * 1024 + n) * 65536) p.2 }
      | none => s) s

/-- The sections of a canvas are written, where that is still to be done (16 R349 step 4). -/
def writeSections (s : State) (c : Captured) (bs : List Byte) : State :=
  if !c.sections then s
  else
    let s := restoreAtelier s c.ctx bs
    match c.graph with
    | none => s
    | some (pid, kpbs) =>
      if byteAt bs 7 ≠ 3 ∨ field bs 56 8 = 0 then s
      else
        let q := (s.packets.find? fun p => p.pid == pid).map fun p => (s.part c.part).queue p.q
        let l := blankLaunch s c.part c.ctx (some pid) 0 ((q.map (·.cls)).getD 2) ((q.map (·.weight)).getD 1)
        restoreGraph (addLaunch s l) c.part c.ctx l.lid pid kpbs bs

/-! ## Restoring (16 R338, R349) -/

/-- The instruction's work that a descriptor names. The bytes of a collective descriptor, which no canvas holds, are read at
its turn (log 18). -/
def kindOfDesc (d : PendDesc) (prod : Nat) : EngKind :=
  let o := fun (i : Nat) => d.desc.operands.getD i 0
  match d.desc.major, d.desc.fn with
  | 20, 0 => .tileld (o 0) (o 1) (lo32 (o 2)) (hi32 (o 2)) (lo32 (o 3)) (hi32 (o 3)) d.desc.qual
  | 20, 1 => .tilest (o 0) (o 1) (lo32 (o 2)) (hi32 (o 2)) (lo32 (o 3)) (hi32 (o 3))
  | 20, 2 => .copy (o 0) (o 1) (o 2).toNat
  | 20, 3 => .gather (o 0) (o 1) (o 2) (lo32 (o 3)) (2 ^ (d.desc.qual % 4))
  | 20, _ => .coll []
  | 23, _ => .mma d.acc d.desc.qual d.desc.operands d.tid [d.slot]
  | _, 3 => .azero d.acc
  | _, 5 => .aload (d.acc % 64) (decide (64 ≤ d.acc)) (o 0) (o 1)
  | _, 6 => .astore (d.acc % 64) (decide (64 ≤ d.acc)) (o 0) (o 1)
  | _, 7 => .scacc d.acc d.desc.qual (o 0) (o 1)
  | _, _ => .amovr d.acc (o 0) prod

/-- Does no counter count it? -/
def uncountedKind : EngKind → Bool
  | .azero _ => true
  | .scacc .. => true
  | .amovr .. => true
  | _ => false

/-- The binding of byte 8. -/
def bindingOf (g : Nat) : Binding :=
  if g / 16 % 2 = 0 then .go
  else match g / 32 % 4 with
    | 0 => .episode (g % 16) 1
    | 1 => .go
    | _ => .discard

/-- The value of a division or special function from its recorded operands (16 R338). A descriptor holds no enabling mask and
no old destination: every element counts as active (DESIGN CHOICE, log 89); of what the device captured itself it keeps the
value. -/
def producedValue (d : OpDesc) : Word × Flags :=
  let a := d.operands.getD 0 0
  let b := d.operands.getD 1 0
  if d.major = 1 then
    (match d.fn with
      | 3 => divSigned a b
      | 4 => divUnsigned a b
      | 5 => remSigned a b
      | _ => remUnsigned a b, 0)
  else
    let f := Fmt.ofCode (d.qual % 16)
    let rm := RM.ofCode (BitVec.ofNat 3 d.rm)
    let op := fun (x : Num) => match d.fn with
      | 0 => sqrtOp f rm x
      | 1 => rcpOp f rm x
      | 2 => rsqOp f x
      | 3 => exp2Op f x
      | 4 => log2Op f x
      | 5 => sinOp f x
      | 6 => cosOp f x
      | 7 => tanhOp f x
      | _ => exptOp f x
    let r := fun (m : Nat) => op (decodeNum f (elem a m f.slot))
    (elemBuild 0xFF false 0 f.slot f.count (fun m => (r m).1) (fun _ => 0), elemFlags 0xFF f.slot f.count r)

/-- A register producer read back. -/
def prodOf (s : State) (bid : Nat) (d : PendDesc) (known : Option (Word × Flags)) : Prod :=
  let (v, fl) := known.getD (producedValue d.desc)
  let base : Prod :=
    { id := s.nextId, bid := bid, tid := d.tid, acc := false, y := if d.dest = 0 then none else some d.dest, val := v,
      poison := none, flags := fl, kind := if d.desc.major = 1 then .divide else .special, ready := true, after := d.after,
      due := s.cycle, desc := d.desc }
  if d.desc.major = 6 ∨ d.desc.major = 7 then { base with kind := .load, val := 0, flags := 0, ready := false }
  else if d.desc.major = 26 then { base with kind := .tstamp, val := ptpPacked s, flags := 0 }
  else if d.desc.major = 18 then { base with kind := .xrecv, val := 0, flags := 0, ready := false }
  else base

/-- The work of an operation whose descriptor leaves something of it open, where the device captured it itself. -/
def keptKind (x : EngOp) (k : EngKind) : EngKind := match x.kind with
  | .coll d => .coll d
  | .mma a f ps i ts => .mma a f ps i ts
  | _ => k

/-- The result of a restored operation: one the device knew, or −2 where its ranges fail the check. -/
def restoredResult (s : State) (b : Block) (k : EngKind) (cls : Nat) (kept : Option EngOp) : Option Word :=
  match kept.bind (·.result) with
  | some v => some v
  | none => if (cls == 0 || cls == 2) && !engOk s b.view k then some (BitVec.ofInt 64 (-2)) else none

/-- Where a restored operation goes on: a COLL whose response came meanwhile has it to write, and one whose reduction ended
without it ends with −4 (16 R339). -/
def keptStep (s : State) (b : Block) (o : EngOp) : EngOp :=
  match o.kind with
  | .coll d =>
    if o.result.isSome || d.isEmpty then o
    else if s.respHeld.any fun x => x.op == o.id then { o with progress := 2 }
    else if o.progress = 2 then o
    else
      let p := restoredStep s b d o.progress
      { o with progress := p, result := restoredColl s b d p }
  | _ => o

/-- One pending descriptor is issued again; kept is the operation as the device captured it itself, val what a division or
special function gives. A collective operation keeps its number, under which its responses come. -/
def reissueDesc (s : State) (b : Block) (d : PendDesc) (kept : Option EngOp) (val : Option (Word × Flags)) : State :=
  if d.cls = 4 then
    let p := prodOf s b.bid d val
    let s : State := { s with nextId := s.nextId + 1, prods := s.prods ++ [p] }
    if p.kind = .xrecv then
      let t := (b.threads.find? fun t => t.tid == d.tid)
      s.onBlock b.bid fun y => { y with
        teams := y.teams.map fun tm =>
          if some tm.slot = t.map (·.slot) then
            { tm with claims := tm.claims ++ [(32 * d.desc.qual + (t.map (·.lane)).getD 0, p.id)] }
          else tm }
    else s
  else
    let k := (kept.map fun x => keptKind x (kindOfDesc d s.nextId)).getD (kindOfDesc d s.nextId)
    let (s, k) := match k with
      | .amovr h sel pid =>
        let p : Prod := { id := pid, bid := b.bid, tid := d.tid, acc := false,
                          y := if d.dest = 0 then none else some d.dest, val := 0, poison := none, flags := 0, kind := .amovr,
                          ready := false, after := d.after, due := s.cycle, desc := noDesc }
        ({ s with nextId := s.nextId + 1, prods := s.prods ++ [p] }, EngKind.amovr h sel pid)
      | k => (s, k)
    let op : EngOp :=
      { id := (match k, kept with
          | .coll _, some x => if s.ops.any fun y => y.id == x.id then s.nextId else x.id
          | _, _ => s.nextId),
        bid := b.bid, ctx := b.ctx, slot := d.slot, tid := d.tid,
        cls := if uncountedKind k then 4 else d.cls, kind := k, tok := if d.dest = 0 then none else some d.dest,
        binding := bindingOf d.guard, guard := if d.guard / 16 % 2 = 1 then some (d.guard % 16) else none,
        progress := (kept.map (·.progress)).getD d.progress,
        xlat := (match k with
          | .mma _ fmt pairs _ _ => pathsOf s b.view (operandAddrs fmt pairs 0)
          | _ => []),
        after := d.after, result := restoredResult s b k d.cls kept, orphan := false, void := kept.any (·.void),
        wrote := (kept.map (·.wrote)).getD 0, due := s.cycle + Config.latEngine, desc := d.desc }
    let s : State := { s with nextId := s.nextId + 1, ops := s.ops ++ [keptStep s b op] }
    match s.reductions.find? fun r => !r.closed && reductionFull s r with
    | some r => closeReduction s r (!r.mismatch)
    | none => s

/-- A restored shadow in which no sketch MMA has had its turn stands where the first one will have it: until then earlier work
on the handle goes on, and the shadow takes the tile as it is at that turn (10 R242). A record does not tell such a shadow from
one that was written: of a canvas from elsewhere each counts as written (log 18). -/
def placeShadow (ops : List EngOp) (w : Shadow) (unborn : Bool) : Shadow :=
  let own := fun (o : EngOp) =>
    o.isMatrix && (handlesOf o.kind).contains w.handle && o.slot == w.slot && o.binding == .episode w.guard w.episode
  if unborn then { w with born := ((ops.find? own).map (·.id)).getD 0, tile := [] } else w

/-- Teams whose MATRIX counter counts an MMA besides its first signer's: as many of the latest as the counters show
(log 18). -/
def spreadMma (s : State) (b : Block) : State :=
  let mine := fun (o : EngOp) => o.bid == b.bid && o.cls == 1
  b.teams.foldl (fun s tm =>
    let own := (s.ops.filter fun o => mine o && o.slot == tm.slot).length
    let others := (s.ops.filter fun o => mine o && o.slot != tm.slot && match o.kind with
      | .mma .. => true
      | _ => false).map (·.id)
    let pick := others.drop (others.length - (tm.count 1 - own))
    { s with
      ops := s.ops.map fun o =>
        if pick.contains o.id then
          match o.kind with
          | .mma a f ps i ts => { o with kind := .mma a f ps i (ts ++ [tm.slot]) }
          | _ => o
        else o }) s

/-- A secondary's operations with effects outside scratchpad take their primary's results (17 R363). -/
def twinOps (s : State) (p q : Block) : State :=
  let ps := s.ops.filter fun o => o.bid == p.bid
  let qs := s.ops.filter fun o => o.bid == q.bid
  (ps.zip qs).foldl (fun s x =>
    let out := match x.1.kind with
      | .coll _ => true
      | k => writesOut k
    if out then { s with ops := s.ops.map fun o => if o.id = x.2.id then { o with kind := .twin x.1.id } else o } else s) s

/-- A spawn entry's 512 cycles start anew: no record holds when it was parked (log 76). -/
def parkedNow (clk : Nat) (e : SpawnEntry) : SpawnEntry := { e with parked := clk }

/-- A restored block in its place. -/
def plantBlock (s : State) (l : Launch) (cb : CapBlock) (im : BlockImage) (bid die core cid : Nat) : Block :=
  { im.block with
    bid := bid, reqKind := im.kind, part := l.part, ctx := l.ctx, launch := l.lid, grid := l.grid, cluster := cid, die := die, core := core,
    kind := coreKindOf core, args := l.args, coresident := l.coresident, redundant := l.redundant,
    commission := cb.commission, node := cb.node, placed := bid, distT := l.distT, distG := l.distG, held := cb.held,
    grants := cb.grants, capRead := cb.capRead, spawn := im.block.spawn.map (parkedNow (quadClock s die core)),
    snap := im.block.snap.map fun sn => { sn with spawn := sn.spawn.map (parkedNow (quadClock s die core)) },
    threads := im.block.threads.map fun t => { t with since := s.cycle } }

/-- The pending descriptors of a block that has its recorded state again (16 R338). -/
def reissueAll (s : State) (bid : Nat) (pend : List PendDesc) (cb : CapBlock) : State :=
  match s.block? bid with
  | none => s
  | some b =>
    let s := (pend.mapIdx fun i d => (i, d)).foldl (fun s x =>
      reissueDesc s b x.2 cb.kept[x.1]? (cb.vals.getD (x.1 - cb.kept.length) none)) s
    let s := if cb.kept.isEmpty then spreadMma s b else s
    let ops := s.ops.filter fun o => o.bid == bid
    s.onBlock bid fun b => recount ops { b with shadows := b.shadows.mapIdx fun i w => placeShadow ops w (cb.unborn.getD i false) }

/-- Steps 4 to 6 for a placed block: descriptors, loads, the access slice, its first image (16 R349). -/
def settleRestored (s : State) (bid : Nat) (pend : List PendDesc) (cb : CapBlock) : State :=
  match s.block? bid with
  | none => s
  | some _ =>
    let s := reissueAll s bid pend cb
    let s := s.onBlock bid fun b => settleBlock (restartAccess b s.cycle)
    let s := reissueLoads s bid
    match s.block? bid with
    | none => s
    | some b =>
      warmUp { s with
        pents := (s.pents.filter fun p => p.bid != bid)
          ++ [{ bid := bid, complete := true, irrev := false, image := b, ops := s.ops.filter fun o => o.bid == bid,
                prods := s.prods.filter fun p => p.bid == bid }] } b.die b.ctx b.kernel.kpb

/-- A barrier of the CLU section. -/
def cluBar (bs : List Byte) (off : Nat) (x : Bar) : Bar :=
  { x with expected := field bs off 3, arrived := field bs (off + 3) 3, phase := byteAt bs (off + 6) % 2 == 1 }

/-- A unit's cluster barriers as recorded; u counts the units before it. -/
def cluCluster (bs : List Byte) (u : Nat) (bars : List Bar) : List Bar :=
  let o := field bs 48 8
  if o = 0 then bars
  else bars.map fun x => match x.id with
    | .cluster n => cluBar bs (o + 64 + 128 * u + 8 * n) x
    | _ => x

/-- A co-resident grid's barriers as recorded. -/
def cluGrid (bs : List Byte) (bars : List Bar) : List Bar :=
  let o := field bs 48 8
  if o = 0 ∨ byteAt bs (o + 4) = 0 then bars
  else bars.map fun x => match x.id with
    | .grid n => cluBar bs (o + 64 + 128 * field bs o 4 + 8 * n) x
    | _ => x

/-- One unit of a canvas placed on a die, if there is room: the cores it took and its blocks' numbers. -/
def plantOn (bs : List Byte) (l : Launch) (u : Nat) (ms : List (CapBlock × BlockImage)) (s : State) (choice die : Nat)
    (avoid : List Nat) : Option (State × List Nat × List Nat) :=
  match ms.head? with
  | none => none
  | some (_, im0) =>
    let (s1, cid) := newCluster s im0.block.kernel (max 1 im0.block.csize)
    let s1 : State := { s1 with
      clusters := s1.clusters.map fun c => if c.cid = cid then { c with bars := cluCluster bs u c.bars } else c }
    match putMembers die choice (ms.map fun m => (m.2, fun bid core => plantBlock s l m.1 m.2 bid die core cid)) avoid s1 with
    | none => none
    | some (s2, cores) =>
      let ids := (s2.blocks.drop s.blocks.length).map (·.bid)
      some ((ids.zip ms).foldl (fun s x => settleRestored s x.1 x.2.2.pend x.2.1) s2, cores, ids)

/-- A unit, and its twins in redundant mode. -/
def plantUnit (s : State) (bs : List Byte) (l : Launch) (u : Nat) (ms : List (CapBlock × BlockImage)) : Option State :=
  match putPair s l.part l.redundant (plantOn bs l u ms) with
  | none => none
  | some (s1, _, none) => some s1
  | some (s2, ids, some ids2) =>
    let get := fun (s : State) (l : List Nat) => l.filterMap s.block?
    let s3 := pairTwins s2 (get s2 ids) (get s2 ids2)
    some (((get s3 ids).zip (get s3 ids2)).foldl (fun s x =>
      if x.1.primary then twinOps s x.1 x.2 else twinOps s x.2 x.1) s3)

/-- The units of a canvas of which blocks still wait, with their launch's number. -/
def waitingUnits (c : Captured) (ims : List BlockImage) : List (Nat × Nat × List (CapBlock × BlockImage)) :=
  ((unitsOfCanvas ims).mapIdx fun u ms =>
    let got := ms.filterMap fun m => (c.blocks.find? fun x => x.idx == m.1).map fun x => (x, m.2)
    match got.head? with
    | some (x, _) => some (u, x.launch, got)
    | none => none).filterMap id

def setCaptured (s : State) (c : Captured) : State :=
  { s with
    captured := (s.captured.map fun x => if x.id = c.id then c else x).filter
      fun x => !x.blocks.isEmpty }

/-- What is left of a canvas after some of its blocks were placed or given up. -/
def takeBlocks (c : Captured) (ids : List Nat) : Captured := { c with blocks := c.blocks.filter fun x => !ids.contains x.idx }

/-- Units of one launch, all of them or as many as fit. -/
def plantLaunch (s : State) (bs : List Byte) (l : Launch) (us : List (Nat × Nat × List (CapBlock × BlockImage))) :
    State × List Nat :=
  if l.coresident then
    match us.foldl (fun (a : Option State) u => a.bind fun s => plantUnit s bs l u.1 u.2.2) (some s) with
    | some s' =>
      ({ s' with launches := s'.launches.map fun x => if x.lid = l.lid then { x with bars := cluGrid bs x.bars } else x },
       us.flatMap fun u => u.2.2.map (·.1.idx))
    | none => (s, [])
  else
    us.foldl (fun (a : State × List Nat) u => match plantUnit a.1 bs l u.1 u.2.2 with
      | some s' => (s', a.2 ++ u.2.2.map (·.1.idx))
      | none => a) (s, [])

/-- A canvas that cannot be restored: a RESUME ends with 3; a packet's launch ends INVALID or OVERCAP; what the dispatcher
captured itself is discarded with ABORTED, or relaunched when it fits nowhere, and without a configuration for that its launch
ends with a record (16 R350, 17 R368, 19 R397). -/
def failRestore (s : State) (c : Captured) (ims : List BlockImage) (status : Nat) : State :=
  let p := s.part c.part
  if p.ccmdBusy && p.ccmdOp == 3 && p.ccmdCtx == c.ctx then endCmd s c.part 3
  else
    let s1 : State := { s with captured := s.captured.filter fun x => x.id != c.id }
    let lids := (c.blocks.map (·.launch)).eraseDups
    lids.foldl (fun s lid =>
      let mine := c.blocks.filter fun x => x.launch == lid
      if c.fromPacket then endLaunch (if status = 2 then stick s c.ctx stickOvercap else s) lid status
      else if status = 2 then
        let at' := fun (i : Nat) => ims[i]?
        let caps := mine.map fun x => { x with idx := ((at' x.idx).map (·.block.idx)).getD 0 }
        relaunch s c.part c.ctx lid (((mine.head?.bind fun x => at' x.idx).map (·.block.csize)).getD 1) caps
      else endLaunch s lid 7) (freeCanvas s1 c.ctx c.addr)

/-- A canvas whose blocks are all placed is freed; a RESUME that waited for it is done. -/
def doneCanvas (s : State) (c : Captured) : State :=
  if !c.blocks.isEmpty then s
  else
    let s := freeCanvas s c.ctx c.addr
    let p := s.part c.part
    match s.ctx? c.ctx with
    | some x =>
      if p.ccmdBusy && p.ccmdOp == 3 && p.ccmdCtx == c.ctx && x.suspendCanvas == some c.addr then
        endCmd (s.setCtx { x with state := .active, suspendCanvas := none }) c.part 0
      else s
    | none => s

/-- Blocks to relaunch are placed under a fallback configuration, as far as they fit (17 R368 step 2). -/
def plantFresh (s : State) (c : Captured) : State :=
  let lids := (c.blocks.map (·.launch)).eraseDups
  lids.foldl (fun s lid =>
    match s.launches.find? fun l => l.lid == lid with
    | none => setCaptured s { c with blocks := c.blocks.filter fun x => x.launch != lid }
    | some l =>
      match fallback s l (((l.kpbs.getD 0 0 |> fun a => loadedKernel s l.part l.ctx a.toNat).map (·.cluster)).getD 1) with
      | none => overcapLaunch s lid
      | some (cfg, k) =>
        let mine := c.blocks.filter fun x => x.launch == lid
        let starts := (mine.filter fun x => x.idx % k.cluster == 0)
        let place := fun (s : State) (x : CapBlock) =>
          placeUnit s l.part (kernelKind k) k.cluster none l.redundant k fun bid die core crank cid =>
            { launchBlock s { l with next := x.idx } cfg k bid die core crank cid with
              capRead := ((mine.find? fun y => y.idx == x.idx + crank).map (·.capRead)).getD [] }
        let s0 := if l.coresident then setLaunch s { l with bars := gridBarsOf k l.nblk } else s
        let r := starts.foldl (fun (a : State × List Nat) x => match place a.1 x with
          | some s' => (s', a.2 ++ (List.range k.cluster).map fun j => x.idx + j)
          | none => a) (s0, [])
        if l.coresident ∧ r.2.length < mine.length then s
        else setCaptured r.1 { c with blocks := c.blocks.filter fun x => !(x.launch == lid && r.2.contains x.idx) }) s

/-- A canvas as its restore reads it: a packet's reads count as accesses (15 R316). -/
def canvasOf (s : State) (c : Captured) : (List Byte × State) ⊕ AccFault :=
  let v := ctxView c.part c.ctx
  if c.fromPacket then canvasLoad s v c.addr.toNat
  else match canvasAt s v c.addr.toNat with
    | .inl bs => .inl (bs, s)
    | .inr f => .inr f

/-- A canvas's blocks are placed as far as they fit; the rest waits. Its sections are written with the first of them. -/
def restoreCanvas (s : State) (c : Captured) : State :=
  if c.blocks.any (·.fresh) then plantFresh s c
  else match canvasOf s c with
    | .inr _ => failRestore s c [] 8
    | .inl (bs, s0) =>
      let ims := (canvasImages s c.part c.ctx bs c.blocks).getD []
      match restoreErr s c.part c.ctx bs c.blocks with
      | some st => failRestore s c ims st
      | none =>
        let us := waitingUnits c ims
        let (s1, ids) := ((us.map (·.2.1)).eraseDups).foldl (fun (a : State × List Nat) lid =>
          match a.1.launches.find? fun l => l.lid == lid with
          | none => (a.1, a.2 ++ ((c.blocks.filter fun x => x.launch == lid).map (·.idx)))
          | some l =>
            let (s', got) := plantLaunch a.1 bs l (us.filter fun u => u.2.1 == lid)
            (s', a.2 ++ got)) (writeSections s0 c bs, [])
        if ids.isEmpty then s
        else
          let c' : Captured := { takeBlocks c ids with sections := false, graph := none }
          doneCanvas (setCaptured s1 c') c'

/-- CANVAS_RESTORE (16 R349). -/
def execCanvasRestore (part ctx : Nat) (addr : Word) (s : State) : Out :=
  .next ((s.captured.filter fun c => c.part == part && c.ctx == ctx && c.addr == addr).foldl restoreCanvas s)

/-! ## Context captures (13 R282, 16 R331, R340 to R342) -/

/-- One unit of an earlier canvas stands among the blocks again, stopped and with no place of its own, to be recorded. A fault's
image with uncommitted tiles goes back to its restart label (16 R336, R346). -/
def unpackUnit (s : State) (bs : List Byte) (u : Nat × Nat × List (CapBlock × BlockImage)) : State :=
  match s.launches.find? fun l => l.lid == u.2.1, u.2.2.head? with
  | some l, some (_, im0) =>
    let (s, cid) := newCluster s im0.block.kernel (max 1 im0.block.csize)
    let s : State := { s with
      clusters := s.clusters.map fun c => if c.cid = cid then { c with bars := cluCluster bs u.1 c.bars } else c }
    u.2.2.foldl (fun s m =>
      let bid := s.nextId
      let b := plantBlock s l m.1 m.2 bid 0 0 cid
      let s : State := { s with nextId := bid + 1, blocks := s.blocks ++ [{ b with state := .writing 0 (uncommitted b) }] }
      let s := reissueAll s bid m.2.pend m.1
      if uncommitted b then rewind s bid else s) s
  | _, _ => s

/-- The blocks of a canvas that the device wrote stand among the blocks again, and its storage is free; blocks that are to be
relaunched go on waiting. -/
def unpackCanvas (s : State) (c : Captured) : State :=
  if c.blocks.any (·.fresh) then s
  else match canvasAt s (ctxView c.part c.ctx) c.addr.toNat with
    | .inr _ => s
    | .inl bs =>
      let ims := (canvasImages s c.part c.ctx bs c.blocks).getD []
      let s := (waitingUnits c ims).foldl (fun s u => unpackUnit s bs u) (writeSections s c bs)
      freeCanvas { s with captured := s.captured.filter fun x => x.id != c.id } c.ctx c.addr

/-- Every block of a context has stopped, or stands as a canvas: the canvas of KIND 3, which holds them all (13 R282, 16 R331,
R340 to R342). wish: the address the host gave. -/
def writeContext (s0 : State) (c : Ctx) (wish : Word) : State :=
  let s := (s0.captured.filter fun x => x.ctx == c.id).foldl unpackCanvas s0
  let bs := s.blocks.filter fun b => b.ctx == c.id
  let bytes := encCanvas s 3 c.id (recorded bs) (s.part c.part).ccmdExpo
  match canvasSpot s c.id bytes.length wish with
  | none => endCmd ((s0.blocks.filter fun b => b.ctx == c.id && b.state != .ended).foldl
      (fun s x => resumeBlock s x.bid) s0) c.part 3
  | some spot =>
    let s := toCaptured (putCanvas s c.id spot bytes) bs spot.1 true
    match s.ctx? c.id with
    | some c' => endCmd (s.setCtx { c' with state := .suspended, suspendCanvas := some spot.1 }) c.part 0
    | none => s

/-- The SUSPEND of a context is done once nothing of it runs; the host is asked for the address first where EASEL is its
duty. -/
def trySuspend (s : State) (c : Ctx) (answer : Option Word) : State :=
  if !suspending s c.id || !((s.blocks.filter fun b => b.ctx == c.id).all (stopped s)) then s
  else match answer with
    | some a => writeContext s c a
    | none =>
      if hostDuty s c.part 2 (ctxRef c.id) then
        if easelOpen s c.part (ctxRef c.id) then s
        else (postAssist s c.part 2 c.id (ctxRef c.id) []).1
      else writeContext s c 0

/-- CANVAS_WRITE_COMPLETE (16 R345). -/
def execCanvasWriteComplete (blk : Nat) (s : State) : Out :=
  match s.block? blk with
  | none => .next s
  | some b =>
    if suspending s b.ctx then
      match s.ctx? b.ctx with
      | some c => .next (trySuspend s c none)
      | none => .next s
    else
      let unit := unitOf s b
      if unit.all (stopped s) && unit.any fun x => x.state != .ended then .next (writeUnit s unit) else .next s

end Sys2Proof.Machine
end

