-- ==== Sys2Proof/Machine/Faults.lean ====
section
/-! DEFINITION. The service of translation faults (15 R323, R324) and translation shoot-downs (15 R319, R320). -/

namespace Sys2Proof.Machine

/-! ## What became of a request -/

/-- A fault was served: its asker goes on, and walks again. -/
def servedFault (s : State) (f : FaultReq) : State :=
  match f.asker with
  | .block _ => { s with faults := s.faults.map fun x => if x.id = f.id then { x with served := true } else x }
  | .remote => retryRemote { s with faults := s.faults.filter fun x => x.id != f.id }
  | _ => { s with faults := s.faults.filter fun x => x.id != f.id }

/-- The place of a fault for its record. -/
def faultPlace (s : State) (f : FaultReq) : Nat × Nat × Nat :=
  let blk := fun (bid : Nat) => match s.block? bid with
    | some b => (0xFFFF, b.grid.toNat, b.idx)
    | none => (0xFFFF, 0, 0)
  match f.asker with
  | .block bid => blk bid
  | .engine o => match s.ops.find? fun x => x.id == o with
    | some x => blk x.bid
    | none => (0xFFFF, 0, 0)
  | .packet pid => (((s.packets.find? fun p => p.pid == pid).map (·.q)).getD 0xFFFF, 0, 0)
  | .parse _ q => (q, 0, 0)
  | .notify _ q => (q, 0, 0)
  | .work n => blk n
  | .remote => (0xFFFF, 0, 0)

/-- The thread whose instruction met a fault, with its block. -/
def faultThread (s : State) (f : FaultReq) : Option (Block × Thread × Bool) :=
  f.who.bind fun c => (s.block? c.bid).bind fun b => (b.thread? c.acc c.tid).map fun t => (b, t, c.acc)

/-- UNMAPPED (13 R280, 15 R321): of a thread's instruction the program fault, or in a commission the commission fault
(15 R322, R330); of anything else a context fault with PC 0 in its record (log 20). -/
def unmappedFault (s : State) (f : FaultReq) : State :=
  let s : State := { s with faults := s.faults.filter fun x => x.id != f.id }
  match faultThread s f with
  | some (b, t, acc) => programFault s b t acc codeUnmapped f.pc f.va f.access f.size
  | none =>
    let (q, grid, blk) := faultPlace s f
    postRecord (contextFault s f.ctx) f.part
      (recordBytes s codeUnmapped f.ctx q grid blk 0 f.va.toNat [BitVec.ofNat 8 f.access, BitVec.ofNat 8 f.size])

/-- A fault that nothing can serve: a packet's check fails (14 R295), a fabric request is refused, an engine operation ends
with −2 and an MMA leaves ERROR (15 R321), and a completion value is not written (14 R292). Where the host refused, the
context of an engine operation or MMA faults (13 R280). -/
def refusedFault (s : State) (f : FaultReq) (byHost : Bool) : State :=
  let rest : State := { s with faults := s.faults.filter fun x => x.id != f.id }
  match f.asker, f.mma with
  | .parse _ _, _ => { s with faults := s.faults.map fun x => if x.id = f.id then { x with refused := true } else x }
  | .remote, _ =>
    let s := refuseRemote rest f.part f.ctx f.va
    if byHost then unmappedFault s f else s
  | .engine o, _ =>
    if byHost then unmappedFault s f
    else if (s.ops.find? fun x => x.id == o).any (·.isMatrix) then errorOp rest o
    else endOp rest o (BitVec.ofInt 64 (-2))
  | .packet pid, _ =>
    match s.packets.find? fun p => p.pid == pid && p.finished with
    | some p =>
      let s : State := { rest with packets := s.packets.filter fun x => x.pid != pid }
      if p.flags.getLsbD 1 then isrSet s p.part 2 else s
    | none => unmappedFault s f
  | .block _, some o => if byHost then unmappedFault s f else errorOp rest o
  | _, _ => unmappedFault s f

/-! ## Suppliers (15 R314, R324) -/

/-- A page from the pool with these bytes, then its leaf as one store (15 R324). Where the pool has none left nothing can serve
the fault (log 19). -/
def supplyPage (s : State) (f : FaultReq) (bs : List Byte) (leaf : Nat → Nat) : State :=
  match takePage s f.part with
  | none => refusedFault s f false
  | some (pa, s) => servedFault (writeEntry (fillPage s pa bs) f.ctx (f.va.toNat / 4096 * 4096) (leaf pa)) f

/-- A code page of a loaded object: SRC 1. none while the host's check is awaited. -/
def supplyCode (s : State) (f : FaultReq) : Option State :=
  let iid := f.entry.toNat / 2 ^ 4 % 2 ^ 32
  let idx := f.entry.toNat / 2 ^ 36 % 2 ^ 16
  match s.insts.find? fun i => i.iid == iid && i.part == f.part with
  | none => some (refusedFault s f false)
  | some i =>
    let leafTo := fun (s : State) (pa : Nat) => writeEntry s f.ctx (f.va.toNat / 4096 * 4096) (codeLeaf pa)
    let place := fun (s : State) (i : Inst) => match i.pages.find? fun pg => pg.1 == idx with
      | some pg => servedFault (leafTo s pg.2) f
      | none =>
        match takePage s f.part with
        | none => refusedFault s f false
        | some (pa, s) =>
          let s := (fillPage s pa (pageImage s i idx)).setInst { i with pages := i.pages ++ [(idx, pa)] }
          servedFault (leafTo s pa) f
    if s.poisoned.contains i.hash then some (servedFault s f)
    else if i.checked.contains idx then some (place s i)
    else if hostDuty s f.part 4 (pageRef i idx) then
      if askedHost s f.part 4 (pageRef i idx) then none
      else some (postAssist s f.part 4 f.ctx (pageRef i idx) (leBytes 8 f.va.toNat)).1
    else if pageHashOk s i idx then
      let i' : Inst := { i with checked := i.checked ++ [idx] }
      some (place (s.setInst i') i')
    else some (servedFault (poisonObject s i.hash) f)

/-- A page of a restored canvas: SRC 2 (16 R342). -/
def supplyCopy (s : State) (f : FaultReq) : State :=
  let a := f.entry.toNat / 2 ^ 5 % 2 ^ 47 * 2 ^ 5
  let tpl := cellsRead s.mem (a + 8) 8
  let image := cellsRead s.mem (a + 16) 8
  if !physOk s f.part a || (image != 0 && !physOk s f.part image) then refusedFault s f false
  else
    let bs := if image = 0 then [] else cellsBytes s.mem image 4096
    supplyPage s f bs fun pa => tpl / 2 ^ 52 * 2 ^ 52 + tpl % 2 ^ 12 + pa

/-- A zero page: SRC 3. The leaf is P, LEAF, R, W, X and ORD. -/
def supplyZero (s : State) (f : FaultReq) : State :=
  let e := f.entry.toNat
  supplyPage s f [] fun pa => 3 + e / 2 ^ 4 % 8 * 2 ^ 2 + e / 2 ^ 7 % 4 * 2 ^ 6 + pa

/-- What a walk of the faulting address meets now: none where the entry was made present, or changed otherwise, since the fault
(15 R318); the asker then walks again. -/
def stillMissing (s : State) (f : FaultReq) : Bool :=
  match locate s (ctxView f.part f.ctx) { r := false, w := false, x := false } f.va.toNat with
  | .bad { kind := .serviceable level entry, .. } => level == f.level && entry == f.entry
  | _ => false

/-- PAGE_FAULT_SERVICE (15 R324). -/
def execPageFaultService (req : Nat) (s : State) : Out :=
  match s.faults.find? fun f => f.id == req && !f.served && !f.refused with
  | none => .next s
  | some f =>
    if f.host then
      if f.posted then .next s
      else
        let args := leBytes 8 f.va.toNat ++ leBytes 1 f.access ++ leBytes 1 f.level ++ zeros 6 ++ leBytes 8 f.entry.toNat
        let s' := (postAssist s f.part 0 f.ctx f.id args).1
        .next { s' with faults := s'.faults.map fun x => if x.id = req then { x with posted := true } else x }
    else if !stillMissing s f then .next (servedFault s f)
    else match f.entry.toNat / 2 % 8 with
      | 1 => .next ((supplyCode s f).getD s)
      | 2 => .next (supplyCopy s f)
      | 3 => .next (supplyZero s f)
      | _ => .next (refusedFault s f false)

/-! ## Suspension and resumption (15 R323) -/

/-- The faults for which a block's suspension waits. -/
def unitFaults (s : State) (b : Block) : List FaultReq :=
  let ids := (faultUnit s b).map (·.bid)
  s.faults.filter fun f => match f.asker with
    | .block x => ids.contains x
    | _ => false

/-- Is the suspended block ready to resume? -/
def resumable (s : State) (b : Block) : Bool :=
  (match b.state with
    | .suspended _ _ => true
    | _ => false) && (unitFaults s b).all (·.served)

/-- FAULT_SERVICE_RESUME: where the reservation stands the block runs on, else its image returns to the dispatch order; a twin
returns with its pair, which is captured now (log 16). A capture that was asked for and found no room for the image begins
now. -/
def execFaultServiceResume (blk : Nat) (s : State) : Out :=
  match s.block? blk with
  | none => .next s
  | some b =>
    if !resumable s b then .next s
    else
      let unit := faultUnit s b
      let ids := (unitFaults s b).map (·.id)
      let s : State := { s with faults := s.faults.filter fun f => !ids.contains f.id }
      match b.state with
      | .suspended false (some a) => .next (if b.twin.isSome then beginCapture s b else toCaptured s unit a)
      | .suspended _ img =>
        let s := match img with
          | some a => if a = 0 then s else freeCanvas s b.ctx a
          | none => s
        let s := unit.foldl (fun s x => match x.state with
          | .suspended _ _ => resumeBlock s x.bid
          | _ => s) s
        .next (if unit.any (·.wanted) then ((s.block? blk).map (beginCapture s)).getD s else s)
      | _ => .next s

/-- Has the service of a suspended block lasted more than 50 µs? -/
def serviceLong (s : State) (b : Block) : Bool :=
  (unitFaults s b).any fun f => decide (f.raised + micros 50 < s.time)

/-- FAULT_RESERVATION_TIMEOUT: after 50 µs the reservation is released, if the image is written (16 R344). -/
def execFaultReservationTimeout (blk : Nat) (s : State) : Out :=
  match s.block? blk with
  | none => .next s
  | some b =>
    if (imageOf b).isSome && serviceLong s b then
      .next ((faultUnit s b).foldl (fun s x => s.onBlock x.bid fun y => match y.state with
        | .suspended _ i => { y with state := .suspended false i }
        | _ => y) s)
    else .next s

/-! ## Shoot-downs (15 R319, R320) -/

/-- Lies a context id in a partition's range (13 R277)? -/
def inPartition (s : State) (part ctx : Nat) : Bool :=
  decide ((s.part part).cfg.cfirst ≤ ctx) && decide (ctx < (s.part part).cfg.cfirst + (s.part part).cfg.ccount)

/-- SHOOTDOWN: a write of TINVC. -/
def execShootdown (part : Nat) (value : Word) (s : State) : Out :=
  let p := s.part part
  if !p.tinvDone || !barOpen s part then .next s
  else
    let v := value.toNat
    let p1 : Part := { p with tinvCtx := v % 2 ^ 12, tinvScope := v / 2 ^ 12 % 4, tinvSize := v / 2 ^ 14 % 4 }
    if !value.getLsbD 16 then .next (s.setPart part p1)
    else if p1.tinvScope = 3 ∨ !inPartition s part p1.tinvCtx then .next (s.setPart part { p1 with tinvRej := true })
    else .next (s.setPart part { p1 with tinvRej := false, tinvDone := false })

def drained (s : State) (part : Nat) : Bool :=
  let p := s.part part
  quietCtxs s fun ctx => inPartition s part ctx && (p.tinvScope == 2 || ctx == p.tinvCtx)

/-- SHOOTDOWN_COMPLETE (15 R320); the notify dwords of the partition are looked up anew. -/
def execShootdownComplete (part : Nat) (s : State) : Out :=
  let p := s.part part
  if !p.tinvDone && drained s part then
    let watches := (s.watch.filter fun w => w.part == part).map fun w => (w.part, w.q)
    .next { s.setPart part { p with tinvDone := true } with
      watch := s.watch.filter fun w => w.part != part, unarmed := s.unarmed ++ watches }
  else .next s

end Sys2Proof.Machine
end

