-- ==== Sys2Proof/Machine/Packets.lean ====
section
/-! DEFINITION. Packets: their parsing and checks up to the commit point (14 R290 to R297), their completion (14 R292), and
what each type does once it has started (14 R296, R298). -/

namespace Sys2Proof.Machine

/-- The PTP clock in ns. -/
def ptpNow (s : State) : Nat := s.ptpSec * 10 ^ 9 + s.ptpNs

def setQueue (s : State) (part q : Nat) (x : Queue) : State := s.setPart part ((s.part part).setQueue q x)

/-- Packets of a queue's ring. -/
def Queue.ring (q : Queue) : Nat := 2 ^ (q.size + 4)

/-! ## Completion (14 R292) -/

/-- May a completion value be written to an address? -/
def caddrOk (s : State) (part ctx : Nat) (a : Word) : Bool :=
  a != 0 && a.toNat % 8 == 0 && decide (a.toNat + 8 ≤ 2 ^ 56) && rangeOk s (ctxView part ctx) needW a.toNat 8

/-- The completion dword. -/
def writeCompletion (s : State) (part ctx : Nat) (a : Word) (pkid status : Nat) : State :=
  if caddrOk s part ctx a then (storeBytes s (ctxView part ctx) a.toNat (leBytes 8 (status + 2 ^ 32 * pkid))).1 else s

/-- The serviceable fault that a completion write would meet (14 R292, R295). -/
def caddrWait (s : State) (part ctx : Nat) (a : Word) : Option AccFault :=
  if a = 0 ∨ a.toNat % 8 ≠ 0 ∨ 2 ^ 56 < a.toNat + 8 then none else firstService s (ctxView part ctx) needW a.toNat 8

def setPacket (s : State) (p : Packet) : State :=
  { s with packets := s.packets.map fun x => if x.pid = p.pid then p else x }

/-! ## Handles of the control cores (19 R399) -/

/-- The handle of a queue's ring; those of INDIRECT buffers follow. -/
def ringCap (part q : Nat) : Nat := 64 * part + q

def capEntry (s : State) (h : Nat) : Option CapEntry := (s.caps.find? fun x => x.1 == h).map (·.2)

/-- The upper mode writes an entry: of a range of a context's addresses, under a new generation. -/
def openCap (s : State) (h base len : Nat) (need : Need) (owner : Nat) : State :=
  let gen := ((capEntry s h).map (·.gen)).getD 0 + 1
  { s with caps := (s.caps.filter fun x => x.1 != h) ++
      [(h, { base := base, len := len, r := need.r, w := need.w, x := need.x, owner := owner, gen := gen, valid := true })] }

/-- What some entries name is gone or changes: their generations rise. -/
def closeCaps (s : State) (f : Nat → CapEntry → Bool) : State :=
  { s with caps := s.caps.map fun x => if f x.1 x.2 then (x.1, { x.2 with gen := x.2.gen + 1, valid := false }) else x }

/-- The checks before an access of the lower mode through a handle and its generation: a valid entry, the offset and size within
it, the mask, and the owner. -/
def capOk (s : State) (h : Nat × Nat) (off size : Nat) (need : Need) (ctx : Nat) : Bool :=
  (capEntry s h.1).any fun e =>
    e.valid && e.gen == h.2 && decide (off + size ≤ e.len) && (e.r || !need.r) && (e.w || !need.w) && (e.x || !need.x)
    && e.owner == ctx

/-- The lowest free entry for a buffer, of the 4,096 there are. -/
def freeCap (s : State) : Option Nat :=
  ((List.range 3584).map (· + 512)).find? fun h => !(capEntry s h).any (·.valid)

/-- The handle of a queue's ring is opened, and the queue carries its generation. -/
def openRing (s : State) (part q : Nat) (x : Queue) : State × Queue :=
  let s := openCap s (ringCap part q) x.base.toNat (64 * x.ring) needR x.ctx
  (s, { x with gen := ((capEntry s (ringCap part q)).map (·.gen)).getD 0 })

/-! ## Completion -/

/-- A packet completes with a status; it waits for the service of a fault that its completion write meets. -/
def completePacket (s : State) (p : Packet) (status : Nat) : State :=
  match caddrWait s p.part p.ctx p.caddr with
  | some f =>
    askService (setPacket s { p with finished := true, status := status }) p.part p.ctx (.packet p.pid) 2 f
  | none =>
    let s := writeCompletion s p.part p.ctx p.caddr p.pkid.toNat status
    let s := if p.flags.getLsbD 1 then isrSet s p.part 2 else s
    closeCaps { s with packets := s.packets.filter fun x => x.pid != p.pid,
                       faults := s.faults.filter fun f => f.asker != .packet p.pid } fun h _ => p.cap.any fun c => c.1 == h

/-- A packet that has not started completes with a status. -/
def finishPacket (s : State) (p : Packet) (status : Nat) : State :=
  completePacket { s with packets := s.packets ++ [p] } p status

/-- Does anything that a packet started still go on (14 R293)? -/
def packetBusy (s : State) (pid : Nat) : Bool :=
  (s.launches.any fun l => l.pid == some pid) || (s.nodes.any fun n => n.pid == some pid)
  || (s.commissions.any fun c => c.pid == some pid) || s.packets.any fun p => p.parent == some pid

/-- Is a packet one that launches (14 R296)? -/
def Packet.launches (p : Packet) : Bool := p.typ == 1 || p.typ == 8

/-! ## Faults of a packet's own accesses (14 R295, R298) -/

/-- A fault met while a packet is executed: served, or a program fault of the context (14 R298). -/
def packetFault (s : State) (p : Packet) (cls : Nat) (f : AccFault) : State :=
  match f.kind with
  | .serviceable _ _ => askService s p.part p.ctx (.packet p.pid) cls f
  | .program code =>
    let s := contextFault (consume s (ctxView p.part p.ctx) f) p.ctx
    let s := postRecord s p.part (recordBytes s code p.ctx p.q 0 0 0 f.addr.toNat [BitVec.ofNat 8 cls])
    completePacket s p 3

/-! ## The checks of a packet (14 R295) -/

/-- The bytes of a packet about to be parsed, with what the queue is. -/
structure Slot where
  part : Nat
  q : Nat
  ctx : Nat
  addr : Nat
  inBuffer : Bool
  bytes : List Byte
deriving DecidableEq, Repr

/-- What a check finds. -/
inductive Check where
  | ok
  | wait (f : AccFault)
  /-- A capability fault of the field at an offset, with the data fault that it came of. -/
  | cap (value : Word) (off : Nat) (hit : Option AccFault := none)
  | invalid
deriving DecidableEq, Repr

def Check.and (a : Check) (b : Unit → Check) : Check := match a with
  | .ok => b ()
  | x => x

/-- The service that this queue's check asked for was refused. -/
def refusedAt (s : State) (part q : Nat) (va : Nat) : Bool :=
  s.faults.any fun f => f.asker == .parse part q && f.refused && f.va.toNat / 4096 == va / 4096

/-- A bounded capability: n bytes at va in global memory, each page with the permission. -/
def capRange (s : State) (sl : Slot) (need : Need) (va n : Nat) (value : Word) (off : Nat) : Check :=
  if n = 0 then .ok
  else if 2 ^ 56 < va + n then .cap value off
  else
    (List.range ((va + n - 1) / 4096 - va / 4096 + 1)).foldl (fun a i => a.and fun _ =>
      let x := max va ((va / 4096 + i) * 4096)
      match locate s (ctxView sl.part sl.ctx) need x with
      | .ok _ => .ok
      | .bad f => match f.kind with
        | .serviceable .. => if refusedAt s sl.part sl.q x then .cap value off else .wait f
        | .program _ => .cap value off) .ok

/-- Bytes that a check reads, once their range passed; poisoned ones fail it (17 R353). -/
def readChecked (s : State) (sl : Slot) (va n : Nat) (k : List Byte → Check) (value : Word) (off : Nat) : Check :=
  match peek s (ctxView sl.part sl.ctx) va n with
  | .inl bs => k bs
  | .inr f => .cap value off (some f)

/-- Step 2: the fields held in the packet. -/
def fieldsOk (s : State) (sl : Slot) : Bool :=
  let b := sl.bytes
  let z := zeroAt b
  let w := fun (o : Nat) => field b o 8
  let body := match byteAt b 0 with
    | 0 => z 16 48
    | 2 => w 16 % 64 == 0 && decide (1 ≤ field b 24 4) && decide (field b 24 4 ≤ 65536) && z 28 36
    | 3 => decide (w 32 ≤ 2 ^ 40) && z 40 24
    | 4 => w 16 % 8 == 0 && decide (byteAt b 32 ≤ 1) && z 33 31
    | 5 => w 16 % 8 == 0 && decide (byteAt b 32 ≤ 2) && z 33 3 && z 40 24
    | 6 => !sl.inBuffer && w 16 % 64 == 0 && decide (1 ≤ field b 24 4) && decide (field b 24 4 ≤ 4096) && z 28 36
    | 7 => w 16 % 16 == 0 && z 24 40
    | 9 => z 16 48
    | t =>
      (t == 1 || t == 8)
      && (t == 8 || w 56 == 0)
      && (if w 24 = 0 then
            w 32 % 8 == 0 && decide (1 ≤ field b 40 4) && decide (field b 44 2 < 4) && z 46 2 && w 48 % 64 == 0
            && match s.ctx? sl.ctx with
              | some c => (byteAt b 44 % 2 == 0 || c.coresident) && (byteAt b 44 / 2 % 2 == 0 || c.redundant)
              | none => false
          else z 16 8 && z 32 24)
  decide (byteAt b 0 ≤ 9) && decide (byteAt b 1 < 4) && z 2 2 && w 8 % 8 == 0 && body

/-- Step 3 for the addresses of a launch. -/
def launchRanges (s : State) (sl : Slot) : Check :=
  let b := sl.bytes
  let w := fun (o : Nat) => field b o 8
  let kpb : Check := if w 24 = 0 then capRange s sl needR (w 16) 128 (wordAt b 16) 16 else .ok
  kpb.and fun _ =>
  (if w 24 = 0 then Check.ok
   else (capRange s sl needR (w 24) 128 (wordAt b 24) 24).and fun _ =>
     readChecked s sl (w 24) 128 (fun h => capRange s sl needR (w 24) (field h 16 8) (wordAt b 24) 24) (wordAt b 24) 24).and fun _ =>
  (if w 32 = 0 then Check.ok
   else (capRange s sl needR (w 32) 8 (wordAt b 32) 32).and fun _ =>
     readChecked s sl (w 32) 8 (fun c =>
       if leNat c ≤ 31 then capRange s sl needR (w 32) (8 + 8 * leNat c) (wordAt b 32) 32 else .ok) (wordAt b 32) 32).and fun _ =>
  if w 48 = 0 then .ok
  else (capRange s sl needR (w 48) 64 (wordAt b 48) 48).and fun _ =>
    readChecked s sl (w 48) 64 (fun e =>
      let one := fun (o : Nat) => if field e o 8 = 0 then Check.ok else capRange s sl needR (field e o 8) 128 (wordAt e o) 48
      (one 0).and fun _ => one 8) (wordAt b 48) 48

/-- Step 3: every address field in ascending offset. -/
def rangesOk (s : State) (sl : Slot) : Check :=
  let b := sl.bytes
  let w := fun (o : Nat) => field b o 8
  (if w 8 = 0 then Check.ok else capRange s sl needW (w 8) 8 (wordAt b 8) 8).and fun _ =>
  match byteAt b 0 with
  | 1 => launchRanges s sl
  | 8 => launchRanges s sl
  | 2 => capRange s sl needR (w 16) (64 * field b 24 4) (wordAt b 16) 16
  | 3 => (capRange s sl needR (w 16) (w 32) (wordAt b 16) 16).and fun _ => capRange s sl needW (w 24) (w 32) (wordAt b 24) 24
  | 4 => capRange s sl (if byteAt b 32 = 0 then needW else needRW) (w 16) 8 (wordAt b 16) 16
  | 5 => capRange s sl needR (w 16) 8 (wordAt b 16) 16
  | 6 => capRange s sl needR (w 16) (64 * field b 24 4) (wordAt b 16) 16
  | 7 => capRange s sl needW (w 16) 16 (wordAt b 16) 16
  | _ => .ok

/-- The limits of a launch extension (14 R296). -/
def extOk (s : State) (sl : Slot) (e : List Byte) : Bool :=
  let kernel := fun (o : Nat) => field e o 8 == 0 || (kernelAt s sl.part sl.ctx (field e o 8)).isSome
  kernel 0 && kernel 8 && (field e 16 8 == 0 || field e 24 4 != 0) && zeroAt e 28 4 && zeroAt e 48 16

/-- Step 4: the memory that the packet names. -/
def contentsOk (s : State) (sl : Slot) : Check :=
  let b := sl.bytes
  let w := fun (o : Nat) => field b o 8
  let need := fun (c : Bool) => if c then Check.ok else Check.invalid
  let launch : Check :=
    if w 24 ≠ 0 then
      match canvasAt s (ctxView sl.part sl.ctx) (w 24) with
      | .inr f => .cap (wordAt b 24) 24 (some f)
      | .inl bs => need (restoreErr s sl.part sl.ctx bs != some 8)
    else
      (match kernelAt s sl.part sl.ctx (w 16) with
        | none => Check.invalid
        | some k => need (decide (1 ≤ k.cluster) && field b 40 4 % k.cluster == 0)).and fun _ =>
      (readChecked s sl (w 16) 128 (fun _ => .ok) (wordAt b 16) 16).and fun _ =>
      (if w 32 = 0 then Check.ok
       else readChecked s sl (w 32) 8 (fun c => (need (decide (leNat c ≤ 31))).and fun _ =>
         readChecked s sl (w 32) (8 + 8 * leNat c) (fun _ => .ok) (wordAt b 32) 32) (wordAt b 32) 32).and fun _ =>
      if w 48 = 0 then .ok
      else readChecked s sl (w 48) 64 (fun e =>
        let one := fun (o : Nat) => if field e o 8 = 0 then Check.ok
          else readChecked s sl (field e o 8) 128 (fun _ => .ok) (wordAt e o) 48
        (one 0).and fun _ => (one 8).and fun _ => need (extOk s sl e)) (wordAt b 48) 48
  match byteAt b 0 with
  | 1 => launch
  | 8 => launch
  | 2 => readChecked s sl (w 16) (64 * field b 24 4)
      (fun ds => need ((records 64 (field b 24 4) ds).all (nodeOk s sl.part sl.ctx))) (wordAt b 16) 16
  | _ => .ok

/-- Steps 2 to 4. -/
def checkSlot (s : State) (sl : Slot) : Check :=
  if !fieldsOk s sl then .invalid else (rangesOk s sl).and fun _ => contentsOk s sl

/-! ## Parsing (14 R290, R293, R294) -/

/-- The INDIRECT packet whose buffer a queue is parsing. -/
def openBuffer (s : State) (part q : Nat) : Option Packet :=
  s.packets.find? fun p => p.part == part && p.q == q && p.typ == 6 && p.progress == 1 && !p.finished
    && decide (p.next < (p.body.getD 1 0).toNat % 2 ^ 32)

/-- Where the next packet of a queue lies; none when nothing is ready. -/
def nextSlot (s : State) (part q : Nat) : Option (Nat × Option Packet) :=
  let x := (s.part part).queue q
  match openBuffer s part q with
  | some p => some ((p.body.getD 0 0).toNat + 64 * p.next, some p)
  | none => if x.head = x.tail then none else some (x.base.toNat + 64 * x.head, none)

/-- Did a forward step of the clock put a deadline behind it (18 R385)? -/
def passedBy (steps : List (Nat × Nat)) (deadline : Nat) : Bool :=
  steps.any fun x => decide (x.1 ≤ deadline) && decide (deadline < x.2)

/-- The queue moves past the packet at its head, or in its open buffer. -/
def passSlot (s : State) (part q : Nat) : State :=
  match openBuffer s part q with
  | some p => setPacket s { p with next := p.next + 1 }
  | none =>
    let x := (s.part part).queue q
    let h := (x.head + 1) % x.ring
    setQueue s part q { x with head := h, marks := x.marks.dropWhile fun m => m.tail % x.ring == h }

/-- The queue stops. -/
def stopQueue (s : State) (part q err : Nat) : State :=
  let s : State := { s with faults := s.faults.filter fun f => f.asker != .parse part q }
  setQueue s part q { (s.part part).queue q with state := .stopped, err := err }

/-- A packet as its 64 bytes give it, with nothing read of the memory it names. -/
def packetOf (s : State) (sl : Slot) (parent : Option Packet) : Packet :=
  let b := sl.bytes
  let x := (s.part sl.part).queue sl.q
  let arrival := ((parent.map (·.arrival)).orElse fun _ => (x.marks.head?).map (·.time)).getD (ptpNow s)
  let steps := ((parent.map (·.steps)).orElse fun _ => (x.marks.head?).map (·.steps)).getD []
  let deadline := (wordAt b 56).toNat
  { pid := s.nextId, part := sl.part, q := sl.q, ctx := sl.ctx, typ := byteAt b 0, flags := BitVec.ofNat 8 (byteAt b 1),
    pkid := BitVec.ofNat 32 (field b 4 4), caddr := wordAt b 8, body := (List.range 6).map fun i => wordAt b (16 + 8 * i),
    args := [], ext := [], started := false, status := 0, finished := false, parent := parent.map (·.pid), next := 0,
    arrival := arrival, steps := steps,
    late := byteAt b 0 == 8 && (decide (deadline < arrival) || passedBy steps deadline), startedAt := s.time, progress := 0 }

/-- The packet of a slot completes though it is not to be executed; quiet: it gives no interrupt, since it may be parsed
again. -/
def finishSlot (s : State) (sl : Slot) (status : Nat) (quiet : Bool) : State :=
  let p := packetOf s sl none
  finishPacket { s with nextId := s.nextId + 1 } (if quiet then { p with flags := 0 } else p) status

/-- A capability fault (14 R295). -/
def capFault (s : State) (sl : Slot) (value : Word) (off : Nat) : State :=
  let s := if off = 0xFF then s else finishSlot s sl 4 true
  let s := stick (stopQueue s sl.part sl.q 2) sl.ctx stickCapf
  postRecord s sl.part (recordBytes s 10 sl.ctx sl.q 0 0 0 value.toNat [BitVec.ofNat 8 off])

/-- Earlier packets of a packet's queue that have not completed; the INDIRECT it belongs to is none of them. -/
def earlierOpen (s : State) (p : Packet) : Bool :=
  s.packets.any fun x => x.part == p.part && x.q == p.q && decide (x.pid < p.pid) && p.parent != some x.pid

/-- Has a launch packet blocks that still wait for their first placement (14 R293)? -/
def packetUnplaced (s : State) (p : Packet) : Bool :=
  p.progress == 0
  || (s.launches.any fun l => l.pid == some p.pid && !l.kpbs.isEmpty && decide (l.next < l.nblk))
  || s.captured.any fun c => c.fromPacket && c.blocks.any fun x =>
    s.launches.any fun l => l.lid == x.launch && l.pid == some p.pid

/-- Does a launch packet of the queue still wait for its last block? -/
def launchOpen (s : State) (part q : Nat) : Bool :=
  s.packets.any fun p => p.part == part && p.q == q && p.launches && !p.finished && packetUnplaced s p

/-- Must the next packet of a queue wait before its commit point: for a launch being placed, for a WAIT's condition, or, where
it has BAR, for every earlier packet (14 R291, R293, R298)? -/
def commitWaits (s : State) (part q : Nat) : Bool :=
  launchOpen s part q
  || (s.packets.any fun p => p.part == part && p.q == q && p.typ == 5 && !p.finished)
  || match nextSlot s part q with
    | none => false
    | some (a, parent) => match peek s (ctxView part ((s.part part).queue q).ctx) a 2 with
      | .inl bs => byteAt bs 1 % 2 == 1
        && s.packets.any fun p => p.part == part && p.q == q && parent.all fun x => x.pid != p.pid
      | .inr _ => false

/-- May a queue parse: enabled and mapped, its context active, nothing of it waiting to start (14 R289, R293)? -/
def mayParse (s : State) (part q : Nat) : Bool :=
  let x := (s.part part).queue q
  (s.part part).state == .active && x.en && x.state == .mapped && x.ready.isNone
  && ctxRuns s x.ctx
  && (nextSlot s part q).isSome
  && !(s.packets.any fun p => p.part == part && p.q == q && p.typ == 6 && p.progress == 0 && !p.finished)
  && !(s.faults.any fun f => f.asker == .parse part q && !f.refused)
  && !commitWaits s part q

/-- A packet at its commit point. -/
def commitPacket (s : State) (sl : Slot) (parent : Option Packet) : State :=
  let b := sl.bytes
  let v := ctxView sl.part sl.ctx
  let bytesAt := fun (a n : Nat) => match peek s v a n with
    | .inl bs => bs
    | .inr _ => []
  let launch := byteAt b 0 == 1 || byteAt b 0 == 8
  let args := if launch && field b 32 8 != 0 then
      let c := leNat (bytesAt (field b 32 8) 8)
      (records 8 c (bytesAt (field b 32 8 + 8) (8 * c))).map fun r => wordAt r 0
    else []
  let ext := if launch && field b 48 8 != 0 then bytesAt (field b 48 8) 64
    else if byteAt b 0 = 2 then bytesAt (field b 16 8) (64 * field b 24 4) else []
  let buffer := if byteAt b 0 = 6 then freeCap s else none
  let s := match buffer with
    | some h => openCap s h (field b 16 8) (64 * field b 24 4) needR sl.ctx
    | none => s
  let p : Packet := { packetOf s sl parent with
    args := args, ext := ext, cap := buffer.bind fun h => (capEntry s h).map fun e => (h, e.gen) }
  let s : State := { s with
    nextId := s.nextId + 1, faults := s.faults.filter fun f => f.asker != .parse sl.part sl.q }
  let s := passSlot s sl.part sl.q
  setQueue s sl.part sl.q { (s.part sl.part).queue sl.q with ready := some p }

/-- The handle through which the next slot of a queue is read, with its generation, and the slot's offset in it (19 R399): that of
the ring, or of the INDIRECT's buffer. -/
def slotCap (s : State) (part q : Nat) (parent : Option Packet) : Option (Nat × Nat) × Nat :=
  let x := (s.part part).queue q
  match parent with
  | some p => (p.cap, 64 * p.next)
  | none => (some (ringCap part q, x.gen), 64 * x.head)

/-- A check that consumed a marked error. -/
def consumeHit (s : State) (part ctx : Nat) (hit : Option AccFault) : State := match hit with
  | some f => consume s (ctxView part ctx) f
  | none => s

/-- PACKET_PARSE (14 R294, R295). -/
def execPacketParse (part q : Nat) (s : State) : Out :=
  if !mayParse s part q then .next s
  else
    let x := (s.part part).queue q
    match nextSlot s part q with
    | none => .next s
    | some (a, parent) =>
      let sl : Slot := { part := part, q := q, ctx := x.ctx, addr := a, inBuffer := parent.isSome, bytes := [] }
      let aw := BitVec.ofNat 64 a
      let wait := fun (f : AccFault) => askService s part x.ctx (.parse part q) 1 f
      let fail := fun (value : Word) (off : Nat) (hit : Option AccFault) =>
        capFault (consumeHit s part x.ctx hit) sl value off
      let (h, off) := slotCap s part q parent
      if !h.any fun h => capOk s h off 64 needR x.ctx then .next (fail aw 0xFF none)
      else match capRange s sl needR a 64 aw 0xFF with
      | .wait f => .next (wait f)
      | .cap _ _ _ => .next (fail aw 0xFF none)
      | .invalid => .next s
      | .ok =>
        match peek s (ctxView part x.ctx) a 64 with
        | .inr f => .next (fail aw 0xFF (some f))
        | .inl bs =>
          let sl : Slot := { sl with bytes := bs }
          match checkSlot s sl with
          | .ok => .next (commitPacket s sl parent)
          | .wait f => .next (wait f)
          | .cap v off hit => .next (capFault (consumeHit s part x.ctx hit) sl v off)
          | .invalid => .next (stopQueue s part q 3)

/-! ## Started packets -/

/-- The started packet of a type in a queue whose turn it is to act: the oldest. -/
def actor (s : State) (part q typ : Nat) : Option Packet :=
  s.packets.find? fun p => p.part == part && p.q == q && p.typ == typ && p.started && !p.finished
    && !(s.faults.any fun f => f.asker == .packet p.pid)

def word (p : Packet) (i : Nat) : Word := p.body.getD i 0

/-- NOP_PACKET. -/
def execNopPacket (part q : Nat) (s : State) : Out :=
  match actor s part q 0 with
  | some p => .next (completePacket s p 0)
  | none => .next s

/-! ## LAUNCH and DEADLINE (14 R296, R301) -/

/-- A grid identifier no launch of the context holds (14 R301, 02 R44). -/
def takeGrid (s : State) (ctx : Nat) : BitVec 32 × State :=
  match s.ctx? ctx with
  | none => (0, s)
  | some c =>
    let n := (List.range (s.launches.length + 1)).find? fun i =>
      !(s.launches.any fun l => l.ctx == ctx && l.nblk != 0 && l.grid.toNat == (c.nextGrid + i) % 2 ^ 32)
    let g := (c.nextGrid + n.getD 0) % 2 ^ 32
    (BitVec.ofNat 32 g, s.setCtx { c with nextGrid := (g + 1) % 2 ^ 32 })

/-- A gesso launch is handed to the dispatcher. -/
def beginGesso (s : State) (p : Packet) (dl : Option Word) : State :=
  let x := (s.part p.part).queue p.q
  let (g, s) := takeGrid s p.ctx
  let w2 := leBytes 8 (word p 3).toNat
  let e := fun (i : Nat) => if p.ext.isEmpty then 0 else wordAt p.ext (8 * i)
  let l := { blankLaunch s p.part p.ctx (some p.pid) g x.cls x.weight with
    kpbs := [word p 0, e 0, e 1], args := p.args, nblk := field w2 0 4, coresident := byteAt w2 4 % 2 == 1,
    redundant := byteAt w2 4 / 2 % 2 == 1, deadline := dl, distT := (e 2).toNat, distG := (e 3).toNat % 2 ^ 32,
    fixBase := e 4, fixSize := e 5 }
  setPacket (addLaunch s l) { p with progress := 1 }

/-- Descriptors of the commissions in a canvas's graph section. -/
def graphCommissions (bs : List Byte) : List Word :=
  let o := field bs 56 8
  if byteAt bs 7 ≠ 3 ∨ o = 0 then []
  else
    let credAt := o + 64 + 128 * field bs o 4
    (records 64 (field bs (o + 8) 4) (bs.drop (credAt + up64 (16 * field bs (o + 4) 4)))).map fun r => wordAt r 16

/-- The launches of a restored canvas: one for each recorded grid, under its identifier where no launch of the context holds
it (16 R335), and the canvas among those to be restored. -/
def beginRestore (s : State) (p : Packet) (dl : Option Word) (bs : List Byte) : State :=
  let x := (s.part p.part).queue p.q
  let fl := field bs 28 4
  let recs := canvasRecords bs
  let grids := (recs.map fun r => field r 88 4).eraseDups
  let base := blankLaunch s p.part p.ctx (some p.pid) 0 x.cls x.weight
  let kpbs := (graphCommissions bs).map (tableKpb s p.part p.ctx)
  let ims := (canvasImages s p.part p.ctx bs).getD []
  let (s, made) := grids.foldl (fun (a : State × List (Nat × Nat)) g =>
    let s := a.1
    let clash := s.launches.any fun l => l.ctx == p.ctx && l.nblk != 0 && l.grid.toNat == g
    let (grid, s) := if clash then takeGrid s p.ctx else (BitVec.ofNat 32 g, s)
    let n := ((recs.find? fun r => field r 88 4 == g).map fun r => field r 92 4).getD 1
    let k := ims.find? fun im => im.block.grid.toNat == g
    let l := { base with
      lid := s.nextId, grid := grid, nblk := n, next := n, coresident := coGrid bs ims g, redundant := fl / 2 % 2 == 1,
      deadline := dl, canvas := word p 1, bars := (k.map fun im => gridBarsOf im.block.kernel n).getD [] }
    (addLaunch s l, a.2 ++ [(g, l.lid)])) (s, [])
  let lidOf := fun (r : List Byte) => ((made.find? fun m => m.1 == field r 88 4).map (·.2)).getD 0
  let caps := recs.mapIdx fun i r =>
    { idx := i, launch := lidOf r, node := none, commission := none, held := [], grants := [], fresh := false : CapBlock }
  let c : Captured :=
    { id := s.nextId, part := p.part, ctx := p.ctx, addr := word p 1, blocks := caps, fromPacket := true, sections := true,
      graph := some (p.pid, kpbs) }
  let s := if caps.isEmpty then writeSections s c bs
    else { s with nextId := s.nextId + 1, captured := s.captured ++ [c] }
  setPacket s { p with progress := 1 }

/-- A launch packet begins. -/
def beginLaunch (s : State) (p : Packet) (dl : Option Word) : State :=
  if p.progress ≠ 0 then s
  else if word p 1 = 0 then beginGesso s p dl
  else match canvasLoad s (ctxView p.part p.ctx) (word p 1).toNat with
    | .inr f => match f.kind with
      | .serviceable .. => askService s p.part p.ctx (.packet p.pid) 1 f
      | .program _ => completePacket s p 8
    | .inl (bs, s) => match restoreErr s p.part p.ctx bs with
      | some 2 => completePacket (stick s p.ctx stickOvercap) p 2
      | some st => completePacket s p st
      | none =>
        match (graphCommissions bs).findSome? fun d => firstService s (ctxView p.part p.ctx) needR (tableEntry s p.ctx d) 8 with
        | some f => askService s p.part p.ctx (.packet p.pid) 1 f
        | none => beginRestore s p dl bs

/-- A launch packet that has not begun yet. -/
def idleLaunch (s : State) (part q typ : Nat) : Option Packet :=
  s.packets.find? fun p => p.part == part && p.q == q && p.typ == typ && p.started && p.progress == 0 && !p.finished
    && !(s.faults.any fun f => f.asker == .packet p.pid)

/-- LAUNCH_PACKET. -/
def execLaunchPacket (part q : Nat) (s : State) : Out :=
  match idleLaunch s part q 1 with
  | some p => .next (beginLaunch s p none)
  | none => .next s

/-- DEADLINE_PACKET. -/
def execDeadlinePacket (part q : Nat) (s : State) : Out :=
  match idleLaunch s part q 8 with
  | some p => .next (beginLaunch s p (some (word p 5)))
  | none => .next s

/-! ## The other types (14 R298) -/

/-- GRAPH_PACKET: nodes are accepted in order as far as LCAP lets them (13 R281, 14 R306). -/
def execGraphPacket (part q : Nat) (s : State) : Out :=
  match s.packets.find? fun p => p.part == part && p.q == q && p.typ == 2 && p.started && !p.finished
      && decide (64 * p.progress < p.ext.length) && ctxRuns s p.ctx with
  | none => .next s
  | some p =>
    let x := (s.part part).queue q
    let s := if p.progress = 0 then addLaunch s (blankLaunch s part p.ctx (some p.pid) 0 x.cls x.weight) else s
    let lid := ((s.launches.find? fun l => l.pid == some p.pid && l.nblk == 0).map (·.lid)).getD 0
    let cap := ((s.ctx? p.ctx).map (·.lcap)).getD 0
    let n := p.ext.length / 64
    let r := (List.range n).foldl (fun (a : State × Nat) i =>
      if i < a.2 ∨ i ≠ a.2 ∨ cap ≤ poolUsed a.1 p.ctx then a
      else (acceptNode a.1 part p.ctx ((word p 0).toNat + 64 * i) (sub p.ext (64 * i) 64) lid (some p.pid), a.2 + 1))
      (s, p.progress)
    .next (setPacket r.1 { p with progress := r.2 })

/-- A COPY packet's bursts from its progress on; fuel bounds them. -/
def copyBursts (v : View) (src dst len : Nat) : Nat → Nat → State → State × Nat × Option AccFault
  | 0, pr, s => (s, pr, none)
  | k + 1, pr, s =>
    if len ≤ pr then (s, len, none)
    else
      let (o, c) := copyBurst src dst len pr
      match burst s v (src + o) (dst + o) c with
      | (s', some f) => match f.kind with
        | .serviceable .. => (s, pr, some f)
        | .program _ => (s', pr, some f)
      | (s', none) => copyBursts v src dst len k (pr + c) s'

/-- COPY_PACKET. -/
def execCopyPacket (part q : Nat) (s : State) : Out :=
  match actor s part q 3 with
  | none => .next s
  | some p =>
    let len := (word p 2).toNat
    match copyBursts (ctxView part p.ctx) (word p 0).toNat (word p 1).toNat len (len / burstBytes + 2) p.progress s with
    | (s', _, none) => .next (completePacket s' p 0)
    | (s', pr, some f) =>
      let p' := { p with progress := pr }
      .next (packetFault (setPacket s' p') p' 4 f)

/-- SIGNAL_PACKET. -/
def execSignalPacket (part q : Nat) (s : State) : Out :=
  match actor s part q 4 with
  | none => .next s
  | some p =>
    let v := ctxView part p.ctx
    let a := (word p 0).toNat
    let x := (word p 1).toNat
    if (word p 2).toNat % 256 = 0 then
      match storeAt s v a 8 x with
      | .inl s' => .next (completePacket s' p 0)
      | .inr f => .next (packetFault s p 2 f)
    else match atomicAt s v a 8 (fun old => some ((old + x) % 2 ^ 64)) with
      | .inl (_, s') => .next (completePacket s' p 0)
      | .inr f => .next (packetFault s p 3 f)

/-- Does a WAIT packet's dword meet its condition? -/
def waitMet (p : Packet) (x : Nat) : Bool :=
  match (word p 2).toNat % 256 with
  | 0 => x == (word p 1).toNat
  | 1 => x != (word p 1).toNat
  | _ => decide ((word p 1).toNat ≤ x)

/-- WAIT_PACKET: a read that meets the condition completes the packet. -/
def execWaitPacket (part q : Nat) (s : State) : Out :=
  match actor s part q 5 with
  | none => .next s
  | some p =>
    match loadAt s (ctxView part p.ctx) (word p 0).toNat 8 with
    | .inr f => .next (packetFault s p 1 f)
    | .inl (x, s') => if waitMet p x then .next (completePacket s' p 0) else .next s'

/-- The timeout of a WAIT packet in µs, 0 for none. -/
def waitLimit (p : Packet) : Nat := (word p 2).toNat / 2 ^ 32

/-- WAIT_PACKET_TIMEOUT. -/
def execWaitPacketTimeout (part q : Nat) (s : State) : Out :=
  match actor s part q 5 with
  | none => .next s
  | some p =>
    if waitLimit p ≠ 0 ∧ p.startedAt + micros (waitLimit p) ≤ s.time then .next (completePacket s p 6) else .next s

/-- INDIRECT_PACKET: from here on the queue parses the buffer. -/
def execIndirectPacket (part q : Nat) (s : State) : Out :=
  match s.packets.find? fun p => p.part == part && p.q == q && p.typ == 6 && p.started && p.progress == 0 && !p.finished with
  | some p => .next (setPacket s { p with progress := 1 })
  | none => .next s

/-- STAMP_PACKET. -/
def execStampPacket (part q : Nat) (s : State) : Out :=
  match actor s part q 7 with
  | none => .next s
  | some p =>
    let bs := leBytes 6 s.ptpSec ++ leBytes 4 s.ptpNs ++ zeros 6
    match storeWhole s (ctxView part p.ctx) (word p 0).toNat bs with
    | .inl s' => .next (completePacket s' p 0)
    | .inr f => .next (packetFault s p 2 f)

/-- FENCE_PACKET. -/
def execFencePacket (part q : Nat) (s : State) : Out :=
  match s.packets.find? fun p => p.part == part && p.q == q && p.typ == 9 && p.started && !p.finished && !earlierOpen s p with
  | some p => .next (completePacket s p 0)
  | none => .next s

/-- A packet whose work is over: a launch, a GRAPH or an INDIRECT (14 R293, R298). -/
def packetOver (s : State) (p : Packet) : Bool :=
  p.started && !p.finished && !packetBusy s p.pid && match p.typ with
    | 2 => decide (p.ext.length ≤ 64 * p.progress)
    | 6 => p.progress == 1 && decide ((word p 1).toNat % 2 ^ 32 ≤ p.next)
        && !(((s.part p.part).queue p.q).ready.any fun r => r.parent == some p.pid)
    | t => (t == 1 || t == 8) && p.progress == 1

/-- Is a packet of a queue in progress? -/
def queueBusy (s : State) (part q : Nat) : Bool :=
  (s.packets.any fun p => p.part == part && p.q == q) || ((s.part part).queue q).ready.isSome

/-- A queue whose EN was cleared is DISABLED once its packets in progress are over (14 R288). -/
def endClosing (s : State) (x : Nat × Nat) : State :=
  if queueBusy s x.1 x.2 then s
  else { setQueue s x.1 x.2 { (s.part x.1).queue x.2 with state := .disabled } with closing := s.closing.filter (· != x) }

/-- Launches and packets that are over are completed, and those of a context that faulted end FAULTED (14 R292, R293). -/
def settlePackets (s : State) : State :=
  let s := s.launches.foldl (fun s l => if launchOver s l then
    (if l.nblk = 0 ∧ (s.packets.any fun p => l.pid == some p.pid && p.typ == 2 && decide (64 * p.progress < p.ext.length)) then s
     else reapLaunch s l) else s) s
  let gone := fun (p : Packet) => p.started && !p.finished
    && !(p.launches && p.progress == 1) && !(p.typ == 2 && decide (p.ext.length ≤ 64 * p.progress))
    && ((s.ctx? p.ctx).any fun c => c.state == .faulted)
  let s := (s.packets.filter gone).foldl (fun s p => completePacket s p (max p.status 3)) s
  let late := fun (s : State) (p : Packet) => p.finished && !s.faults.any fun f => f.asker == .packet p.pid
  let s := (s.packets.filter fun p => packetOver s p || late s p).foldl (fun s p =>
    match s.packets.find? fun x => x.pid == p.pid with
    | some p => completePacket s p p.status
    | none => s) s
  s.closing.foldl endClosing s

end Sys2Proof.Machine
end

