-- ==== Sys2Proof/Machine/Dispatcher.lean ====
section
/-! DEFINITION. The dispatcher: queue states and controls (14 R288, R289), the order of work (14 R299), pre-emption (14 R309),
nodes (14 R304 to R306) and commissions (14 R308, 15 R330). -/

namespace Sys2Proof.Machine

/-! ## Queue states (14 R288 to R290) -/

/-- A notify write raises the mapping of a queue, in the mode of that moment (13 R279). -/
def noted (s : State) (part : Nat) (x : Queue) : Queue :=
  { x with notified := true, byHost := if x.notified then x.byHost else hostAssisted s part 1 }

/-- A notify write with a tail, seen by the device. -/
def noteTail (s : State) (part q tail : Nat) : State :=
  let x := (s.part part).queue q
  let t := tail % x.ring
  let x' : Queue := { noted s part x with
    tail := t, lastNotify := s.cycle,
    marks := if t = x.tail then x.marks else x.marks ++ [{ tail := t, time := ptpNow s }] }
  { setQueue s part q x' with snooped := s.snooped.filter (· != (part, q)) }

/-- The notify dword of an enabled queue as memory has it. -/
def notifyDword (s : State) (part q : Nat) : Option Word :=
  let x := (s.part part).queue q
  match peek s (ctxView part x.ctx) x.naddr.toNat 8 with
  | .inl bs => some (wordAt bs 0)
  | .inr _ => none

/-- NOTIFY_WRITE (14 R290): the dword is written, and the device sees its tail. Where a write that the filter saw is being read,
memory holds the value already. -/
def execNotifyWrite (part q : Nat) (value : Word) (s : State) : Out :=
  let x := (s.part part).queue q
  if !x.en then .next s
  else
    let s := if s.snooped.contains (part, q) && notifyDword s part q == some value then s
      else (storeBytes s (ctxView part x.ctx) x.naddr.toNat (leBytes 8 value.toNat)).1
    .next (noteTail s part q (value.toNat % 65536))

/-- An enabled queue's notify dword is looked up, and watched from then on, while its context is suspended too; a fault met in
that is served once the context runs (14 R289, R290). -/
def armQueue (s : State) (x : Nat × Nat) : State :=
  let q := (s.part x.1).queue x.2
  if s.faults.any fun f => f.asker == .notify x.1 x.2 then s
  else match locate s (ctxView x.1 q.ctx) needR q.naddr.toNat with
    | .ok { place := .phys pa, .. } =>
      { s with unarmed := s.unarmed.filter (· != x), watch := s.watch ++ [{ part := x.1, q := x.2, pa := pa }] }
    | .ok _ => s
    | .bad f => if ctxRuns s q.ctx then askService s x.1 q.ctx (.notify x.1 x.2) 1 f else s

/-- Mapped queues of a partition, by number. -/
def mappedQueues (s : State) (part : Nat) : List (Nat × Queue) :=
  ((s.part part).queues.toList.mapIdx fun i x => (i, x)).filter fun p => p.2.state == .mapped

/-- A slot is freed: the mapped queue notified least recently, no DEADLINE queue and none with a packet in progress, is
unmapped (14 R289). One with packets to parse stays notified (log 21). -/
def freeMapSlot (s : State) (part : Nat) : Option State :=
  if (mappedQueues s part).length < 32 then some s
  else
    let cands := (mappedQueues s part).filter fun p => p.2.cls != 0 && !queueBusy s part p.1 && ctxRuns s p.2.ctx
    match cands.foldl (fun (a : Option (Nat × Queue)) p => match a with
      | none => some p
      | some b => if p.2.lastNotify < b.2.lastNotify then some p else some b) none with
    | none => none
    | some (q, x) =>
      let x : Queue := { x with state := .unmapped, notified := false }
      some (setQueue s part q (if x.head = x.tail then x else noted s part x))

/-- The queue is mapped, where a slot is free. -/
def mapQueue (s : State) (part q : Nat) : State :=
  match freeMapSlot s part with
  | none => s
  | some s => setQueue s part q { (s.part part).queue q with state := .mapped, byHost := false }

/-- The reference of a queue in an assist request. -/
def queueRef (part q : Nat) : Nat := 64 * part + q

/-- QUEUE_MAP (14 R289): by the device, or once the host has answered. -/
def execQueueMap (part q : Nat) (s : State) : Out :=
  let x := (s.part part).queue q
  if x.state ≠ .unmapped ∨ !x.notified ∨ !ctxRuns s x.ctx then .next s
  else if x.byHost then
    if askedHost s part 1 (queueRef part q) then .next s
    else .next (postAssist s part 1 x.ctx (queueRef part q) (leBytes 2 q)).1
  else .next (mapQueue s part q)

/-- The fields of QCTL that a write changes: WEIGHT at once, the others only while EN is 0. -/
def writeQctl (s : State) (part : Nat) (x : Queue) (v : Nat) : Queue :=
  let x : Queue := { x with weight := v / 2 ^ 5 % 2 ^ 8 }
  if x.en then x
  else
    let cls := v / 2 ^ 3 % 4
    let size := v / 2 ^ 13 % 16
    let ctx := v / 2 ^ 17 % 2 ^ 12
    { x with
      cls := if cls = 3 then x.cls else cls, size := if 12 < size then x.size else size,
      ctx := if inPartition s part ctx then ctx else x.ctx }

/-- Is a queue number one of the partition's (14 R288)? -/
def queueThere (s : State) (part q : Nat) : Bool := decide (q < (s.part part).cfg.nq)

/-- QUEUE_ENABLE: a write of QCTL with EN 1. It waits for nothing but a clearing of EN that is still under way (14 R288); a queue
of a context that is FREE or FAULTED stops at once (14 R289). -/
def execQueueEnable (part q : Nat) (value : Word) (s : State) : Out :=
  if !queueThere s part q || !barOpen s part then .next s
  else
    let x := (s.part part).queue q
    let x1 := writeQctl s part x value.toNat
    if x.en then .next (setQueue s part q x1)
    else if s.closing.contains (part, q) then .next (setQueue s part q { x with weight := x1.weight })
    else
      let dl := ((s.part part).queues.toList.filter fun y => y.en && y.cls == 0).length
      if x1.cls = 0 ∧ 16 ≤ dl then .next (setQueue s part q { x1 with err := 1 })
      else
        let dead := (s.ctx? x1.ctx).all fun c => c.state == .faulted
        let x2 : Queue := { x1 with
          en := true, err := if dead then 4 else 0, head := 0, tail := 0, notified := x1.cls == 0, byHost := false, marks := [],
          spent := 0,
          state := if dead then .stopped else .unmapped }
        let (s, x2) := openRing s part q x2
        let s : State := { setQueue s part q x2 with unarmed := s.unarmed ++ [(part, q)] }
        .next (if x1.cls = 0 ∧ !dead then mapQueue s part q else s)

/-- The unparsed packets that a queue discards end with ABORTED where their completion address lets them (14 R292), those of an
INDIRECT's buffer too, whether or not it has begun; one whose slot cannot be read leaves no value (log 80). -/
def abortReady (s : State) (part q : Nat) : State :=
  let x := (s.part part).queue q
  let one := fun (s : State) (a : Nat) => match peek s (ctxView part x.ctx) a 64 with
    | .inl b => finishSlot s { part := part, q := q, ctx := x.ctx, addr := a, inBuffer := false, bytes := b } 7 false
    | .inr _ => s
  let buffer := fun (s : State) (p : Packet) =>
    let n := (word p 1).toNat % 2 ^ 32
    (List.range (n - p.next)).foldl (fun s i => one s ((word p 0).toNat + 64 * (p.next + i))) s
  let done := fun (p : Packet) => { p with next := (word p 1).toNat % 2 ^ 32 }
  let s := (s.packets.filter fun p => p.part == part && p.q == q && p.typ == 6 && !p.finished).foldl (fun s p =>
    setPacket (buffer s p) (done p)) s
  let s := match x.ready with
    | some p => if p.typ = 6 then setQueue (buffer s p) part q { x with ready := some (done p) } else s
    | none => s
  (List.range ((x.tail + x.ring - x.head) % x.ring)).foldl (fun s i => one s (x.base.toNat + 64 * ((x.head + i) % x.ring))) s

/-- The queue is disabled: packets in progress go on and are awaited, the others are discarded. -/
def disableQueue (s : State) (part q : Nat) : State :=
  let busy := queueBusy s part q
  let s := abortReady s part q
  let x := (s.part part).queue q
  let s := setQueue s part q { x with
    en := false, err := 0, head := 0, tail := 0, state := if busy then x.state else .disabled, notified := false, marks := [] }
  { closeCaps s fun h _ => h == ringCap part q with
    closing := if busy then s.closing ++ [(part, q)] else s.closing,
    watch := s.watch.filter fun w => !(w.part == part && w.q == q),
    unarmed := s.unarmed.filter (· != (part, q)), snooped := s.snooped.filter (· != (part, q)),
    faults := s.faults.filter fun f => f.asker != .parse part q && f.asker != .notify part q }

/-- QUEUE_DISABLE: a write of QCTL with EN 0. -/
def execQueueDisable (part q : Nat) (value : Word) (s : State) : Out :=
  if !queueThere s part q || !barOpen s part then .next s
  else
    let x := writeQctl s part ((s.part part).queue q) value.toNat
    let s := setQueue s part q { x with err := 0 }
    .next (if x.en then disableQueue s part q else s)

/-- May a STOPPED queue be restarted (14 R289)? -/
def restartable (s : State) (part q : Nat) : Bool :=
  let x := (s.part part).queue q
  queueThere s part q && barOpen s part && x.state == .stopped && (s.ctx? x.ctx).any fun c => c.state == .active

/-- RESTART: UNMAPPED, and mapped at once for a DEADLINE queue, which is always mapped (log 21). -/
def restartQueue (s : State) (part q : Nat) : State :=
  let x := (s.part part).queue q
  let (s, y) := openRing s part q { x with state := .unmapped, err := 0 }
  let s := setQueue s part q
    (if x.cls == 0 || x.head != x.tail || (openBuffer s part q).isSome then noted s part y else y)
  let s : State := { s with faults := s.faults.filter fun f => f.asker != .parse part q }
  if x.cls = 0 then mapQueue s part q else s

/-- QUEUE_RESTART. -/
def execQueueRestart (part q : Nat) (s : State) : Out :=
  if restartable s part q then .next (restartQueue s part q) else .next s

/-- QUEUE_SKIP: the packet that stopped the queue completes with ABORTED, or INVALID, and the queue moves past it. -/
def execQueueSkip (part q : Nat) (s : State) : Out :=
  if !restartable s part q then .next s
  else
    let x := (s.part part).queue q
    let s := match nextSlot s part q with
      | none => s
      | some (a, _) =>
        let s := match peek s (ctxView part x.ctx) a 64 with
          | .inl b =>
            finishSlot s { part := part, q := q, ctx := x.ctx, addr := a, inBuffer := false, bytes := b }
              (if x.err = 3 then 8 else 7) false
          | .inr _ => s
        passSlot s part q
    .next (restartQueue s part q)

/-! ## The order of work (14 R299) -/

/-- Work that the dispatcher looks at: a packet ready to start, or a launch with blocks to place. -/
structure Work where
  key : List Nat
  q : Nat
  launch : Option Nat
deriving DecidableEq, Repr

def keyLt : List Nat → List Nat → Bool
  | [], [] => false
  | [], _ => true
  | _, [] => false
  | a :: as, b :: bs => decide (a < b) || (a == b && keyLt as bs)

def insertWork (w : Work) : List Work → List Work
  | [] => [w]
  | x :: rest => if keyLt w.key x.key then w :: x :: rest else x :: insertWork w rest

/-- Deadline of a packet in a DEADLINE queue, and whether it had passed when the packet became ready. -/
def packetDeadline (p : Packet) : Nat := if p.typ = 8 then (word p 5).toNat else 0

def packetLate (p : Packet) : Bool := p.late

/-- The place of a packet in the order; tier orders the BULK queues. -/
def packetKey (cls tier : Nat) (p : Packet) : List Nat :=
  match cls with
  | 0 => [0, if packetLate p then 0 else 1, packetDeadline p, p.arrival, p.q]
  | 1 => [1, p.arrival, p.q]
  | _ => [2, tier, p.q]

/-- May the packet at a queue's commit point start? It passed that point behind no packet that holds it (14 R293). -/
def startable (s : State) (part q : Nat) (p : Packet) : Bool := ctxRuns s p.ctx && ((s.part part).queue q).state == .mapped

/-- BULK queues with a packet that may start. -/
def bulkReady (s : State) (part : Nat) : List (Nat × Queue) :=
  (mappedQueues s part).filter fun x => x.2.cls == 2 && x.2.ready.any (startable s part x.1)

/-- The tier of a BULK queue: within its round's weight, then the next round; weight 0 only when no other has a packet. -/
def bulkTier (s : State) (part q : Nat) (x : Queue) : Option Nat :=
  if x.weight = 0 then (if (bulkReady s part).all fun y => y.1 == q || y.2.weight == 0 then some 3 else none)
  else if x.spent < x.weight then some 1 else some 2

/-- The work of a partition, in order. -/
def workList (s : State) (part : Nat) : List Work :=
  let ready := (mappedQueues s part).filterMap fun x =>
    match x.2.ready with
    | none => none
    | some p =>
      if !startable s part x.1 p then none
      else
        let tier := if x.2.cls = 2 then bulkTier s part x.1 x.2 else some 0
        tier.map fun t => { key := packetKey x.2.cls t p, q := x.1, launch := none : Work }
  let open' := s.launches.filterMap fun l =>
    if l.part = part ∧ ctxRuns s l.ctx then
      (s.packets.find? fun p => l.pid == some p.pid && p.launches && p.part == part).bind fun p =>
        if p.progress = 1 ∧ packetUnplaced s p ∧ (s.launches.find? fun y => y.pid == some p.pid).any (fun y => y.lid == l.lid) then
          some { key := match l.cls with
                   | 2 => [2, 0, p.pid]
                   | c => packetKey c 0 p, q := p.q, launch := some l.lid : Work }
        else none
    else none
  (ready ++ open').foldr insertWork []

/-! ## Pre-emption (14 R309) -/

/-- The sublists of k members, those of earlier members first. -/
def chooseK : Nat → List Nat → List (List Nat)
  | 0, _ => [[]]
  | _ + 1, [] => []
  | k + 1, x :: rest => (chooseK k rest).map (x :: ·) ++ chooseK (k + 1) rest

/-- Class and weight of a block's launch. -/
def blockClass (s : State) (b : Block) : Nat × Nat :=
  match s.launches.find? fun l => l.lid == b.launch with
  | some l => (l.cls, l.weight)
  | none => (2, 0)

/-- Is a block on its way out to a canvas? -/
def leaving (b : Block) : Bool := match b.state with
  | .asked _ _ => true
  | .window _ _ => true
  | .writing _ _ => true
  | _ => false

/-- The state without the units of some blocks. -/
def without (s : State) (bids : List Nat) : State :=
  dropBlocks s ((bids.filterMap s.block?).flatMap (unitOf s))

/-- May a block be a victim: it holds a reservation, is not leaving, and its unit's canvas fits (16 R344)? -/
def victimOk (s : State) (part : Nat) (b : Block) : Bool :=
  b.part == part && resident b && b.state != .ended && !leaving b
  && (let unit := unitOf s b
      unit.all fun x => (blockClass s x).1 != 0)
  && (let unit := unitOf s b
      (canvasSpot s b.ctx (encCanvas s 1 b.ctx (recorded unit) false).length 0).isSome)

/-- Pools of victims, in the order in which they are drawn on: BULK from the lowest weight up, then FRAME too. -/
def victimPools (s : State) (part : Nat) : List (List Block) :=
  let ok := s.blocks.filter (victimOk s part)
  let bulk := ok.filter fun b => (blockClass s b).1 == 2
  let ws := ((bulk.map fun b => (blockClass s b).2).eraseDups).foldr (fun w l => insertTid w l) []
  (ws.map fun w => bulk.filter fun b => decide ((blockClass s b).2 ≤ w)) ++ [ok]

/-- Most recently placed first. -/
def insertRecent (b : Block) : List Block → List Block
  | [] => [b]
  | x :: rest => if x.placed < b.placed then b :: x :: rest else x :: insertRecent b rest

/-- A launch places what fits of it: the canvas of its packet, or gesso blocks. -/
def advance (s : State) (l : Launch) : State :=
  if l.canvas = 0 then advanceLaunch s l kernelKind none
  else (s.captured.filter fun c => c.fromPacket && c.part == l.part && c.ctx == l.ctx && c.addr == l.canvas).foldl restoreCanvas s

/-- Could the launch place a unit now? -/
def fits (s : State) (l : Launch) : Bool := if l.canvas = 0 then hasRoom s l kernelKind else decide (advance s l ≠ s)

/-- The smallest set of a scope's blocks without which a launch finds room. -/
def smallestSet (s : State) (l : Launch) (scope : List Block) : Option (List Nat) :=
  let ids := (scope.foldr insertRecent []).map (·.bid)
  (List.range (ids.length + 1)).findSome? fun k =>
    (chooseK k ids).find? fun set => decide (0 < k) && fits (without s set) l

/-- Where the victims of a launch may stand together: a core, a die for clusters, the partition for a co-resident grid. -/
def scopes (s : State) (l : Launch) (csize : Nat) (pool : List Block) : List (List Block) :=
  if l.coresident then [pool]
  else if 1 < csize then (diesOf s l.part).map fun d => pool.filter fun b => b.die == d
  else (diesOf s l.part).flatMap fun d => (List.range (Config.mCores + Config.sCores)).map fun c =>
    pool.filter fun b => b.die == d && b.core == c

/-- Blocks of a cluster of a launch. -/
def clusterSize (s : State) (l : Launch) : Nat :=
  if l.canvas = 0 then ((chooseCfg s l kernelKind).map fun x => x.2.cluster).getD 1
  else match canvasAt s (ctxView l.part l.ctx) l.canvas.toNat with
    | .inl bs => ((canvasRecords bs).map fun r => byteAt r 13).foldl max 1
    | .inr _ => 1

/-- Sets of victims that the host may choose among: of every pool and scope, the smallest that frees enough. -/
def victimSets (s : State) (l : Launch) : List (List Nat) :=
  (victimPools s l.part).flatMap fun pool => (scopes s l (clusterSize s l) pool).filterMap (smallestSet s l)

/-- The victims for a launch that finds no room; among sets of one size, that with the latest placed blocks. -/
def chooseVictims (s : State) (l : Launch) : Option (List Nat) :=
  (victimPools s l.part).findSome? fun pool =>
    ((scopes s l (clusterSize s l) pool).filterMap (smallestSet s l)).foldl (fun (a : Option (List Nat)) set =>
      match a with
      | none => some set
      | some b =>
        let age := fun (x : List Nat) => (x.map fun i => ((s.block? i).map (·.placed)).getD 0).foldl min (2 ^ 64)
        if set.length < b.length ∨ (set.length = b.length ∧ age b < age set) then some set else some b) none

/-- A capture is asked for; where EASEL is the host's duty it is asked first (13 R279, 14 R309, 16 R344). -/
def askCapture (s : State) (b : Block) : State :=
  match b.state with
  | .running =>
    if hostAssisted s b.part 2 then askEasel (s.onBlock b.bid fun x => { x with state := .asked true 0 }) b
    else s.onBlock b.bid fun x => { x with state := .asked false 0 }
  | .suspended _ _ => beginCapture s b
  | _ => s

/-- The host's choice among the sets, which is the host's own (14 R309, log 81). -/
def hostVictims (s : State) (l : Launch) : State × Option (List Nat) :=
  let sets := victimSets s l
  if sets.isEmpty then (s, none)
  else ({ s with freeCount := s.freeCount + 1 }, sets[(Config.freeWord s.freeCount).toNat % sets.length]?)

/-- The reference of the EASEL request for the victims of a launch. -/
def victimRef (lid : Nat) : Nat := 2 ^ 41 + lid

/-- Does what is leaving already make room for a launch? -/
def roomComes (s : State) (l : Launch) : Bool :=
  let going := (s.blocks.filter fun b => b.part == l.part && leaving b).map (·.bid)
  !going.isEmpty && fits (without s going) l

/-- The victims of a launch are captured: those that the host chose, or the hardware's choice. -/
def takeVictims (s : State) (l : Launch) (host : Bool) : State :=
  let (s', set) := if host then hostVictims s l else (s, chooseVictims s l)
  match set with
  | none => s
  | some ids => (ids.filterMap s.block?).foldl askCapture s'

/-- PREEMPTION: room is made for a DEADLINE launch, unless what is leaving already makes enough. Where EASEL is the host's duty
it is asked for the victims first, if there is a choice to make (13 R280, log 81). -/
def preempt (s : State) (l : Launch) : State :=
  if roomComes s l then s
  else if hostDuty s l.part 2 (victimRef l.lid) then
    if askedHost s l.part 2 (victimRef l.lid) || (victimSets s l).isEmpty then s
    else (postAssist s l.part 2 l.ctx (victimRef l.lid) (leBytes 4 l.grid.toNat)).1
  else takeVictims s l false

/-! ## Dispatch -/

/-- A ready packet starts. -/
def startPacket (s : State) (part q : Nat) : State :=
  let x := (s.part part).queue q
  match x.ready with
  | none => s
  | some p =>
    let others := fun (s : State) => if x.cls = 2 ∧ x.weight ≤ x.spent then
        s.setPart part { s.part part with
          queues := (s.part part).queues.map fun y => if y.cls = 2 then { y with spent := 0 } else y }
      else s
    let s := others s
    let x := (s.part part).queue q
    let s := setQueue s part q { x with ready := none, spent := x.spent + 1 }
    { s with packets := s.packets ++ [{ p with started := true, startedAt := s.time }] }

/-- The first work in order that can be done, with its class and what it makes of the state. Once a launch waits for room, no
later launch is placed. -/
def dispatchWork (s : State) (part : Nat) : List Work → Bool → Option (Nat × State)
  | [], _ => none
  | w :: rest, blocked =>
    let cls := w.key.headD 2
    match w.launch with
    | some lid =>
      match s.launches.find? fun l => l.lid == lid with
      | none => dispatchWork s part rest blocked
      | some l =>
        if blocked then dispatchWork s part rest true
        else
          let s1 := advance s l
          if s1 ≠ s then some (cls, s1)
          else
            let s2 := if l.cls = 0 then preempt s l else s
            if s2 ≠ s then some (cls, s2) else dispatchWork s part rest true
    | none =>
      let launching := (((s.part part).queue w.q).ready.any fun p => p.launches)
      if blocked && launching then dispatchWork s part rest true else some (cls, startPacket s part w.q)

/-- What the dispatcher of a partition does next. -/
def nextDispatch (s : State) (part : Nat) : Option (Nat × State) :=
  if (s.part part).state ≠ .active then none else dispatchWork s part (workList s part) false

/-- PACKET_DISPATCH (14 R299): the first work that can be done; between two of them, captured blocks may return. -/
def execPacketDispatch (part : Nat) (s : State) : Out := .next (((nextDispatch s part).map (·.2)).getD s)

/-- Does a DEADLINE packet wait for room (14 R299)? -/
def deadlineWaits (s : State) (part : Nat) : Bool :=
  s.launches.any fun l => l.part == part && l.cls == 0 && ctxRuns s l.ctx
    && s.packets.any fun p => l.pid == some p.pid && p.launches && packetUnplaced s p

/-- Class of a launch. -/
def classOf (s : State) (lid : Nat) : Nat × Nat :=
  match s.launches.find? fun l => l.lid == lid with
  | some l => (l.cls, l.weight)
  | none => (2, 1)

/-- May work of a started launch be placed now? -/
def mayPlace (s : State) (part lid : Nat) : Bool := (classOf s lid).1 == 0 || !deadlineWaits s part

/-! ## Nodes (14 R304 to R306) -/

/-- The kind a node asks for. -/
def nodeKind (d : List Byte) (k : Kernel) : Nat :=
  match field d 28 1 with
  | 1 => 0
  | 2 => 1
  | _ => kernelKind k

/-- The die that holds the home of a node's first tile (14 R302). -/
def tileDie (s : State) (part ctx : Nat) (d : List Byte) : Option Nat :=
  (tileOps d).head?.bind fun t => (sliceAt s (ctxView part ctx) needR t.addr).map (·.1)

/-- A node leaves the pool without having run: its successors are decremented. -/
def dropNode (s : State) (n : Node) (status : Nat) : State :=
  let s : State := { s with nodes := s.nodes.filter fun x => x.order != n.order }
  let s := if status = 2 then stick s n.ctx stickOvercap else s
  let s := if status = 5 then (match n.pid with
    | some pid => raiseStatus s pid 5
    | none => s) else s
  successors s n.part n.ctx n.desc

/-- A node's grid of one block, where it fits. Faults that its tiles' copies or its successor list would meet are served first. -/
def placeNode (s : State) (n : Node) : Option State :=
  let kpb := field n.desc 0 8
  let v := ctxView n.part n.ctx
  match (tileWait s v n.desc false).orElse fun _ => succWait s v n.desc with
  | some f => some (askService s n.part n.ctx (.work n.order) 1 f)
  | none =>
  if kernelPoisoned s n.ctx kpb then some (dropNode s n 5)
  else
    let (g, s1) := takeGrid s n.ctx
    let c := classOf s n.launch
    let l : Launch := { blankLaunch s1 n.part n.ctx n.pid g c.1 c.2 with
      kpbs := [BitVec.ofNat 64 kpb], args := [wordAt n.desc 8], nblk := 1 }
    match loadedKernel s n.part n.ctx kpb with
    | none => some (dropNode s n 2)
    | some k =>
      if !cfgFits s l (nodeKind n.desc k) k then some (dropNode s n 2)
      else
        let (s2, tiles) := readTiles (addLaunch s1 l) v n.desc
        let mk := fun (bid die core crank cid : Nat) =>
          withTiles tiles s.cycle { launchBlock s2 l 0 k bid die core crank cid with node := some (n.addr, n.desc) }
        match placeUnit s2 n.part (nodeKind n.desc k) 1 (tileDie s n.part n.ctx n.desc) false k mk with
        | none => none
        | some s3 =>
          let s4 := setLaunch s3 { l with next := 1, bars := gridBarsOf k 1 }
          some { s4 with nodes := s4.nodes.filter fun x => x.order != n.order }

/-- Ready nodes of a partition, in class order and then in the order of acceptance. -/
def readyNodes (s : State) (part : Nat) : List Node :=
  let ok := s.nodes.filter fun n => n.part == part && n.remaining == 0
    && ctxRuns s n.ctx && mayPlace s part n.launch && !s.faults.any fun f => f.asker == .work n.order
  [0, 1, 2].flatMap fun c => ok.filter fun n => (classOf s n.launch).1 == c

/-- NODE_PLACEMENT: the first ready node that can be placed. -/
def execNodePlacement (part : Nat) (s : State) : Out :=
  if (s.part part).state ≠ .active then .next s
  else .next (((readyNodes s part).findSome? (placeNode s)).getD s)

/-! ## Commissions (14 R308, 15 R330) -/

/-- The block a commission fault's record names, for a commission that never ran. -/
def commissionFails (s : State) (c : Commission) (inner : Nat) : State :=
  let b := launchBlock s (blankLaunch s c.part c.ctx none 0 2 1) 0 probeKernel 0 0 0 0 0
  commissionRecord { s with commissions := s.commissions.filter fun x => x.id != c.id } { b with part := c.part, ctx := c.ctx } c.info inner 0 0

/-- The first entry of a slice launch queue is placed, or ends in a commission fault; none while it finds no room. -/
def placeCommission (s : State) (c : Commission) : Option State :=
  let kpb := c.kpb
  if kernelPoisoned s c.ctx kpb then some (commissionFails s c 7)
  else match loadedKernel s c.part c.ctx kpb with
    | none => some (commissionFails s c 14)
    | some k =>
      let (g, s1) := takeGrid s c.ctx
      let cl := classOf s c.launch
      let l : Launch := { blankLaunch s1 c.part c.ctx c.pid g cl.1 cl.2 with
        kpbs := [BitVec.ofNat 64 kpb], args := [c.old, c.info.desc >>> 16, c.info.addr], nblk := 1 }
      if !cfgFits s l (kernelKind k) k then some (commissionFails s c 14)
      else
        let s2 := addLaunch s1 l
        let mk := fun (bid die core crank cid : Nat) =>
          { launchBlock s2 l 0 k bid die core crank cid with commission := some c.info }
        match placeUnit s2 c.part (kernelKind k) 1 (some c.die) false k mk with
        | none => none
        | some s3 => some { setLaunch s3 { l with next := 1, bars := gridBarsOf k 1 } with
            commissions := s3.commissions.filter fun x => x.id != c.id }

/-- The entry a slice hands out next. -/
def sliceHead (s : State) (die slice : Nat) : Option Commission :=
  (s.commissions.find? fun c => c.die == die && c.slice == slice).bind fun c =>
    if ctxRuns s c.ctx && mayPlace s c.part c.launch then some c else none

/-- Work of started launches that can be placed: class, place in launch order, and the event that places it (14 R299). -/
def startedWork (s : State) (part : Nat) : List (Nat × Nat × Instr) :=
  ((readyNodes s part).filter fun n => (placeNode s n).isSome).map (fun n =>
    ((classOf s n.launch).1, n.order, .nodePlacement part))
  ++ ((s.commissions.filter fun c => c.part == part).map fun c => (c.die, c.slice)).eraseDups.filterMap fun x =>
    match sliceHead s x.1 x.2 with
    | some c => if c.part = part ∧ (placeCommission s c).isSome then
        some ((classOf s c.launch).1, c.id, .commissionLaunch x.1 x.2) else none
    | none => none

/-- The first of it: by class, then in launch order. -/
def firstStarted (s : State) (part : Nat) : Option (Nat × Nat × Instr) :=
  (startedWork s part).foldl (fun a x => match a with
    | none => some x
    | some y => if keyLt [x.1, x.2.1] [y.1, y.2.1] then some x else a) none

/-- COMMISSION_LAUNCH (14 R308). -/
def execCommissionLaunch (die slice : Nat) (s : State) : Out :=
  match sliceHead s die slice with
  | none => .next s
  | some c => .next ((placeCommission s c).getD s)

end Sys2Proof.Machine
end

