-- ==== Sys2Proof/Machine/Reliability.lean ====
section
/-! DEFINITION. Errors and retirement: where uncorrectable errors are caught (17 R353, R356 to R358), lost cores (17 R359),
the retirement of banks and the blocks that leave a core (17 R365 to R368), and the removal of near-DRAM banks (17 R369,
R370). -/

namespace Sys2Proof.Machine

/-! ## Banks (17 R365, R371) -/

/-- The partition that holds a die. -/
def partOfDie (s : State) (die : Nat) : Option Nat := (List.range 8).find? fun p => (s.part p).cfg.dies.getLsbD die

/-- A change of the registers of the partition that holds a die, where one does. -/
def onPartOfDie (s : State) (die : Nat) (f : Part → Part) : State :=
  match partOfDie s die with
  | some p => s.setPart p (f (s.part p))
  | none => s

/-- Is a matter of REPAIR the host's: that of the partition that holds the die? -/
def repairDuty (s : State) (die ref : Nat) : Bool := (partOfDie s die).any fun p => hostDuty s p 3 ref

def setCoreStat (s : State) (c : CoreStat) : State :=
  { s with cores := (s.cores.filter fun x => !(x.die == c.die && x.core == c.core)) ++ [c] }

def CoreStat.lose (c : CoreStat) (bank : Nat) : BankArray → CoreStat
  | .regs => { c with regs := c.regs ++ [bank] }
  | .scratch => { c with scratch := c.scratch ++ [bank] }
  | .acc => { c with acc := c.acc ++ [bank] }
  | .l1 => { c with l1 := c.l1 ++ [bank] }
  | .slice => c

/-- REPSTAT counts a retired bank; the counts saturate (17 R371). -/
def Part.countBank (p : Part) : BankArray → Part
  | .regs => { p with regb := min 4095 (p.regb + 1) }
  | .scratch => { p with spb := min 4095 (p.spb + 1) }
  | .acc => { p with accb := min 255 (p.accb + 1) }
  | .l1 => { p with l1b := min 255 (p.l1b + 1) }
  | .slice => p

/-- The bank drains from now on (17 R367). -/
def startDrain (s : State) (d : Drain) : State :=
  let s : State := { s with repairs := s.repairs.filter (· != d) }
  if !d.exists' || retiredBank s d || s.drains.contains d then s else { s with drains := s.drains ++ [d] }

/-! ## Blocks that leave a core (17 R368) -/

/-- Blocks that stay on a core: with a reservation, running on, and not on their way out. -/
def staying (s : State) (die core : Nat) : List Block :=
  s.blocks.filter fun b => b.die == die && b.core == core && resident b && !leaving b && b.state != .ended

def tooFull (s : State) (die core : Nat) : Bool :=
  lostCore s die core
  || (((sumNeeds (staying s die core)).zip (capsOf s die core)).any fun x => decide (x.2 < x.1))

/-- Blocks leave a core, the last placed first, until the rest fit. -/
def shed (die core : Nat) : Nat → State → State
  | 0, s => s
  | n + 1, s =>
    if !tooFull s die core then s
    else match ((staying s die core).foldr insertRecent []).head? with
      | none => s
      | some b => shed die core n (askCapture s b)

/-! ## Slices (17 R365, R367) -/

/-- Listed bytes of a range moved to another. -/
def cellsMove (m : Cells) (src dst n : Nat) : Cells :=
  (m.filter fun c => decide (src ≤ c.1) && decide (c.1 < src + n)).foldl (fun m c => cellsSet m (c.1 - src + dst) c.2)
    (cellsClear (cellsClear m dst (dst + n)) src (src + n))

/-- Poisoned bytes of a range moved to another. -/
def poisonMove (l : List Nat) (src dst n : Nat) : List Nat :=
  (l.filter fun a => !(decide (dst ≤ a) && decide (a < dst + n))).map fun a =>
    if src ≤ a ∧ a < src + n then a - src + dst else a

/-- A context fault for want of capacity, with its record (17 R367, R369). -/
def capacityFault (s : State) (ctx part cause : Nat) : State :=
  postRecord (contextFault s ctx) part (recordBytes s cause ctx 0xFFFF 0 0 0 0 [])

/-- The first atelier slice of a partition that no map names. -/
def freeSlice (s : State) (part : Nat) : Option (Nat × Nat) :=
  s.atlSlices.find? fun x => (s.part part).cfg.dies.getLsbD x.1
    && !(s.ctxs.any fun c => c.atl.any fun e => e.2 == x)

/-- A slice leaves service. In atelier mode its page moves to a free slice; without one each context whose map names it
faults. The count of retired atelier slices has no bound; what PSTAT.ARET shows of one past its field is the model's choice
(log 75). -/
def retireSlice (s : State) (die slice : Nat) : State :=
  let s : State := { s with deadSlices := s.deadSlices ++ [(die, slice)] }
  if !s.atlSlices.contains (die, slice) then s
  else
    let s : State := { s with
      atlSlices := s.atlSlices.filter (· != (die, slice)), marks := s.marks.filter fun m => !(m.atelier && m.addr / 65536 == die * 1024 + slice) }
    let s := onPartOfDie s die fun p => { p with aret := p.aret + 1 }
    let users := s.ctxs.filter fun c => c.atl.any fun e => e.2 == (die, slice)
    if users.isEmpty then s
    else match (partOfDie s die).bind (freeSlice s) with
      | some (d, n) =>
        let src := (die * 1024 + slice) * 65536
        let dst := (d * 1024 + n) * 65536
        { s with
          atelier := cellsMove s.atelier src dst 65536,
          atelierPoison := poisonMove s.atelierPoison src dst 65536,
          ctxs := s.ctxs.map fun c =>
            { c with atl := c.atl.map fun e => if e.2 = (die, slice) then (e.1, d, n) else e } }
      | none => users.foldl (fun s c => if c.state = .faulted then s else capacityFault s c.id c.part 14) s

/-! ## Retirement (17 R366, R367) -/

/-- Cut-over: the target takes the bank's place, and capacity falls once the spare is used. -/
def cutOver (s : State) (d : Drain) : State :=
  let s : State := { s with drains := s.drains.filter (· != d), repairs := s.repairs.filter (· != d) }
  if !d.exists' || retiredBank s d then s
  else match d.arr with
    | .slice => retireSlice s d.die d.bank
    | a =>
      let s := setCoreStat s ((coreStat s d.die d.core).lose d.bank a)
      let s := onPartOfDie s d.die fun p => p.countBank a
      shed d.die d.core s.blocks.length s

def arrayCode : BankArray → Nat
  | .regs => 0
  | .scratch => 1
  | .acc => 2
  | .l1 => 3
  | .slice => 4

/-- The reference of a bank in a REPAIR request, and back. -/
def repairRef (d : Drain) : Nat := ((arrayCode d.arr * 256 + d.die) * 65536 + d.core) * 65536 + d.bank

/-- That of a bank of near DRAM: array 5, which the spec numbers nowhere (DESIGN CHOICE, log 22). -/
def dramRef (die bank : Nat) : Nat := ((5 * 256 + die) * 65536) * 65536 + bank

def drainOf (n : Nat) : Drain :=
  { arr := (match n / 2 ^ 40 with
      | 0 => .regs
      | 1 => .scratch
      | 2 => .acc
      | 3 => .l1
      | _ => .slice), die := n / 2 ^ 32 % 256, core := n / 2 ^ 16 % 65536, bank := n % 65536 }

/-- The REPAIR function decides about a bank: the host is asked, once, where the function is its; else the hardware goes on. -/
def decideRepair (s : State) (die ref : Nat) (k : State → State) : State :=
  match partOfDie s die with
  | none => k s
  | some p =>
    if !hostDuty s p 3 ref then k s
    else if askedHost s p 3 ref then s
    else
      let args := leBytes 1 (ref / 2 ^ 40) ++ leBytes 1 (ref / 2 ^ 32) ++ leBytes 2 (ref / 2 ^ 16) ++ leBytes 2 ref
      (postAssist s p 3 0 ref args).1

/-- BANK_RETIRE (17 R366): decided by the REPAIR function; the bank then drains. -/
def execBankRetire (arr : BankArray) (die core bank : Nat) (s : State) : Out :=
  let d : Drain := { arr := arr, die := die, core := core, bank := bank }
  let s : State := { s with repairs := s.repairs.filter (· != d) }
  if !d.exists' || retiredBank s d || s.drains.contains d then .next s
  else .next (decideRepair s die (repairRef d) fun s => startDrain s d)

/-- BANK_CUTOVER (17 R367). -/
def execBankCutover (arr : BankArray) (die core bank : Nat) (s : State) : Out :=
  let d : Drain := { arr := arr, die := die, core := core, bank := bank }
  if s.drains.contains d then .next (cutOver s d) else .next s

/-! ## Uncorrectable errors (17 R353, R356, R357) -/

/-- Private storage of a block. -/
def privateArray : BankArray → Bool
  | .regs => true
  | .scratch => true
  | .acc => true
  | _ => false

/-- What a rolled-back block was about: a suspended one runs on from its image, and one on its way to a canvas that was rewound
is rewound again. -/
def afterRollback (s : State) (bid : Nat) : State :=
  match s.block? bid with
  | none => s
  | some b => match b.state with
    | .suspended true img =>
      let s := match img with
        | some a => if a = 0 then s else freeCanvas s b.ctx a
        | none => s
      let s : State := { s with faults := s.faults.filter fun f => f.asker != .block bid }
      resumeBlock s bid
    | .writing a true => haltBlock s bid a (uncommitted b) false
    | _ => s

/-- A block that consumed an error rolls back (17 R356). Whether the word was already copied to an image still being written is
free (log 7). -/
def rollbackFor (s : State) (b : Block) : State :=
  let copied := (Config.freeWord s.freeCount).getLsbD 0
  let s : State := { s with freeCount := s.freeCount + 1 }
  let set := (rollbackSet s b).map (·.bid)
  set.foldl afterRollback (rollback s b.bid copied)

/-- An error consumed in a bank that holds a block's own storage: rollback, and the bank retires; at once if the block consumed
one in it before, with no boundary between (17 R357). -/
def errorInBlock (s : State) (b : Block) (arr : BankArray) (bank : Nat) : State :=
  let d : Drain := { arr := arr, die := b.die, core := b.core, bank := bank }
  let s := if b.errorBanks.contains (arr, bank) then cutOver s d else wantRetire s d
  rollbackFor (s.onBlock b.bid fun x => { x with errorBanks := x.errorBanks ++ [(arr, bank)] }) b

/-- The bytes of an aligned 8-byte unit from an address on, len of them at most, that a list does not hold yet. -/
def newlyPoisoned (l : List Nat) (a len : Nat) : List Nat :=
  ((List.range (min len (8 - a % 8))).map (a + ·)).filter fun x => !l.contains x

/-- Bytes of memory are poisoned; host memory is not the device's. -/
def poisonMem (s : State) (pa len : Nat) : State :=
  if hostStart ≤ pa then s
  else
    let new := newlyPoisoned s.poison pa len
    { s with poison := s.poison ++ new, marks := s.marks.filter fun m => m.atelier || !new.contains m.addr }

/-- Bytes of an atelier slice are poisoned. -/
def poisonAtelier (s : State) (idx len : Nat) : State :=
  if !s.atlSlices.contains (idx / 65536 / 1024, idx / 65536 % 1024) then s
  else
    let new := newlyPoisoned s.atelierPoison idx len
    { s with atelierPoison := s.atelierPoison ++ new, marks := s.marks.filter fun m => !(m.atelier && new.contains m.addr) }

/-- The slice that a byte of the atelier store lies in. -/
def sliceBank (idx : Nat) : MemBank := .slice (idx / 65536 / 1024) (idx / 65536 % 1024)

/-- UNCORRECTABLE_ERROR (17 R353, R356, R366, R369): what the error in a storage leads to, and the bank that it was consumed in. -/
def execUncorrectableError (site : ErrSite) (s : State) : Out :=
  match site with
  | .block blk arr bank =>
    match s.block? blk with
    | none => .next s
    | some b =>
      if !privateArray arr || b.state == .ended || !resident b then .next s else .next (errorInBlock s b arr bank)
  | .ownStore blk =>
    match s.block? blk with
    | none => .next s
    | some b => if b.state == .ended || !resident b then .next s else .next (rollbackFor s b)
  | .cleanLine die core bank => .next (match bank with
      | some n => wantRetire s { arr := .l1, die := die, core := core, bank := n }
      | none => s)
  | .memory pa len bank => .next (wantRepair (poisonMem s pa len) bank)
  | .atelier idx len => .next (wantRepair (poisonAtelier s idx len) (sliceBank idx))
  | .pentimento blk => .next { s with pents := s.pents.filter fun p => !(p.bid == blk && p.complete) }
  | .pageTable pa => .next (poisonMem s (pa / 8 * 8) 8)

/-- The bank of an error, where it lies in one that is counted. -/
def siteBank (s : State) : ErrSite → Option Drain
  | .block blk arr bank =>
    (s.block? blk).bind fun b =>
      if privateArray arr then some { arr := arr, die := b.die, core := b.core, bank := bank } else none
  | .cleanLine die core bank => bank.map fun n => { arr := .l1, die := die, core := core, bank := n }
  | .memory _ _ bank => bankDrain bank
  | .atelier idx _ => bankDrain (sliceBank idx)
  | _ => none

/-- A corrected error counts towards its bank; the eighth within one second retires it (17 R366). -/
def countCorrected (s : State) (d : Drain) : State :=
  let fresh := (s.corrected.filter fun x => decide (s.time < x.2 + micros 1000000)) ++ [(d, s.time)]
  if 8 ≤ (fresh.filter fun x => x.1 == d).length then
    wantRetire { s with corrected := fresh.filter fun x => x.1 != d } d
  else { s with corrected := fresh }

/-- The scrubber marks what it found in bytes of one aligned 8-byte unit. -/
def mark (s : State) (atl : Bool) (a len : Nat) (bank : MemBank) : State :=
  let here := (List.range (min len (8 - a % 8))).map (a + ·)
  let bad := if atl then s.atelierPoison else s.poison
  { s with marks := s.marks ++ (here.filter bad.contains).map fun x => { atelier := atl, addr := x, bank := bank } }

/-- SCRUBBER_PASS (17 R353): a correctable error is corrected in place; an uncorrectable one is marked and takes its fate when
it is consumed. Memory is marked by its poison, beside the bank of the error; the error in private storage is consumed by an
event of its own. -/
def execScrubberPass (site : ErrSite) (correctable : Bool) (s : State) : Out :=
  if correctable then
    match siteBank s site with
    | some d => .next (countCorrected s d)
    | none => .next s
  else match site with
    | .memory pa len bank => .next (mark (poisonMem s pa len) false pa len bank)
    | .pageTable pa => .next (poisonMem s (pa / 8 * 8) 8)
    | .atelier idx len => .next (mark (poisonAtelier s idx len) true idx len (sliceBank idx))
    | _ => .next s

/-! ## Lost cores (17 R359) -/

/-- A cluster with a member on the lost core: it goes back to its last image and leaves as a canvas. -/
def loseCluster (s : State) (cid : Nat) : State :=
  match s.blocks.find? fun b => b.cluster == cid && b.state != .ended with
  | none => s
  | some b =>
    let s := rollback s b.bid false
    let set := s.blocks.filter fun x => x.cluster == cid && x.state != .ended
    let s := set.foldl (fun s x =>
      let s := match imageOf x with
        | some a => freeCanvas s x.ctx a
        | none => s
      let s : State := { s with faults := s.faults.filter fun f => f.asker != .block x.bid }
      haltBlock s x.bid 0 (uncommitted x) false) s
    match set.head? with
    | some x => ((unitOf s x).filter fun y => y.cluster != cid).foldl captureOne s
    | none => s

/-- CORE_LOST. -/
def execCoreLost (die core : Nat) (s : State) : Out :=
  if Config.dies ≤ die ∨ 96 ≤ core ∨ lostCore s die core then .next s
  else
    let cids := ((s.blocks.filter fun b => b.die == die && b.core == core && resident b && b.state != .ended).map
      (·.cluster)).eraseDups
    let s := setCoreStat s { coreStat s die core with lost := true }
    let s := onPartOfDie s die fun p => { p with coresLost := min 255 (p.coresLost + 1) }
    let s : State := { s with
      icache := s.icache.filter fun l => !(l.die == die && l.core == core),
      fills := s.fills.filter fun l => !(l.line.die == die && l.line.core == core) }
    .next (cids.foldl loseCluster s)

/-! ## Removal of a near-DRAM bank (17 R369, R370) -/

/-- What an emptying knows: the state, and the pages moved so far. -/
structure Emptying where
  s : State
  moved : List (Nat × Nat)
deriving DecidableEq, Repr

/-- One leaf of a context: its page is copied to a free page, and its entry rewritten after a shoot-down. -/
def moveLeaf (c : Ctx) (x : Emptying) (leaf : TableEntry) : Emptying :=
  let s := x.s
  let e := cellsRead s.mem leaf.addr 8
  let put := fun (s : State) (new : Nat) =>
    { s with mem := cellsWrite s.mem leaf.addr 8 (e / 2 ^ 52 * 2 ^ 52 + new + e % 2 ^ 12) }
  match x.moved.find? fun m => m.1 == leaf.pa with
  | some m => { x with s := put s m.2 }
  | none =>
    match freeRange s c.part leaf.size (usedRanges s c.part) with
    | none => { x with s := if ((s.ctx? c.id).any fun y => y.state == .faulted) then s else capacityFault s c.id c.part 14 }
    | some new =>
      let s : State := { s with
        freeCount := s.freeCount + 1,
        mem := cellsMove s.mem leaf.pa new leaf.size,
        poison := poisonMove s.poison leaf.pa new leaf.size,
        insts := s.insts.map fun i =>
          { i with pages := i.pages.map fun pg =>
              if leaf.pa ≤ pg.2 ∧ pg.2 < leaf.pa + leaf.size then (pg.1, pg.2 - leaf.pa + new) else pg } }
      { s := put s new, moved := x.moved ++ [(leaf.pa, new)] }

/-- The range that will no longer be backed is emptied. -/
def emptyRange (s : State) (part lo hi : Nat) : State :=
  ((s.ctxs.filter fun c => c.part == part).foldl (fun x c =>
    ((ctxEntries x.s c).filter fun e => e.leaf && rangesTouch (e.pa, e.size) (lo, hi - lo)).foldl (moveLeaf c) x)
    { s := s, moved := [] : Emptying }).s

/-- Regions of a die that its surviving banks hold. -/
def regionsOf (s : State) (die : Nat) : Nat := 786432 - 12288 * (s.deadDram.filter fun d => d.1 == die).length

/-- Bytes of a bank that is removed cannot be read, in a range of the die's physical addresses, and are poisoned (17 R369). Which
bank holds a region under the hash in force, and which bytes cannot be read, are free (log 22). -/
def poisonLost (s : State) (die bank hash lo hi : Nat) : State :=
  let lost := (Config.unreadable s.freeCount).filter fun a =>
    decide (lo ≤ a) && decide (a < hi) && Config.dramBank die hash (a % Config.nearBytes / 65536) % 64 == bank
  lost.foldl (fun s a => poisonMem s a 1) { s with freeCount := s.freeCount + 1 }

/-- A bank of near DRAM is removed (17 R369). -/
def removeDram (s : State) (die bank : Nat) : State :=
  let before := (s.deadDram.filter fun d => d.1 == die).length
  let hi := (die + 1) * Config.nearBytes - unbacked s die
  let lo := hi - 805306368
  let s := poisonLost { s with deadDram := s.deadDram ++ [(die, bank)] } die bank before lo hi
  let s := match partOfDie s die with
    | some p => emptyRange s p lo hi
    | none => s
  let s : State := { s with
    mem := cellsClear s.mem lo hi,
    poison := s.poison.filter fun u => decide (u < lo) || decide (hi ≤ u) }
  onPartOfDie s die fun p =>
    { p with dramb := min 255 (p.dramb + 1), mig := true, migWm := 0, migDie := die, migAt := s.time }

/-- Is a die's partition being re-striped? -/
def striping (s : State) (die : Nat) : Bool := (partOfDie s die).any fun p => (s.part p).mig

/-- DRAM_BANK_REMOVE (17 R369), on the REPAIR function's decision. While the partition is still being re-striped it waits
(log 22). -/
def execDramBankRemove (die bank : Nat) (s : State) : Out :=
  let drop : State := { s with dramWant := s.dramWant.filter (· != (die, bank)) }
  if Config.dies ≤ die ∨ 64 ≤ bank ∨ s.deadDram.contains (die, bank) then .next drop
  else if striping s die then .next (wantDram s die bank)
  else .next (decideRepair drop die (dramRef die bank) fun s => removeDram s die bank)

/-- REGION_MIGRATE (17 R370): a region is moved and the watermark advances; no byte changes its address. What cannot be read of it
is poisoned (17 R369). -/
def execRegionMigrate (die : Nat) (s : State) : Out :=
  match partOfDie s die with
  | none => .next s
  | some part =>
    let p := s.part part
    if !p.mig ∨ p.migDie ≠ die then .next s
    else
      let dead := s.deadDram.filter fun d => d.1 == die
      let at' := die * Config.nearBytes + 65536 * p.migWm
      let s := poisonLost s die ((dead.getLast?.map (·.2)).getD 0) (dead.length - 1) at' (at' + 65536)
      if p.migWm + 1 < regionsOf s die then
        .next (s.setPart part { p with migWm := p.migWm + 1, migAt := s.time })
      else .next (s.setPart part { p with mig := false, migWm := p.migWm + 1 })

end Sys2Proof.Machine
end

