-- ==== Sys2Proof/Machine/Assist.lean ====
section
/-! DEFINITION. The host's answers to assist requests, and what becomes of a request without one (13 R279, R280). -/

namespace Sys2Proof.Machine

/-- QMAP: mapped, or unmapped until the next notify write. -/
def answerQueue (s : State) (part q : Nat) (accept : Bool) : State :=
  let x := (s.part part).queue q
  if x.state ≠ .unmapped ∨ !ctxRuns s x.ctx then s
  else if accept then mapQueue s part q
  else setQueue s part q { x with notified := false }

/-- EASEL: the victims of a launch that still waits for room (14 R309), or the address of a context's or a block's canvas;
refused, the hardware's choice (16 R344). -/
def answerEasel (s : State) (ref : Nat) (accept : Bool) (addr : Word) : State :=
  if 2 ^ 41 ≤ ref then
    match s.launches.find? fun l => victimRef l.lid == ref with
    | some l => if fits s l || roomComes s l then s else takeVictims s l accept
    | none => s
  else if 2 ^ 40 ≤ ref then
    match s.ctx? (ref - 2 ^ 40) with
    | some c => trySuspend s c (some addr)
    | none => s
  else match s.block? ref with
    | none => s
    | some b => match b.state with
      | .asked true _ => s.onBlock ref fun x => { x with state := .asked false addr }
      | .suspended _ none => writeImage s b addr
      | _ => s

/-- INTEG: the page counts as checked, or its object is poisoned (15 R328). -/
def answerPage (s : State) (ref : Nat) (accept : Bool) : State :=
  match s.insts.find? fun i => i.iid == ref / 2 ^ 32 with
  | none => s
  | some i =>
    if accept then s.setInst { i with checked := i.checked ++ [ref % 2 ^ 32] } else poisonObject s i.hash

/-- COLLQ: the step completes short, or fails (18 R383). -/
def answerQuorum (s : State) (part ref : Nat) (accept : Bool) : State :=
  match s.reductions.find? fun r =>
      r.part == part && r.group == ref / 2 ^ 32 && r.step == ref % 2 ^ 32 && !r.closed with
  | none => s
  | some r => closeReduction s r (accept && !r.mismatch)

/-- CMSN: the verdict reaches the thread whose ACASK waits for it (09 R220). -/
def answerCmsn (s : State) (part seq : Nat) (accept : Bool) : State :=
  { s with
    blocks := s.blocks.map fun b =>
      if b.part = part then
        { b with threads := b.threads.map fun t =>
            if t.cmsn = some (seq, none) then { t with cmsn := some (seq, some accept) } else t }
      else b }

/-- REPAIR of a bank of near DRAM: it is removed, once no re-striping is under way (17 R369, log 22). -/
def answerDram (s : State) (die bank : Nat) : State :=
  if s.deadDram.contains (die, bank) then s else if striping s die then wantDram s die bank else removeDram s die bank

/-- What an answer, or its want, does for a request (13 R280). -/
def answerAssist (s : State) (part : Nat) (a : Assist) (accept : Bool) (addr : Word) : State :=
  match a.fn with
  | 0 => match s.faults.find? fun f => f.id == a.ref && !f.served && !f.refused with
    | none => s
    | some f => if accept then servedFault s f else refusedFault s f true
  | 1 => answerQueue s part (a.ref % 64) accept
  | 2 => answerEasel s a.ref accept (if accept then addr else 0)
  | 3 => if a.ref / 2 ^ 40 = 5 then answerDram s (a.ref / 2 ^ 32 % 256) (a.ref % 65536) else startDrain s (drainOf a.ref)
  | 4 => answerPage s a.ref accept
  | 5 => answerQuorum s part a.ref accept
  | _ => answerCmsn s part a.seq accept

/-- The request is open no longer. -/
def dropAssist (s : State) (part seq : Nat) : State :=
  s.setPart part { s.part part with assists := (s.part part).assists.filter fun a => a.seq != seq }

/-- Where a response lies in its ring. -/
def responseSlot (s : State) (part : Nat) (n : BitVec 16) : Nat :=
  (s.part part).asbase.toNat + 0x80000 + 64 * (n.toNat % 4096)

/-- The response at the tail of the ring: its sequence number, verdict and address (13 R280, 16 R344). That the number stands in
bytes 4 to 7, as in the request, is the model's choice (DESIGN CHOICE, log 93). -/
def responseAt (s : State) (part : Nat) : Nat × Bool × Word :=
  let a := responseSlot s part (s.part part).asRespTail
  (cellsRead s.mem (a + 4) 4, cellsRead s.mem (a + 8) 1 == 0, BitVec.ofNat 64 (cellsRead s.mem (a + 16) 8))

/-- The host writes a response to the ring and moves its head. -/
def putResponse (s : State) (part seq : Nat) (accept : Bool) (addr : Word) : State :=
  let p := s.part part
  let bytes := zeros 4 ++ leBytes 4 seq ++ leBytes 1 (bit1 (!accept) 0) ++ zeros 7 ++ leBytes 8 addr.toNat ++ zeros 40
  let s : State := { s with mem := cellsPut s.mem (responseSlot s part p.asRespHead) bytes }
  s.setPart part { p with asRespHead := p.asRespHead + 1 }

/-- The device takes the response at the tail. One that answers no open request has no effect. -/
def takeAnswer (s : State) (part : Nat) : State :=
  let (seq, accept, addr) := responseAt s part
  let s := s.setPart part { s.part part with asRespTail := (s.part part).asRespTail + 1 }
  match (s.part part).assists.find? fun a => a.seq == seq && !a.waiting with
  | none => s
  | some a => answerAssist (dropAssist s part seq) part a accept addr

/-- ASSIST_RESPONSE: a response is taken from the ring. While the ring holds none, the event is the host's writing of one. -/
def execAssistResponse (part seq : Nat) (accept : Bool) (addr : Word) (s : State) : Out :=
  if !barOpen s part then .next s
  else
    let p := s.part part
    .next (takeAnswer (if p.asRespTail = p.asRespHead then putResponse s part seq accept addr else s) part)

/-- ASSIST_TIMEOUT: as if refused; the context's ASSIST bit and ISR.ASSIST are set. REPAIR concerns no context. -/
def execAssistTimeout (part seq : Nat) (s : State) : Out :=
  match (s.part part).assists.find? fun a => a.seq == seq with
  | none => .next s
  | some a =>
    if a.waiting ∨ s.time < a.posted + a.limit then .next s
    else
      let s := isrSet (dropAssist s part seq) part 1
      let s := if a.fn = 3 then s else stick s a.ctx stickAssist
      .next (answerAssist s part a false 0)

end Sys2Proof.Machine
end

