-- ==== Sys2Proof/Machine/System.lean ====
section
/-! DEFINITION. Register pages (13 R275 to R286, 14 R288, 18 R374, R385, R386), partitions (13 R277, R278, R286), context
commands (13 R281 to R283), interrupts (13 R285), bring-up (19 R401), power (19 R402) and attestation (19 R400). -/

namespace Sys2Proof.Machine

/-- Bits hi to lo of a value. -/
def bits (v hi lo : Nat) : Nat := v / 2 ^ lo % 2 ^ (hi + 1 - lo)

/-- Filter f and link l of the device page. -/
def State.filter (s : State) (f : Nat) : Filter := s.filters[f % 64]'(Nat.mod_lt _ (by decide))

def State.setFilter (s : State) (f : Nat) (x : Filter) : State :=
  { s with filters := s.filters.set (f % 64) x (Nat.mod_lt _ (by decide)) }

def State.setLink (s : State) (l : Nat) (x : Link) : State :=
  { s with links := s.links.set (l % 16) x (Nat.mod_lt _ (by decide)) }

/-! ## Context records (13 R281) -/

/-- An entry of an atelier map; none where it is not valid, or names no atelier slice of the partition. -/
def mapEntry (s : State) (part : Nat) (e : Nat) : Option (Nat × Nat) :=
  let x := (bits e 3 1, bits e 13 4)
  if e % 2 = 1 ∧ e / 2 ^ 14 = 0 ∧ (s.part part).cfg.dies.getLsbD x.1 ∧ s.atlSlices.contains x then some x else none

/-- The valid entries of an atelier map, with their window pages. -/
def readMap (s : State) (part addr n : Nat) : List (Nat × Nat × Nat) :=
  (List.range n).filterMap fun i =>
    let a := addr + 8 * i
    if !physOk s part a then none else (mapEntry s part (cellsRead s.mem a 8)).map fun x => (i, x.1, x.2)

/-- The fields of a record in range (13 R281). -/
def recordFields (bs : List Byte) : Bool :=
  let n := field bs 64 4
  field bs 0 8 / 2 ^ 10 == 0 && field bs 0 1 == 0 && zeroAt bs 72 184
  && decide (field bs 24 4 ≤ 8192) && decide (field bs 28 4 ≤ 65536)
  && (List.range 13).any (fun i => n == 2 ^ (i + 4))
  && decide (1 ≤ field bs 68 4) && decide (field bs 68 4 ≤ 65535)

/-- The 256 bytes of a context's record; none where memory holds none there. -/
def recordOf (s : State) (part ctx : Nat) : Option (List Byte) :=
  let p := s.part part
  let a := p.ctxbase.toNat + 256 * (ctx - p.cfg.cfirst)
  if physOk s part a && physOk s part (a + 255) && !((List.range 32).any fun i => s.poisoned8 (a + 8 * i)) then
    some (cellsBytes s.mem a 256)
  else none

/-- A context with bytes 8 to 71 of a record. -/
def withRecord (s : State) (c : Ctx) (bs : List Byte) : Ctx :=
  let base := wordAt bs 40
  let moved := c.canvases.filterMap fun x =>
    let a := c.canvasBase.toNat + x.1
    if base.toNat ≤ a then some (a - base.toNat, x.2) else none
  { c with
    ptroot := field bs 8 8, atl := readMap s c.part (field bs 16 8) (field bs 24 4), cmsnN := field bs 28 4,
    cmsnTab := wordAt bs 32, canvasBase := base, canvasSize := field bs 48 8, cfault := wordAt bs 56,
    cfaultN := field bs 64 4, lcap := field bs 68 4, canvases := if c.canvasBase = base then c.canvases else moved }

/-- A context at CREATE. -/
def freshCtx (s : State) (part ctx : Nat) (bs : List Byte) : Ctx :=
  withRecord s
    { id := ctx, part := part, state := .active, redundant := field bs 1 1 % 2 == 1, coresident := field bs 1 1 / 2 % 2 == 1,
      ptroot := 0, atl := [], cmsnN := 0, cmsnTab := 0, canvasBase := wordAt bs 40, canvasSize := 0, cfault := 0,
      cfaultN := 16, lcap := 1, sticky := 0, canvases := [], suspendCanvas := none, nextGrid := 1 } bs

/-! ## Context commands (13 R282) -/

/-- A command on a context of the partition: ignored while BUSY, RESULT 2 for an id outside. -/
def onContext (s : State) (part ctx : Nat) (k : Option Ctx → State) : Out :=
  if (s.part part).ccmdBusy || !barOpen s part then .next s
  else if !inPartition s part ctx then .next (endCmd s part 2)
  else .next (k (s.ctx? ctx))

/-- CTX_CREATE. A record that lies outside the partition's memory, or is poisoned, gives RESULT 3 (DESIGN CHOICE, log 94). -/
def execCtxCreate (part ctx : Nat) (s : State) : Out :=
  onContext s part ctx fun c => match c with
    | some _ => endCmd s part 1
    | none => match recordOf s part ctx with
      | none => endCmd s part 3
      | some bs =>
        if recordFields bs then endCmd { s with ctxs := s.ctxs ++ [freshCtx s part ctx bs] } part 0 else endCmd s part 3

/-- A command is under way. -/
def startCmd (s : State) (part op ctx : Nat) (expo : Bool) : State :=
  s.setPart part { s.part part with ccmdBusy := true, ccmdOp := op, ccmdCtx := ctx, ccmdExpo := expo }

/-- CTX_SUSPEND: every block of the context is captured; what stands as a fault's image stands as its canvas. -/
def execCtxSuspend (part ctx : Nat) (expo : Bool) (s : State) : Out :=
  onContext s part ctx fun c => match c with
    | none => endCmd s part 1
    | some c =>
      if c.state ≠ .active then endCmd s part 1
      else
        let s := startCmd s part 2 ctx expo
        let s := ((s.blocks.filter fun b => b.ctx == ctx && b.state != .ended).map (·.bid)).foldl (fun s bid =>
          match s.block? bid with
          | some b => beginCapture s b
          | none => s) s
        trySuspend s c none

/-- The canvas of a SUSPEND, where the context can be restored from it (16 R350). -/
def resumable? (s : State) (c : Ctx) : Option (Word × List Byte) :=
  match c.suspendCanvas with
  | none => none
  | some a => match canvasAt s (ctxView c.part c.id) a.toNat with
    | .inr _ => none
    | .inl bs =>
      let blocks := ((s.captured.find? fun x => x.ctx == c.id && x.addr == a).map (·.blocks)).getD []
      if (restoreErr s c.part c.id bs blocks).isNone then some (a, bs) else none

/-- CTX_RESUME: the atelier pages return with the first blocks placed, at once where there are none; the context is ACTIVE when
the last block is placed. -/
def execCtxResume (part ctx : Nat) (s : State) : Out :=
  onContext s part ctx fun c => match c with
    | none => endCmd s part 1
    | some c =>
      if c.state ≠ .suspended then endCmd s part 1
      else match resumable? s c with
        | none => endCmd s part 3
        | some (a, bs) =>
          let s := startCmd s part 3 ctx false
          if s.captured.any fun x => x.ctx == ctx && x.addr == a then s
          else
            let s := freeCanvas (restoreAtelier s ctx bs) ctx a
            match s.ctx? ctx with
            | some c => endCmd (s.setCtx { c with state := .active, suspendCanvas := none }) part 0
            | none => s

/-- Instances lose a context that is no more, and an UNLOAD in it ends (log 23). -/
def leaveInsts (s : State) (ctx : Nat) : State :=
  let insts := (s.insts.map fun i =>
    if i.ctxs.contains ctx then
      { i with refs := i.refs - 1, ctxs := i.ctxs.filter (· != ctx), unloading := i.unloading.filter (· != ctx) }
    else i).filter fun i => i.refs != 0
  (s.insts.filter fun i => i.unloading.contains ctx).foldl (fun s i => objResult s i.part (0, 0))
    { s with insts := insts, poisoned := s.poisoned.filter fun h => insts.any fun i => i.hash == h }

/-- The queues of a context stop (14 R289). -/
def stopQueues (s : State) (part ctx : Nat) : State :=
  s.setPart part { s.part part with
    queues := (s.part part).queues.map fun q =>
      if q.ctx = ctx ∧ (q.state = .mapped ∨ q.state = .unmapped) then { q with state := .stopped, err := 4 } else q }

/-- The packets of a context that is going away end ABORTED (14 R291, R292). A completion value that a fault would first have to
be served for is not written: nothing serves the context any more. -/
def abortPackets (s : State) (part ctx : Nat) : State :=
  let s : State := { s with faults := s.faults.filter fun f => f.ctx != ctx }
  let s := (s.packets.filter fun p => p.ctx == ctx).foldl (fun s p =>
    completePacket s p (if p.finished then p.status else 7)) s
  let ready := ((s.part part).queues.toList).filterMap fun q => if q.ctx = ctx then q.ready else none
  let s := ready.foldl (fun s p => finishPacket s p 7) s
  let s := (s.faults.filter fun f => f.ctx == ctx).foldl (fun s f => refusedFault s f false) s
  s.setPart part { s.part part with
    queues := (s.part part).queues.map fun q => if q.ctx = ctx then { q with ready := none } else q }

/-- DESTROY: blocks, canvases and pending launches are gone, and packets in progress end ABORTED (14 R292). The notify dwords of
its queues are to be found anew. -/
def destroyCtx (s : State) (part ctx : Nat) : State :=
  let s := abortPackets (dropBlocks s (s.blocks.filter fun b => b.ctx == ctx)) part ctx
  let s := closeCaps (leaveInsts (stopQueues s part ctx) ctx) fun _ e => e.owner == ctx
  let mine := fun (w : Watch) => w.part == part && ((s.part part).queue w.q).ctx == ctx
  { s with
    ctxs := s.ctxs.filter fun c => c.id != ctx,
    launches := s.launches.filter fun l => l.ctx != ctx,
    nodes := s.nodes.filter fun n => n.ctx != ctx,
    credits := s.credits.filter fun n => n.ctx != ctx,
    commissions := s.commissions.filter fun n => n.ctx != ctx,
    captured := s.captured.filter fun n => n.ctx != ctx,
    faults := s.faults.filter fun f => f.ctx != ctx,
    watch := s.watch.filter fun w => !mine w,
    unarmed := s.unarmed ++ (s.watch.filter mine).map fun w => (w.part, w.q),
    remoteHeld := s.remoteHeld.filter fun r => r.ctx != ctx }

/-- CTX_DESTROY. -/
def execCtxDestroy (part ctx : Nat) (s : State) : Out :=
  onContext s part ctx fun c => match c with
    | none => endCmd s part 1
    | some _ => endCmd (destroyCtx s part ctx) part 0

/-- CTX_CLEARERR (13 R283): the masked bits that are set are cleared and returned. -/
def execCtxClearerr (part ctx : Nat) (mask : BitVec 8) (s : State) : Out :=
  onContext s part ctx fun c => match c with
    | none => endCmd s part 1
    | some c =>
      let s := endCmd (s.setCtx { c with sticky := c.sticky &&& ~~~mask }) part 0
      s.setPart part { s.part part with ccmdCleared := (c.sticky &&& mask).toNat }

/-- Has everything of a context that translated through old entries completed (15 R320)? -/
def ctxDrained (s : State) (ctx : Nat) : Bool := quietCtxs s (· == ctx)

/-- A RELOAD takes effect after its shoot-down. -/
def tryReload (s : State) (part ctx : Nat) : State :=
  if !ctxDrained s ctx then s
  else match s.ctx? ctx, recordOf s part ctx with
    | some c, some bs => if recordFields bs then endCmd (s.setCtx (withRecord s c bs)) part 0 else endCmd s part 3
    | _, _ => endCmd s part 3

/-- CTX_RELOAD. -/
def execCtxReload (part ctx : Nat) (s : State) : Out :=
  onContext s part ctx fun c => match c with
    | none => endCmd s part 1
    | some c =>
      if c.state ≠ .active ∧ c.state ≠ .suspended then endCmd s part 1
      else match recordOf s part ctx with
        | none => endCmd s part 3
        | some bs => if recordFields bs then tryReload (startCmd s part 6 ctx false) part ctx else endCmd s part 3

/-- CTX_BAD_OP. -/
def execCtxBadOp (part : Nat) (_ctx : Nat) (_op : BitVec 4) (s : State) : Out :=
  if (s.part part).ccmdBusy || !barOpen s part then .next s else .next (endCmd s part 4)

/-- The command of a partition that is under way: done when it can be; a context that faulted meanwhile is in the wrong state
(log 23). -/
def settleCommand (s : State) (part : Nat) : State :=
  let p := s.part part
  if !p.ccmdBusy then s
  else match s.ctx? p.ccmdCtx with
    | none => endCmd s part 1
    | some c => match p.ccmdOp with
      | 2 => if c.state = .active then trySuspend s c none else endCmd s part 1
      | 3 => if c.state = .suspended then s else endCmd s part 1
      | _ => if c.state = .faulted then endCmd s part 1 else tryReload s part c.id

/-! ## Interrupts and the fault ring (13 R284, R285) -/

/-- ISR_WRITE: W1C. -/
def execIsrWrite (part : Nat) (value : Word) (s : State) : Out :=
  let p := s.part part
  let m := ~~~(BitVec.ofNat 5 value.toNat)
  if !barOpen s part then .next s else .next (s.setPart part { p with isr := p.isr &&& m, sent := p.sent &&& m })

/-- IMASK_WRITE: a bit of ISR that is set and whose message has not been sent sends it when its mask bit comes. -/
def execImaskWrite (part : Nat) (value : Word) (s : State) : Out :=
  let p := s.part part
  let m := BitVec.ofNat 5 value.toNat
  let now := p.isr &&& m &&& ~~~p.imask &&& ~~~p.sent
  if !barOpen s part then .next s else .next (s.setPart part { p with
    imask := m, sent := p.sent ||| now, msgs := p.msgs ++ (List.range 5).filter fun i => now.getLsbD i })

/-- FRTAIL_WRITE: ignored where the head is not within FRSIZE of it. -/
def execFrtailWrite (part : Nat) (value : Word) (s : State) : Out :=
  let p := s.part part
  let t := BitVec.ofNat 32 value.toNat
  if !barOpen s part || decide (p.frsize < (p.frhead - t).toNat) then .next s else .next (s.setPart part { p with frtail := t })

/-! ## Partitions (13 R277, R278) -/

/-- A configuration without the dies that bring-up left out of every partition (19 R401, log 23). -/
def withoutOut (s : State) (n : PCfg) : PCfg := { n with dies := n.dies &&& ~~~s.dieOut }

/-- The values that PCFG0 and PCFG1 hold. -/
def Part.held (p : Part) : PCfg :=
  let a := p.pcfg0.toNat
  let b := p.pcfg1.toNat
  { dies := BitVec.ofNat 8 a, atl := bits a 12 8, nq := bits a 22 16, far := bits a 31 24, cfirst := bits b 11 0,
    ccount := bits b 28 16 }

/-- The other partitions that are not OFF. -/
def otherParts (s : State) (part : Nat) : List Part :=
  ((List.range 8).filter fun i => i != part % 8 && (s.part i).state != .off).map s.part

/-- Do two ranges of context ids meet? -/
def rangesMeet (a b : PCfg) : Bool :=
  decide (0 < a.ccount) && decide (0 < b.ccount) && decide (a.cfirst < b.cfirst + b.ccount)
  && decide (b.cfirst < a.cfirst + a.ccount)

/-- Check 1 of a GO. The FAR shares overlap where together they exceed the 128 units there are: the spec gives the test no
other form, and the model chose this one (log 77). -/
def goOverlap (s : State) (part : Nat) (n : PCfg) : Bool :=
  let others := otherParts s part
  let far := (others.map fun o => o.cfg.far).sum
  others.any fun o => (o.cfg.dies &&& n.dies) != 0 || rangesMeet o.cfg n
    || (decide (0 < o.cfg.far) && decide (0 < n.far) && decide (128 < far + n.far))

/-- Slices of a die that are not retired. -/
def liveSlices (s : State) (die : Nat) : List Nat :=
  (List.range Config.slices).filter fun n => !s.deadSlices.contains (die, n)

def goRange (s : State) (n : PCfg) : Bool :=
  decide (16 < n.atl) || decide (64 < n.nq) || decide (128 < n.far) || decide (4096 < n.cfirst + n.ccount)
  || (List.range Config.dies).any fun d => n.dies.getLsbD d && decide ((liveSlices s d).length < n.atl * 64)

/-- Is a block resident in a partition, a packet of it being parsed, or its reset in progress? -/
def partBusy (s : State) (part : Nat) : Bool :=
  (s.blocks.any fun b => b.part == part && resident b) || (s.part part).state == .resetting
  || s.faults.any fun f => match f.asker with
    | .parse p _ => p == part
    | _ => false

def goBusy (s : State) (part : Nat) (n : PCfg) : Bool :=
  let moved := (s.part part).cfg.dies ^^^ n.dies
  partBusy s part || (List.range 8).any fun i => (s.part i).cfg.dies &&& moved != 0 && partBusy s i

/-- The atelier slices that a configuration chooses: from slice 1023 down, retired ones skipped. -/
def chosenSlices (s : State) (n : PCfg) : List (Nat × Nat) :=
  (List.range Config.dies).flatMap fun d =>
    if n.dies.getLsbD d then
      let l := liveSlices s d
      (l.drop (l.length - n.atl * 64)).map fun x => (d, x)
    else []

/-- Does a context of the partition map a slice that would leave atelier mode? -/
def goAtelier (s : State) (part : Nat) (new : List (Nat × Nat)) : Bool :=
  s.ctxs.any fun c => c.part == part && c.atl.any fun e => s.atlSlices.contains e.2 && !new.contains e.2

/-- What stops a GO: CFGERR (13 R278). -/
def goError (s : State) (part : Nat) (n : PCfg) : Nat :=
  if goOverlap s part n then 1
  else if goRange s n then 2
  else if goBusy s part n then 3
  else if goAtelier s part (chosenSlices s n) then 4
  else 0

/-- Bytes of slices zeroed. -/
def zeroSlices (s : State) (gone : Nat × Nat → Bool) : State :=
  { s with
    atelier := s.atelier.filter fun c => !gone (c.1 / 65536 / 1024, c.1 / 65536 % 1024),
    atelierPoison := s.atelierPoison.filter fun u => !gone (u / 65536 / 1024, u / 65536 % 1024) }

/-- REPSTAT as the fused repairs of the dies give it (17 R371): nothing that is retired returns to service (00 R1, log 78). -/
def countRepairs (s : State) (p : Part) : Part :=
  let cs := s.cores.filter fun c => p.cfg.dies.getLsbD c.die
  let n := fun (f : CoreStat → List Nat) => (cs.map fun c => (f c).length).sum
  { p with
    regb := min 4095 (n (·.regs)), spb := min 4095 (n (·.scratch)), accb := min 255 (n (·.acc)), l1b := min 255 (n (·.l1)),
    dramb := min 255 (s.deadDram.filter fun d => p.cfg.dies.getLsbD d.1).length,
    coresLost := min 255 (cs.filter (·.lost)).length }

/-- A GO that applies: the partition is CONFIGURING until it has ended. The slices of a die that it gives up leave atelier mode. -/
def applyGo (s : State) (part : Nat) (n : PCfg) : State :=
  let new := chosenSlices s n
  let p := s.part part
  let old := s.atlSlices.filter fun x => n.dies.getLsbD x.1
  let s : State := { s with
    atlSlices := (s.atlSlices.filter fun x => !(n.dies ||| p.cfg.dies).getLsbD x.1) ++ new,
    marks := s.marks.filter fun m => !(m.atelier && (n.dies ||| p.cfg.dies).getLsbD (m.addr / 2 ^ 26)) }
  let s := zeroSlices s fun x => n.dies.getLsbD x.1 && (!old.contains x || !new.contains x)
  isrSet (s.setPart part (countRepairs s { p with cfg := n, cfgerr := 0, aret := 0, state := .configuring })) part 3

/-- The partition page at its reset values; what the device page holds stays (13 R286 step 5). -/
def afterReset (s : State) (p : Part) : Part :=
  countRepairs s { Part.resetWith p.pcfg0 p.pcfg1 p.cfg .active with
    cfgerr := p.cfgerr, aret := p.aret, scrub := p.scrub, msgs := p.msgs }

/-- A GO or a reset that is under way ends. -/
def endChange (s : State) (part : Nat) : State :=
  let p := s.part part
  match p.state with
  | .configuring => isrSet (s.setPart part { p with state := if p.cfg.dies = 0 then .off else .active }) part 3
  | .resetting => isrSet (s.setPart part (afterReset s p)) part 3
  | _ => s

/-- A GO or a reset that is asked for during a GO begins when that has ended. -/
def goEnded (s : State) (part : Nat) : State := if (s.part part).state = .configuring then endChange s part else s

/-- PARTITION_GO: the held values are checked and applied. -/
def execPartitionGo (part : Nat) (s : State) : Out :=
  let s := goEnded s part
  let p := s.part part
  let n := withoutOut s p.held
  match goError s part n with
  | 0 => .next (applyGo s part n)
  | e =>
    let s' := s.setPart part { p with cfgerr := e }
    .next (if p.cfgerr = e then s' else isrSet s' part 3)

/-! ## Reset (13 R286) -/

/-- Near DRAM of the dies zeroed. -/
def zeroNear (s : State) (dies : BitVec 8) : State :=
  let mine := fun (pa : Nat) => decide (pa < 8 * Config.nearBytes) && dies.getLsbD (pa / Config.nearBytes)
  { s with mem := s.mem.filter fun c => !mine c.1, poison := s.poison.filter fun u => !mine u }

/-- Steps 1 to 4 of a reset; the partition is RESETTING until it has ended. -/
def resetPartition (s : State) (part : Nat) : State :=
  let s := goEnded s part
  let p := s.part part
  let s := isrSet (s.setPart part { p with state := .resetting }) part 3
  let mine := fun (ctx : Nat) => (s.ctx? ctx).any fun c => c.part == part
  let s := dropBlocks s (s.blocks.filter fun b => b.part == part)
  let insts := s.insts.filter fun i => i.part != part
  let s : State := { s with
    launches := s.launches.filter fun l => l.part != part,
    nodes := s.nodes.filter fun n => n.part != part,
    credits := s.credits.filter fun n => !mine n.ctx,
    commissions := s.commissions.filter fun n => n.part != part,
    captured := s.captured.filter fun n => n.part != part,
    packets := s.packets.filter fun x => x.part != part,
    faults := s.faults.filter fun f => f.part != part,
    remoteHeld := s.remoteHeld.filter fun r => r.part != part,
    watch := s.watch.filter fun w => w.part != part,
    unarmed := s.unarmed.filter fun x => x.1 != part,
    snooped := s.snooped.filter fun x => x.1 != part,
    closing := s.closing.filter fun x => x.1 != part,
    reductions := s.reductions.filter fun r => r.part != part,
    caps := (closeCaps s fun h e => h / 64 == part || (decide (512 ≤ h) && mine e.owner)).caps,
    ctxs := s.ctxs.filter fun c => c.part != part,
    insts := insts,
    poisoned := s.poisoned.filter fun h => insts.any fun i => i.hash == h,
    warm := s.warm.filter fun w => !p.cfg.dies.getLsbD w.1,
    icache := s.icache.filter fun l => !p.cfg.dies.getLsbD l.die,
    fills := s.fills.filter fun l => !p.cfg.dies.getLsbD l.line.die }
  let s := zeroSlices s fun x => p.cfg.dies.getLsbD x.1
  if p.scrub then zeroNear s p.cfg.dies else s

/-- PARTITION_RESET: a write of PRST with RST; ignored while a reset is in progress. -/
def execPartitionReset (part : Nat) (scrub : Bool) (s : State) : Out :=
  if (s.part part).state = .resetting then .next s
  else .next (resetPartition (s.setPart part { s.part part with scrub := scrub }) part)

/-- FUNCTION_LEVEL_RESET: the same reset, with SCRUB as held. -/
def execFunctionLevelReset (part : Nat) (s : State) : Out :=
  if !barOpen s part then .next s else .next (resetPartition s part)

/-! ## Registers (13 R275, R276) -/

/-- A write of a register of the partition page that has no behaviour of its own. -/
def writePart (s : State) (part off : Nat) (value : Word) : State :=
  let p := s.part part
  let v := value.toNat
  let page : Word := BitVec.ofNat 64 (v / 4096 * 4096)
  let line : Word := BitVec.ofNat 64 (v / 64 * 64)
  let put := fun (x : Part) => s.setPart part x
  if 0x400 ≤ off ∧ off < 0xC00 then
    let q := (off - 0x400) / 32
    let x := p.queue q
    if x.en || !queueThere s part q then s
    else match (off - 0x400) % 32 with
      | 0x00 => put (p.setQueue q { x with base := page })
      | 0x10 => put (p.setQueue q { x with naddr := line })
      | _ => s
  else match off with
    | 0x000 => put { p with dsplit := BitVec.ofNat 7 v, atmo := bits v 47 32 }
    | 0x008 => put { p with ctxbase := page }
    | 0x028 => put { p with frbase := page }
    | 0x030 => if (List.range 13).any fun i => v == 2 ^ (i + 4) then put { p with frsize := v } else s
    | 0x050 => put { p with asbase := page }
    | 0x060 => put { p with asReqTail := BitVec.ofNat 16 v, asRespHead := BitVec.ofNat 16 (bits v 47 32) }
    | 0x078 => if p.tinvDone then put { p with tinva := page } else s
    | 0x098 => put { p with fgtBase := page }
    | 0x0A0 => if v ≤ 4096 then put { p with fgtN := v } else s
    | 0x0B8 => put { p with okeyBase := line }
    | 0x0C0 => if v % 32 ≤ 16 then put { p with okeyN := v % 32 } else s
    | _ => s

/-- PTPFREQ: clamped to ±1,000 ppm (18 R385). -/
def clampAdj (v : Nat) : BitVec 32 := BitVec.ofInt 32 (max (-65536000) (min 65536000 (BitVec.ofNat 32 v).toInt))

/-- A write of an ingress filter's register: its fields take effect while EN is 0, and EN itself always (18 R386, log 24). -/
def writeFilter (x : Filter) (off v : Nat) : Filter :=
  match off with
  | 0x00 =>
    let en := v % 2 == 1
    if x.en then { x with en := en }
    else
      let sz := bits v 23 20
      { x with
        en := en, link := bits v 4 1, part := bits v 7 5, ctx := bits v 19 8, nslot := bits v 27 24,
        slotSz := if 7 ≤ sz ∧ sz ≤ 14 then sz else x.slotSz }
  | 0x08 => if x.en then x else { x with mtch := BitVec.ofNat 64 v }
  | 0x10 => if x.en then x else { x with mask := BitVec.ofNat 64 v }
  | 0x18 => if x.en then x else { x with base := BitVec.ofNat 64 (v / 64 * 64) }
  | _ => x

/-- A write of a register of the device page that has no behaviour of its own. -/
def writeDev (s : State) (off : Nat) (value : Word) : State :=
  let v := value.toNat
  if 0x10000 ≤ off ∧ off < 0x18000 then writePart s ((off - 0x10000) / 0x1000) (off % 0x1000) value
  else if 0x2000 ≤ off ∧ off < 0x3000 then
    let f := (off - 0x2000) / 64
    s.setFilter f (writeFilter (s.filter f) ((off - 0x2000) % 64) v)
  else if 0x100 ≤ off ∧ off < 0x200 then
    let part := (off - 0x100) / 32
    let p := s.part part
    match (off - 0x100) % 32 with
    | 0x00 => s.setPart part { p with
        pcfg0 := BitVec.ofNat 64 (bits v 12 0 + 2 ^ 16 * bits v 22 16 + 2 ^ 24 * bits v 31 24) }
    | 0x08 => s.setPart part { p with pcfg1 := BitVec.ofNat 64 (bits v 11 0 + 2 ^ 16 * bits v 28 16) }
    | 0x18 => s.setPart part { p with scrub := v / 2 % 2 == 1 }
    | _ => s
  else if off = 0x420 then { s with ptpFreq := clampAdj v }
  else s

/-- What stops an access to a register: an unaligned one and one to the page of a resetting partition are aborted, and the page of
an OFF partition belongs to no enabled function (13 R275, 18 R372, R373). -/
def registerStop (s : State) (space : RegSpace) (off : Nat) : Option HostAnswer :=
  if off % 8 ≠ 0 then some .abort
  else match space with
    | .part p => match (s.part p).state with
      | .resetting => some .abort
      | .off => some .unsupported
      | _ => none
    | _ => none

/-- The HDM decoder maps 384 GiB from HDMBASE on, which CXL aligns to 256 MiB (18 R372, PRESUMED, log 25). -/
def hdmAligned (v : Nat) : Nat := v / 2 ^ 28 * 2 ^ 28

/-- REGISTER_WRITE: an aligned write; every other access is aborted and changes nothing (13 R275). -/
def execRegisterWrite (space : RegSpace) (off : Nat) (value : Word) (s : State) : Out :=
  match registerStop s space off with
  | some a => .next { s with hostAnswer := some a }
  | none => .next (match space with
    | .dev => writeDev s off value
    | .part p => writePart s p off value
    | .hdm => { s with hdmBase := some (hdmAligned value.toNat) })

def PState.code : PState → Nat
  | .off => 0
  | .active => 1
  | .resetting => 2
  | .configuring => 3

def QState.code : QState → Nat
  | .disabled => 0
  | .unmapped => 1
  | .mapped => 2
  | .stopped => 3

/-- What a read of a register of the partition page returns. -/
def readPart (s : State) (part off : Nat) : Nat :=
  let p := s.part part
  if 0x400 ≤ off ∧ off < 0xC00 then
    let q := (off - 0x400) / 32
    let x := p.queue q
    if !queueThere s part q then 0
    else match (off - 0x400) % 32 with
      | 0x00 => x.base.toNat
      | 0x08 => bit1 x.en 0 + 2 ^ 3 * x.cls + 2 ^ 5 * x.weight + 2 ^ 13 * x.size + 2 ^ 17 * x.ctx
      | 0x10 => x.naddr.toNat
      | 0x18 => x.head + 2 ^ 16 * x.state.code + 2 ^ 24 * x.err
      | _ => 0
  else match off with
    | 0x000 => p.dsplit.toNat + 2 ^ 32 * p.atmo
    | 0x008 => p.ctxbase.toNat
    | 0x020 => bit1 p.ccmdBusy 0 + 2 * p.ccmdResult + 2 ^ 8 * p.ccmdCleared.toNat
    | 0x028 => p.frbase.toNat
    | 0x030 => p.frsize
    | 0x038 => p.frhead.toNat
    | 0x040 => p.frtail.toNat
    | 0x048 => p.frlost.toNat
    | 0x050 => p.asbase.toNat
    | 0x058 => p.asReqHead.toNat + 2 ^ 32 * p.asRespTail.toNat
    | 0x060 => p.asReqTail.toNat + 2 ^ 32 * p.asRespHead.toNat
    | 0x068 => p.isr.toNat
    | 0x070 => p.imask.toNat
    | 0x078 => p.tinva.toNat
    | 0x080 => p.tinvCtx + 2 ^ 12 * p.tinvScope + 2 ^ 14 * p.tinvSize + bit1 p.tinvDone 17 + bit1 p.tinvRej 18
    | 0x088 => p.regb + 2 ^ 12 * p.spb + 2 ^ 24 * p.accb + 2 ^ 32 * p.l1b + 2 ^ 40 * p.dramb + 2 ^ 48 * p.coresLost
        + bit1 p.mig 56
    | 0x090 => p.migWm + 2 ^ 20 * p.migDie
    | 0x098 => p.fgtBase.toNat
    | 0x0A0 => p.fgtN
    | 0x0B0 => bit1 p.ocmdBusy 0 + 2 ^ 8 * p.ocmdResult + 2 ^ 16 * p.ocmdIndex
    | 0x0B8 => p.okeyBase.toNat
    | 0x0C0 => p.okeyN
    | _ => 0

/-- What a read of a register of the device page returns (13 R276). -/
def readDev (s : State) (off : Nat) : Nat :=
  if 0x10000 ≤ off ∧ off < 0x18000 then readPart s ((off - 0x10000) / 0x1000) (off % 0x1000)
  else if 0x2000 ≤ off ∧ off < 0x3000 then
    let x := s.filter ((off - 0x2000) / 64)
    match (off - 0x2000) % 64 with
    | 0x00 => bit1 x.en 0 + 2 * x.link + 2 ^ 5 * x.part + 2 ^ 8 * x.ctx + 2 ^ 20 * x.slotSz + 2 ^ 24 * x.nslot
    | 0x08 => x.mtch.toNat
    | 0x10 => x.mask.toNat
    | 0x18 => x.base.toNat
    | 0x20 => x.drops.toNat
    | _ => 0
  else if 0x800 ≤ off ∧ off < 0xC00 then
    let x := s.link ((off - 0x800) / 64)
    match (off - 0x800) % 64 with
    | 0x00 => bit1 x.en 0 + bit1 x.ethernet 1
    | 0x08 => x.state + bit1 x.modeErr 3 + 2 ^ 16 * x.peer.toNat
    | 0x18 => x.replay.toNat + 2 ^ 32 * x.crcErr.toNat
    | _ => 0
  else if 0x100 ≤ off ∧ off < 0x200 then
    let p := s.part ((off - 0x100) / 32)
    match (off - 0x100) % 32 with
    | 0x00 => p.pcfg0.toNat
    | 0x08 => p.pcfg1.toNat
    | 0x10 => p.state.code + 2 ^ 2 * p.cfgerr + 2 ^ 16 * min 1023 p.aret
    | 0x18 => bit1 p.scrub 1
    | _ => 0
  else match off with
    | 0x000 => Config.devId.toNat
    | 0x008 => s.fid.toNat
    | 0x010 => s.stage + bit1 s.halt 4 + 2 ^ 5 * s.dieOut.toNat + bit1 s.atex 13 + bit1 s.therm 14
    | 0x408 => s.ptpLatchSec
    | 0x410 => s.ptpLatchNs
    | 0x420 => s.ptpFreq.toNat
    | _ => 0

/-- What a read of a register gets. -/
def readRegister (s : State) (space : RegSpace) (off : Nat) : HostAnswer :=
  (registerStop s space off).getD (.data (leBytes 8 (match space with
    | .dev => readDev s off
    | .part p => readPart s p off
    | .hdm => s.hdmBase.getD 0)) false)

/-! ## Attestation (19 R400) -/

/-- Bytes 0 to 127 of a report. -/
def reportBytes (s : State) (nonce : List Byte) : List Byte :=
  let cfgs := (List.range 8).flatMap fun p => leBytes 8 (s.part p).pcfg0.toNat ++ leBytes 8 (s.part p).pcfg1.toNat
  nonce ++ s.fwDigest ++ leBytes 8 Config.devId.toNat ++ leBytes 4 s.fwVersion.toNat ++ zeros 4 ++ sha256 cfgs ++ zeros 16

/-- ATTESTATION_REQUEST: the report is written at the request's address + 64; without an index left it bears no signature. -/
def execAttestationRequest (addr : Word) (s : State) : Out :=
  let a := hostStart + addr.toNat
  let rep := reportBytes s (cellsBytes s.mem a 32)
  if s.attestIdx < s.attestEnd then
    .next { s with
      attestIdx := s.attestIdx + 1,
      atex := s.atex || decide (s.attestEnd ≤ s.attestIdx + 1),
      mem := cellsPut s.mem (a + 64) (rep ++ hssSign s.attestIdx rep) }
  else .next { s with atex := true, mem := cellsPut s.mem (a + 64) rep }

/-! ## Bring-up (19 R401) -/

/-- Partitions at their reset values; partition 0 holds every die that works. -/
def bringParts (s : State) : Vector Part 8 :=
  let dies : BitVec 8 := ~~~s.dieOut
  let cfg : PCfg := { dies := dies, atl := 4, nq := 64, far := 128, cfirst := 0, ccount := 4096 }
  (Vector.replicate 8 Part.resetOff).set 0
    (countRepairs s <| Part.resetWith (BitVec.ofNat 64 (0x80400400 + dies.toNat)) 0x1000_0000 cfg .active)

/-- A device reset: only what is fused, kept in non-volatile storage or outside the device stays, with the inputs that are
still to come (log 23). -/
def deviceReset (s : State) : State :=
  { State.reset with
    cycle := s.cycle, time := s.time, timeSub := s.timeSub, freeCount := s.freeCount, nextId := s.nextId, inbox := s.inbox,
    mem := s.mem.filter fun c => decide (hostStart ≤ c.1),
    cores := s.cores, deadSlices := s.deadSlices, deadDram := s.deadDram,
    atlSlices := chosenSlices s { dies := 0xFF, atl := 4, nq := 64, far := 128, cfirst := 0, ccount := 4096 },
    failStage := s.failStage, failDies := s.failDies, failCores := s.failCores, firmware := s.firmware, fwKeyDigest := s.fwKeyDigest,
    attestIdx := s.attestIdx, attestEnd := s.attestEnd,
    atex := s.atex, fwDigest := s.fwDigest, fwVersion := s.fwVersion }

/-- The boot ROM accepts an image: signed by the key whose digest it holds, of at least the fused version, each page of its
digest. What the signature covers is the model's choice: the version and the digests (DESIGN CHOICE, log 23). -/
def Firmware.accepted (x : Firmware) (keyDigest : List Byte) (fused : BitVec 32) : Bool :=
  sha256 x.key == keyDigest && hssVerify x.key (beBytes x.version ++ x.hashes.flatten) x.sig
  && decide (fused.toNat ≤ x.version.toNat) && x.pages.map sha256 == x.hashes

/-- Does a stage of bring-up halt the device? -/
def stageHalts (s : State) (n : Nat) : Bool :=
  match n with
  | 1 => s.failStage == some 1 || !s.firmware.all fun x => x.accepted s.fwKeyDigest s.fwVersion
  | 2 => s.failStage == some 2
  | 6 => s.failStage == some 6
  | _ => false

/-- A core without a valid palette map counts as lost. -/
def mapLost (s : State) (x : Nat × Nat) : State := setCoreStat s { coreStat s x.1 x.2 with lost := true }

/-- BRING_UP: the next stage, or, once up, halted or without power, a reset of the device. -/
def execBringUp (s : State) : Out :=
  if 7 ≤ s.stage ∨ s.halt ∨ !s.powered then .next (deviceReset s)
  else
    let n := s.stage + 1
    if stageHalts s n then .next { s with halt := true }
    else
      let s : State := { s with stage := n }
      .next (match n with
        | 1 => match s.firmware with
          | some x => { s with fwDigest := sha256 x.pages.flatten }
          | none => s
        | 3 => { s with dieOut := s.failDies }
        | 4 => s.failCores.foldl mapLost s
        | 5 => { s with routes := Config.routes }
        | 7 => { s with parts := bringParts s }
        | _ => s)

/-! ## Power (19 R402) -/

/-- SUPPLY_SAG: the group's clock, no lower than the floor; a sag that is over leaves only what it held the clock back. -/
def execSupplySag (group mhz : Nat) (s : State) : Out :=
  let f := max Config.floorMHz mhz
  let x := (s.sags.find? fun x => x.group == group).getD { group := group, mhz := 0, lag := 0, sub := 0 }
  .next { s with
    sags := (s.sags.filter fun x => x.group != group) ++ [{ x with mhz := if s.mhz ≤ f then 0 else f }] }

/-- MODULE_POWER_LIMIT: firmware lowers the clock, never below the floor. -/
def execModulePowerLimit (mhz : Nat) (s : State) : Out :=
  .next { s with mhz := min s.mhz (max Config.floorMHz mhz) }

/-- THERMAL_TRIP. -/
def execThermalTrip (s : State) : Out :=
  if s.therm then .next s
  else .next ((List.range 8).foldl (fun s p => isrSet s p 3) { s with therm := true, thermAt := s.time })

/-- THERMAL_POWER_OFF: after 10 ms the compute dies lose power, and all state on them. -/
def execThermalPowerOff (s : State) : Out :=
  if !s.therm ∨ s.time < s.thermAt + micros 10000 then .next s
  else
    let s := dropBlocks s s.blocks
    let s := zeroNear (zeroSlices s fun _ => true) 0xFF
    .next { s with
      powered := false, warm := [], icache := [], fills := [], group := [], picked := false, todo := [], cur := none, pents := [],
      commissions := [], launches := [], nodes := [], credits := [], captured := [], packets := [], faults := [] }

end Sys2Proof.Machine
end

