-- ==== Sys2Proof/Machine/Links.lean ====
section
/-! DEFINITION. The fabric links (18 R374), the PTP clock (18 R385), frames from Ethernet-mode links (18 R385 to R387), and the
host's accesses (18 R372, R373). -/

namespace Sys2Proof.Machine

/-! ## Links (18 R374) -/

def stateDown : Nat := 0

def stateTraining : Nat := 1

def stateUp : Nat := 2

def stateFailed : Nat := 3

/-- Links in Ethernet mode. -/
def ethernetLinks (s : State) : Nat := (s.links.toList.filter (·.ethernet)).length

/-- The MODE field of a write: it takes effect while EN is 0, and a fifth Ethernet link is refused. -/
def writeMode (s : State) (x : Link) (mode : Bool) : Link :=
  if x.en then x
  else if mode && !x.ethernet && decide (4 ≤ ethernetLinks s) then { x with ethernet := false, modeErr := true }
  else { x with ethernet := mode, modeErr := x.modeErr && !mode }

/-- LINK_CONTROL_WRITE: an enabled link trains; a disabled one is DOWN. -/
def execLinkControlWrite (link : Nat) (value : Word) (s : State) : Out :=
  let x := s.link link
  let y := writeMode s x (value.getLsbD 1)
  let en := value.getLsbD 0
  .next (s.setLink link (if en = x.en then y
    else if en then { y with en := true, state := stateTraining, peer := 0 }
    else { y with en := false, state := stateDown, peer := 0 }))

/-- FID_WRITE: ignored unless every link has EN 0. -/
def execFidWrite (value : Word) (s : State) : Out :=
  .next (if s.links.toList.any (·.en) then s else { s with fid := BitVec.ofNat 12 value.toNat })

/-- LINK_TRAINING: a link in training is UP and, in fabric mode, knows its peer. -/
def execLinkTraining (link : Nat) (peer : BitVec 12) (s : State) : Out :=
  let x := s.link link
  .next (if x.en ∧ x.state = stateTraining then
      s.setLink link { x with state := stateUp, peer := if x.ethernet then 0 else peer }
    else s)

/-- A saturating count of 32 bits. -/
def satInc (n : BitVec 32) : BitVec 32 := if n = BitVec.allOnes 32 then n else n + 1

/-- FLIT_REPLAY: a flit that this device sent is replayed, or one that it received had a bad CRC. -/
def execFlitReplay (link : FlitError) (s : State) : Out :=
  let count := fun (l : Nat) (f : Link → Link) =>
    let x := s.link l
    if x.state = stateUp ∧ !x.ethernet then s.setLink l (f x) else s
  .next (match link with
    | .replayed l => count l fun x => { x with replay := satInc x.replay }
    | .badCrc l => count l fun x => { x with crcErr := satInc x.crcErr })

/-- LINK_FAILED: an UP link that loses its peer or its signal. -/
def execLinkFailed (link : Nat) (failed : Bool) (s : State) : Out :=
  let x := s.link link
  .next (if x.state = stateUp then
      s.setLink link { x with state := if failed then stateFailed else stateDown }
    else s)

/-! ## The PTP clock (18 R385) -/

/-- Wall-clock time a cycle later: 1000 / MHz ns. -/
def advanceTime (s : State) : State :=
  let n := s.timeSub + 65536000
  { s with time := s.time + n / s.mhz, timeSub := n % s.mhz }

/-- A cycle of the main clock goes by: a group whose clock a sag stretches falls behind (00 R6, 19 R402). -/
def holdBack (mhz : Nat) (x : Sag) : Sag :=
  if x.mhz = 0 then x
  else
    let n := x.sub + (mhz - x.mhz)
    { x with lag := x.lag + n / mhz, sub := n % mhz }

/-- The clock a cycle later: 1000 / MHz ns, corrected by ADJ × 2^-16 ppm. -/
def advanceClock (s : State) : State :=
  let rate := (65536000000 + s.ptpFreq.toInt).toNat * 1000
  let unit := s.mhz * 1000000
  let sub := s.ptpSub + rate
  let frac := s.ptpFrac + sub / unit
  let ns := s.ptpNs + frac / 65536
  { s with
    ptpSub := sub % unit, ptpFrac := frac % 65536, ptpNs := ns % 10 ^ 9, ptpSec := (s.ptpSec + ns / 10 ^ 9) % 2 ^ 48 }

/-- PTP_LATCH. -/
def execPtpLatch (s : State) : Out := .next { s with ptpLatchSec := s.ptpSec, ptpLatchNs := s.ptpNs }

/-- A packet whose deadline a forward step puts behind the clock counts as late from then on; those of an INDIRECT's buffer will,
once they are parsed. -/
def lateAfter (step : Nat × Nat) (p : Packet) : Packet :=
  { p with late := p.late || (p.typ == 8 && passedBy [step] (packetDeadline p)), steps := p.steps ++ [step] }

/-- A queue after a forward step: its packet at the commit point, and those in its ring. -/
def queueAfter (step : Nat × Nat) (q : Queue) : Queue :=
  { q with ready := q.ready.map (lateAfter step), marks := q.marks.map fun m => { m with steps := m.steps ++ [step] } }

/-- PTP_STEP: signed nanoseconds at one instant; the count wraps at its width. -/
def execPtpStep (offset : Word) (s : State) : Out :=
  let t := (((ptpNow s : Int) + offset.toInt) % ((2 : Int) ^ 48 * 10 ^ 9)).toNat
  let step := (ptpNow s, t)
  let s : State := { s with ptpSec := t / 10 ^ 9, ptpNs := t % 10 ^ 9 }
  if offset.toInt ≤ 0 then .next s
  else .next { s with
    packets := s.packets.map (lateAfter step),
    parts := s.parts.map fun p => { p with queues := p.queues.map (queueAfter step) } }

/-! ## Frames (18 R385 to R387) -/

/-- A big-endian number of bytes of a frame. -/
def beField (bs : List Byte) (off n : Nat) : Nat := (sub bs off n).foldl (fun a b => a * 256 + b.toNat) 0

/-- Where the EtherType lies, after any VLAN tag; fuel bounds the tags. -/
def typeAt (bs : List Byte) : Nat → Nat → Nat
  | 0, off => off
  | n + 1, off => if beField bs off 2 = 0x8100 ∨ beField bs off 2 = 0x88A8 then typeAt bs n (off + 4) else off

/-- Is a UDP header's destination one of the PTP ports? -/
def ptpPort (bs : List Byte) (off : Nat) : Bool := beField bs (off + 2) 2 == 319 || beField bs (off + 2) 2 == 320

/-- Is a frame one of the PTP protocol: layer 2, or UDP over IPv4 or IPv6? -/
def isPtp (bs : List Byte) : Bool :=
  let t := typeAt bs 4 12
  let ip := t + 2
  match beField bs t 2 with
  | 0x88F7 => true
  | 0x0800 => byteAt bs (ip + 9) == 17 && ptpPort bs (ip + byteAt bs ip % 16 * 4)
  | 0x86DD => byteAt bs (ip + 6) == 17 && ptpPort bs (ip + 40)
  | _ => false

/-- Does a link bring frames: it is up, in Ethernet mode? -/
def bringsFrames (l : Link) : Bool := l.ethernet && l.en && l.state == stateUp

/-- Where the header of a PTP message begins in its frame: after the EtherType, or after the UDP header. -/
def ptpHeaderAt (bs : List Byte) : Nat :=
  let t := typeAt bs 4 12
  match beField bs t 2 with
  | 0x0800 => t + 2 + byteAt bs (t + 2) % 16 * 4 + 8
  | 0x86DD => t + 2 + 48
  | _ => t + 2

/-- A number as n big-endian bytes. -/
def beNum (n v : Nat) : List Byte := (leBytes n v).reverse

/-- One-step timestamping: the time goes into the message's originTimestamp, and its fraction of a nanosecond is added to the
correction field. Where IEEE 1588 has these fields is no part of the spec (PRESUMED, log 25). -/
def stampFrame (s : State) (bs : List Byte) : List Byte :=
  let h := ptpHeaderAt bs
  let bs := splice bs (h + 8) (beNum 8 (beField bs (h + 8) 8 + s.ptpFrac))
  splice bs (h + 34) (beNum 6 s.ptpSec ++ beNum 4 s.ptpNs)

/-- A PTP frame as the control cores have it, with the time at which it passed. -/
def ptpRecord (s : State) (link : Nat) (way : PtpWay) (bs : List Byte) : PtpFrame :=
  { way := way, link := link % 16, sec := s.ptpSec, ns := s.ptpNs, frac := s.ptpFrac, bytes := bs }

/-- PTP_MESSAGE: a PTP frame comes to the control cores, or leaves them with a timestamp of one or two steps; a received frame
with a bad FCS is discarded (18 R385, R386). -/
def execPtpMessage (link : Nat) (frame : PtpPassing) (s : State) : Out :=
  let record := fun (bs : List Byte) => { s with ptpFrames := s.ptpFrames ++ [ptpRecord s link frame.way bs] }
  .next (if !bringsFrames (s.link link) then s
    else match frame.way with
      | .received => if frame.fcsOk then record frame.bytes else s
      | .oneStep => record (stampFrame s frame.bytes)
      | .twoStep => record frame.bytes)

/-- Does a filter match a frame of a link? The address's first byte on the wire is its highest (log 25). -/
def filterMatches (x : Filter) (link : Nat) (bs : List Byte) : Bool :=
  let key : Word := BitVec.ofNat 64 (beField bs 0 6 + 2 ^ 48 * beField bs (typeAt bs 4 12) 2)
  x.en && x.link == link && (key ^^^ x.mtch) &&& x.mask == 0

/-- The slot's bytes: stamp, length, link, truncation and the frame. -/
def slotBytes (s : State) (x : Filter) (link : Nat) (bs : List Byte) : List Byte :=
  let room := 2 ^ x.slotSz - 16
  leBytes 6 s.ptpSec ++ leBytes 4 s.ptpNs ++ leBytes 2 s.ptpFrac ++ leBytes 2 (min bs.length room) ++ leBytes 1 link
  ++ leBytes 1 (bit1 (decide (room < bs.length)) 0) ++ bs.take room

/-- A frame for a window: its slot, then WRITTEN; none where it is dropped. -/
def writeSlot (s : State) (x : Filter) (link : Nat) (bs : List Byte) : Option State :=
  let v := ctxView x.part x.ctx
  let base := x.base.toNat
  match peek s v base 16 with
  | .inr _ => none
  | .inl w =>
    let written := field w 0 8
    let slot := base + 64 + 2 ^ x.slotSz * (written % 2 ^ x.nslot)
    if (BitVec.ofNat 64 written - BitVec.ofNat 64 (field w 8 8)).toNat < 2 ^ x.nslot
        ∧ rangeOk s v needW slot (2 ^ x.slotSz) ∧ rangeOk s v needW base 8 then
      match storeBytes s v slot (slotBytes s x link bs) with
      | (s', none) => match storeAt s' v base 8 (written + 1) with
        | .inl s'' => some s''
        | .inr _ => none
      | (_, some _) => none
    else none

/-- INGRESS_FRAME: to the control cores, to the enabled filter of lowest number that matches, or discarded, as a frame with a bad
FCS is. -/
def execIngressFrame (link : Nat) (frame : RxFrame) (s : State) : Out :=
  if !bringsFrames (s.link link) || !frame.fcsOk then .next s
  else if isPtp frame.bytes then .next { s with ptpFrames := s.ptpFrames ++ [ptpRecord s link .received frame.bytes] }
  else match (List.range 64).find? fun f => filterMatches (s.filter f) (link % 16) frame.bytes with
    | none => .next s
    | some f =>
      let x := s.filter f
      match writeSlot s x (link % 16) frame.bytes with
      | some s' => .next s'
      | none => .next (s.setFilter f { x with drops := satInc x.drops })

/-! ## The host (18 R372, R373) -/

/-- Bytes written by the host, which clear poison and are seen by the snoop filter as any write is. -/
def hostWrite (s : State) (a : Nat) (bs : List Byte) : State :=
  { s with
    mem := cellsPut s.mem a bs,
    snooped := s.snooped ++ snoopHits s (fun x => decide (a ≤ x) && decide (x < a + bs.length)),
    poison := poisonLeft (fun x => decide (a ≤ x) && decide (x < a + bs.length)) s.poison }

/-- The device's physical address of a host address in the HDM decoder's range: HDMBASE + a is a (18 R372). -/
def hdmPlace (s : State) (addr : Nat) : Option Nat :=
  s.hdmBase.bind fun base => if base ≤ addr ∧ addr < base + 8 * Config.nearBytes then some (addr - base) else none

/-- An access to device memory through the HDM decoder. In a partition that is resetting a read returns data marked poisoned and a
write is dropped (18 R373). -/
def hdmAccess (s : State) (a : Nat) (wr : Option (List Byte)) (len : Nat) : State :=
  let die := a / Config.nearBytes
  let resetting := (partOfDie s die).any fun p => (s.part p).state == .resetting
  let absent := decide (Config.nearBytes - unbacked s die < a % Config.nearBytes + (wr.map (·.length)).getD len)
  match wr with
  | none => { s with
      hostAnswer := some (.data (cellsBytes s.mem a len)
        (resetting || absent || (List.range len).any fun i => s.poison.contains (a + i))) }
  | some bs => if resetting || absent then s else hostWrite s a bs

/-- HOST_MEM_ACCESS: through the HDM decoder to near DRAM; at every other address the host's own memory, which the device reaches
from 0x8_0000_0000_0000 on (18 R372, log 25). A host address beyond what R315 maps there is answered as unsupported. -/
def execHostMemAccess (addr : Nat) (wr : Option (List Byte)) (len : Nat) (s : State) : Out :=
  match hdmPlace s addr with
  | some a => .next (hdmAccess s a wr len)
  | none =>
    if hostStart < addr + (wr.map (·.length)).getD len then .next { s with hostAnswer := some .unsupported }
    else match wr with
      | none => .next { s with hostAnswer := some (.data (cellsBytes s.mem (hostStart + addr) len) false) }
      | some bs => .next (hostWrite s (hostStart + addr) bs)

/-- HOST_SNOOP: the line's home slice answers; memory here is where each store was performed, so nothing changes. -/
def execHostSnoop (_addr : Nat) (s : State) : Out := .next s

end Sys2Proof.Machine
end

