-- ==== Sys2Proof/Machine/Schedule.lean ====
section
/-! DEFINITION. What the device does next: the stages of bring-up, the inputs waiting in the inbox, the threads of the issue
group, the events that are due, and the picker (01 R17, log 3, log 4). -/

namespace Sys2Proof.Machine

/-- What a step performs. -/
inductive Action where
  /-- An instruction of the current thread, or an event, on a state. -/
  | run (i : Instr) (s : State)
  /-- Nothing but this new state. -/
  | quiet (s : State)
  /-- An instruction that ended at its fetch: what follows an instruction follows (01 R30, 15 R321). -/
  | ended (s : State)
deriving DecidableEq, Repr

/-- Do a block's threads issue? The access slice stands still in a commit window (16 R346). -/
def Block.issues (b : Block) : Bool := match b.state with
  | .running => true
  | .asked _ _ => true
  | .window _ _ => true
  | _ => false

/-- Do its access threads? -/
def Block.accessIssues (b : Block) : Bool := match b.state with
  | .window _ _ => false
  | _ => b.issues

/-- Do its threads of one slice? -/
def Block.issuesIn (b : Block) (acc : Bool) : Bool := if acc then b.accessIssues else b.issues

/-- The first instruction of a launch issues; after its deadline the launch is LATE (14 R292, 18 R385). -/
def noteFirst (s : State) (b : Block) : State :=
  match s.launches.find? fun l => l.lid == b.launch with
  | none => s
  | some l =>
    if l.firstIssued then s
    else
      let late := l.deadline.any (fun d => decide (d.toNat < ptpNow s)) || s.packets.any fun p => l.pid == some p.pid && p.late
      setLaunch s { l with firstIssued := true, status := if late then max l.status 1 else l.status }

/-- The thread at the head of the issue group fetches its instruction (07 R156). -/
def issueNext (s : State) (c : Cur) (rest : List Cur) : Action :=
  let s : State := { s with todo := rest, cur := some c }
  match s.block? c.bid with
  | none => .quiet s
  | some b =>
    match b.thread? c.acc c.tid with
    | none => .quiet s
    | some t =>
      if !b.issuesIn c.acc || !t.running || t.wait != .ready then .quiet s
      else match fetchInstr s b t c.acc with
        | .stop s' => .ended s'
        | .run i s' => .run i (noteFirst s' b)

/-! ## The picker (01 R17) -/

/-- Where a picker sees a thread: context, core and quadrant (01 R15). -/
structure Spot where
  part : Nat
  ctx : Nat
  die : Nat
  core : Nat
  quad : Nat
  acc : Bool
deriving DecidableEq, Repr

/-- A ready thread: its place in the order, where it is, and who it is. -/
structure Ready where
  since : Nat
  pc : Word
  spot : Spot
  slot : Nat
  lane : Nat
  who : Cur
deriving DecidableEq, Repr

/-- Where a thread of a block lies. -/
def spotOf (b : Block) (acc : Bool) (t : Thread) : Spot :=
  { part := b.part, ctx := b.ctx, die := b.die, core := b.core, quad := ((b.team? t.slot).map (·.quad)).getD 0, acc := acc }

def readyOf (b : Block) (acc : Bool) (ts : List Thread) : List Ready :=
  (ts.filter fun t => t.running && t.wait == .ready).map fun t =>
    { since := t.since, pc := t.pc, spot := spotOf b acc t, slot := t.slot, lane := t.lane,
      who := { bid := b.bid, tid := t.tid, acc := acc } }

/-- Every thread that is ready to issue. -/
def readyThreads (s : State) : List Ready :=
  (s.blocks.filter (·.issues)).flatMap fun b =>
    readyOf b false b.threads ++ if b.accessIssues then readyOf b true b.access else []

/-- Longest ready first; the lower PC breaks a tie. -/
def Ready.before (x y : Ready) : Bool := decide (x.since < y.since) || (x.since == y.since && decide (x.pc.toNat < y.pc.toNat))

def oldest : List Ready → Option Ready
  | [] => none
  | x :: rest => match oldest rest with
    | none => some x
    | some y => some (if y.before x then y else x)

/-- Insertion by a key; of equal keys the one inserted stands first. -/
def insertReady (key : Ready → Nat) (x : Ready) : List Ready → List Ready
  | [] => [x]
  | y :: rest => if key x ≤ key y then x :: y :: rest else y :: insertReady key x rest

/-- Ascending keys; equal keys keep their order. -/
def sortReady (key : Ready → Nat) (l : List Ready) : List Ready := l.foldr (insertReady key) []

/-- Physical lanes of a quadrant (01 R20). -/
def laneWidth (k : CoreKind) : Nat := match k with
  | .mCore => 32
  | .sCore => 16

/-- Is the instruction at a PC an atomic? -/
def atomicAtPc (s : State) (v : View) (pc : Word) : Bool :=
  let at' := fun (a : Word) => match fetchAt s v a.toNat with
    | .inl (w, _) => w / 2 ^ 27
    | .inr _ => 0
  let m := at' pc
  let m := if m = 0x1B then at' (pc + 4) else m
  m == 21 || m == 22

/-- The order in which the threads of an issue group issue: atomics by team slot and lane (05 R98, 09 R218), everything else by
sr.tid (07 R162, 08 R195, 09 R209, 10 R225, R231). Of threads of different blocks those of the lower block number come first:
slots are numbered per block, and the spec orders no further (DESIGN CHOICE, log 3). -/
def issueKey (atomics : Bool) (x : Ready) : Nat :=
  x.who.bid * 2 ^ 20 + if atomics then 32 * x.slot + x.lane else x.who.tid

/-- The next issue group: the longest-waiting thread's PC, and the other ready threads of its quadrant there, oldest first, as
many as there are lanes. -/
def pickGroup (s : State) : State :=
  let s : State := { s with picked := true }
  let rs := readyThreads s
  match oldest rs with
  | none => { s with group := [], todo := [] }
  | some x =>
    let b := s.block? x.who.bid
    let w := (b.map fun b => laneWidth b.kind).getD 32
    let atomics := b.any fun b => atomicAtPc s b.view x.pc
    let mates := (sortReady (·.since) (rs.filter fun y => y.pc == x.pc && y.spot == x.spot)).take w
    let order := (sortReady (issueKey atomics) mates).map (·.who)
    let anew := fun (c : Cur) => (s.thread? c.bid c.acc c.tid).any fun t => t.parking.isNone
    { s with group := order.filter anew, todo := order }

/-! ## Events that are due: of blocks -/

/-- Team formations of a block (01 R28). -/
def dueTeams (s : State) (b : Block) : List Instr :=
  if !b.issues || b.spawn.isEmpty then []
  else b.teams.filterMap fun tm =>
    if formDue b tm.slot then some (.teamFormation b.bid tm.slot)
    else if formLate s b tm.slot then some (.teamFormTimeout b.bid tm.slot)
    else none

/-- Limits of RECONV: an arrival in the cycle of a limit wins over it (01 R29). -/
def dueReconvs (s : State) (b : Block) : List Instr :=
  if !b.issues then []
  else b.threads.filterMap fun t =>
    if reconvLate s b t && (s.picked || t.reconv.any fun r => decide (r.issued + r.limit < b.clk s)) then
      some (.reconvTimeout b.bid t.tid)
    else none

/-- Does a thread wait at WAITC, a token, a barrier, a convergence register, XRECV or RECONV, which closes the window
(16 R346)? -/
def stuckWait (t : Thread) : Bool :=
  t.running && match t.wait with
    | .engine => true
    | .barrier => true
    | .sign => true
    | .xrecv => true
    | .reconv => true
    | _ => false

/-- Does the commit window close now (16 R346)? -/
def windowOver (s : State) (b : Block) (since : Nat) : Bool :=
  !uncommitted b || decide (since + micros 3 / 2 ≤ s.time) || b.issued.any (fun x => decide (32 ≤ x.2))
  || b.threads.any stuckWait

/-- What is due of a block by its state (15 R323, 16 R345, R346). -/
def dueState (s : State) (b : Block) : List Instr :=
  match b.state with
  | .suspended r _ =>
    if resumable s b then [.faultServiceResume b.bid]
    else if r && (imageOf b).isSome && serviceLong s b then [.faultReservationTimeout b.bid]
    else []
  | .asked false _ => [.easelCapture b.bid]
  | .window since _ => if windowOver s b since then [.commitWindowClose b.bid] else []
  | .writing _ _ =>
    if !suspending s b.ctx && (unitOf s b).all (stopped s) then [.canvasWriteComplete b.bid] else []
  | _ => []

/-- Compares of twins, and images that are still being written. -/
def dueImages (s : State) (b : Block) : List Instr :=
  let cmp := if !b.cmpAt.isEmpty && b.primary && !(s.faults.any fun f => f.asker == .work b.bid) && (match b.twin.bind s.block? with
      | some q => (comparable b q).isSome
      | none => false) then [Instr.redundantCompare b.bid] else []
  let img := if ((s.pents.filter fun p => p.bid == b.bid).getLast?).any fun p => !p.complete then
      [Instr.pentimentoComplete b.bid] else []
  cmp ++ img

/-- Lines whose fill is over (12 R260). -/
def dueFills (s : State) : List Instr :=
  s.fills.filterMap fun f =>
    if f.due ≤ s.cycle then some (.icacheFillComplete f.line.die f.line.core f.line.ctx f.line.line) else none

/-- Producers whose time has come (02 R38). -/
def dueProds (s : State) : List Instr :=
  s.prods.filterMap fun p =>
    if p.ready && decide (p.due ≤ s.cycle) && (s.block? p.bid).any (·.issues) then some (.longLatencyComplete p.id) else none

/-- Producers and engine operations whose time has come (02 R38, 05 R104). -/
def dueWork (s : State) : List Instr :=
  dueProds s ++ s.ops.filterMap fun o =>
    if decide (o.due ≤ s.cycle) && (s.block? o.bid).any fun b => opReady s b o then some (.engineComplete o.id) else none

/-! ## Events that are due: faults and assists -/

/-- Does a code page wait for the host's check (13 R279)? -/
def pageWaits (s : State) (f : FaultReq) : Bool :=
  match s.insts.find? fun i => i.iid == f.entry.toNat / 2 ^ 4 % 2 ^ 32 && i.part == f.part with
  | none => false
  | some i =>
    let idx := f.entry.toNat / 2 ^ 36 % 2 ^ 16
    !s.poisoned.contains i.hash && !i.checked.contains idx && askedHost s f.part 4 (pageRef i idx)

def dueFaults (s : State) : List Instr :=
  s.faults.filterMap fun f =>
    if f.served || f.refused then none
    else if f.host then (if f.posted then none else some (.pageFaultService f.id))
    else if f.entry.toNat / 2 % 8 == 1 && pageWaits s f then none
    else some (.pageFaultService f.id)

/-- The response that the ring holds next (13 R280). -/
def takeDue (s : State) (part : Nat) : List Instr :=
  let r := responseAt s part
  [.assistResponse part r.1 r.2.1 r.2.2]

def dueAssists (s : State) (part : Nat) : List Instr :=
  (s.part part).assists.filterMap fun a =>
    if !a.waiting && decide (a.posted + a.limit ≤ s.time) then some (.assistTimeout part a.seq) else none

/-! ## Events that are due: queues and packets -/

/-- What is due of a queue: a notify write to see, a mapping, a packet to parse (14 R289, R290). -/
def dueQueue (s : State) (part q : Nat) : List Instr :=
  let x := (s.part part).queue q
  if !x.en then []
  else
    let note := if !s.snooped.contains (part, q) then [] else match notifyDword s part q with
      | some w => [Instr.notifyWrite part q w]
      | none => []
    let map := if x.state == .unmapped && x.notified && ctxRuns s x.ctx && (freeMapSlot s part).isSome
        && !askedHost s part 1 (queueRef part q)
      then [Instr.queueMap part q] else []
    let parse := if mayParse s part q then [Instr.packetParse part q] else []
    note ++ map ++ parse

/-- What is due of a started packet (14 R296, R298). -/
def duePacket (s : State) (p : Packet) : List Instr :=
  let acts := (actor s p.part p.q p.typ).any fun x => x.pid == p.pid
  if p.finished then [] else
  match p.typ with
  | 0 => if acts then [.nopPacket p.part p.q] else []
  | 1 => if (idleLaunch s p.part p.q 1).isSome then [.launchPacket p.part p.q] else []
  | 2 => if p.started && decide (64 * p.progress < p.ext.length) && ctxRuns s p.ctx
            && decide (poolUsed s p.ctx < ((s.ctx? p.ctx).map (·.lcap)).getD 0) then [.graphPacket p.part p.q] else []
  | 3 => if acts then [.copyPacket p.part p.q] else []
  | 4 => if acts then [.signalPacket p.part p.q] else []
  | 5 =>
    if !acts then []
    else
      let met := match loadAt s (ctxView p.part p.ctx) (word p 0).toNat 8 with
        | .inl (x, _) => waitMet p x
        | .inr _ => true
      if met then [.waitPacket p.part p.q]
      else if waitLimit p ≠ 0 ∧ p.startedAt + micros (waitLimit p) ≤ s.time then [.waitPacketTimeout p.part p.q]
      else []
  | 6 => if p.started && p.progress == 0 then [.indirectPacket p.part p.q] else []
  | 7 => if acts then [.stampPacket p.part p.q] else []
  | 8 => if (idleLaunch s p.part p.q 8).isSome then [.deadlinePacket p.part p.q] else []
  | _ => if p.started && !earlierOpen s p then [.fencePacket p.part p.q] else []

/-- May a canvas return: its context runs and no DEADLINE packet stands before it, or a RESUME waits for it (14 R299)? The canvas
of a packet is dispatched with its packet. -/
def mayReturn (s : State) (c : Captured) : Bool :=
  let p := s.part c.part
  !c.fromPacket && ((ctxRuns s c.ctx && c.blocks.any fun b => mayPlace s c.part b.launch)
    || (p.ccmdBusy && p.ccmdOp == 3 && p.ccmdCtx == c.ctx && (s.ctx? c.ctx).any fun x => x.suspendCanvas == some c.addr))

/-- The highest class of the launches of a canvas's blocks. -/
def canvasClass (s : State) (c : Captured) : Nat := (c.blocks.map fun b => (classOf s b.launch).1).foldl min 2

/-- Class by class, captured blocks return where some fit, then nodes and commissions of started launches are placed, then the
dispatcher does what comes first of the packets (14 R299, R309). -/
def dueDispatch (s : State) (part : Nat) : List Instr :=
  let next := nextDispatch s part
  let own := firstStarted s part
  let back := s.captured.filter fun c => c.part == part && mayReturn s c
    && (next.all fun n => decide (canvasClass s c ≤ n.1)) && (own.all fun n => decide (canvasClass s c ≤ n.1))
    && decide (restoreCanvas s c ≠ s)
  match back, own with
  | c :: _, _ => [.canvasRestore part c.ctx c.addr]
  | [], some (cls, _, e) => if next.all fun n => decide (cls ≤ n.1) then [e] else [.packetDispatch part]
  | [], none => if next.isSome then [.packetDispatch part] else []

/-- What is due of a partition. -/
def duePart (s : State) (part : Nat) : List Instr :=
  let p := s.part part
  if barOpen s part && p.asRespTail != p.asRespHead then takeDue s part
  else if p.state ≠ .active then []
  else
    (((List.range 64).filter fun q => (p.queue q).en).flatMap (dueQueue s part))
    ++ dueDispatch s part
    ++ dueAssists s part
    ++ (if !p.tinvDone && drained s part then [.shootdownComplete part] else [])
    ++ (match unloading s part with
      | some (i, c) => if unloadReady s i c then [.unloadComplete part] else []
      | none => [])
    ++ (if p.mig && decide (p.migAt + micros 3 ≤ s.time) then [.regionMigrate p.migDie] else [])

/-! ## Events that are due: reliability and the fabric -/

def dueBanks (s : State) : List Instr :=
  (s.repairs.map fun d => .bankRetire d.arr d.die d.core d.bank)
  ++ (s.drains.map fun d => .bankCutover d.arr d.die d.core d.bank)
  ++ (s.dramWant.filter fun x => !striping s x.1).map fun x => .dramBankRemove x.1 x.2

/-- PUT, GET and ATOMIC are sent again, and given up; the other operations go on waiting (18 R379, R383). -/
def dueFabric (s : State) : List Instr :=
  (s.outbound.filterMap fun x =>
    if s.faults.any fun f => f.asker == .engine x.op then none
    else match outstanding s x.op with
    | none => none
    | some (_, _, c, _) =>
      if x.firstAt + micros 2000 ≤ s.time then (if c.op ≤ 2 then some (.remoteGiveUp x.op) else none)
      else if x.lastAt + micros 100 ≤ s.time then some (.remoteRetransmit x.op)
      else none)
  ++ s.reductions.filterMap fun r =>
    if quorumOver s r then some (.quorumTimeout r.group r.step) else none

/-- Where events come from, in the order in which they are looked at (DESIGN CHOICE, log 3; an instruction line comes
Config.latFill cycles after its request). -/
def dueSources : List (State → List Instr) :=
  [dueWork,
   dueFills,
   fun s => s.blocks.flatMap fun b => dueTeams s b ++ dueReconvs s b ++ dueImages s b ++ dueState s b,
   dueFaults, dueBanks,
   fun s => s.packets.flatMap (duePacket s),
   fun s => (List.range 8).flatMap (duePart s),
   dueFabric,
   fun s => if s.therm && decide (s.thermAt + micros 10000 ≤ s.time) then [.thermalPowerOff] else []]

/-- The first event that is due. -/
def firstDue (s : State) : List (State → List Instr) → Option Instr
  | [] => none
  | f :: rest => match f s with
    | e :: _ => some e
    | [] => firstDue s rest

/-! ## After an instruction or event -/

/-- Does the current thread wait at its instruction? -/
def curWaits (s : State) : Bool :=
  match s.cur with
  | none => false
  | some c => match s.thread? c.bid c.acc c.tid with
    | some t => t.wait != .ready
    | none => false

/-- The issuing thread becomes the youngest (01 R17). -/
def ageCur (s : State) : State :=
  match s.cur with
  | none => s
  | some c => match s.thread? c.bid c.acc c.tid with
    | some t => s.setThread c.bid c.acc { t with since := max t.since s.cycle }
    | none => s

/-- In a commit window the instructions of each thread are counted (16 R346). -/
def countCur (s : State) : State :=
  match s.cur with
  | none => s
  | some c =>
    s.onBlock c.bid fun b => match b.state with
      | .window _ _ =>
        if c.acc then b else
        let n := ((b.issued.find? fun x => x.1 == c.tid).map (·.2)).getD 0
        { b with issued := (b.issued.filter fun x => x.1 != c.tid) ++ [(c.tid, n + 1)] }
      | _ => b

/-- Phases whose compare has matched complete (01 R34). -/
def settlePhases (s : State) (b : Block) : State :=
  ((allBars s b).filter fun id => b.grants.any fun g => g.1 == barKey id).foldl (fun s id => tryPhase s b.bid id) s

/-- Set operations, RECONVs and MMAs whose last missing member left, and commits whose matrix work is done, complete. -/
def settleBlocks (s : State) : State :=
  (s.blocks.map (·.bid)).foldl (fun s bid =>
    match s.block? bid with
    | none => s
    | some b =>
      let s := if b.arrivals.isEmpty then s else settleSets s bid
      let s := if b.threads.any fun t => t.reconv.isSome then s.onBlock bid settleReconv else s
      let s := if b.rounds.isEmpty then s else settleRounds s bid
      let s := if b.grants.isEmpty then s else settlePhases s b
      if b.commitVals.isEmpty then s else tryPhase s bid .commit) s

/-- A block that ended leaves, once no fault is left to be served for what its node leaves behind. -/
def tryReap (s : State) (b : Block) : State :=
  if s.faults.any fun f => f.asker == .work b.bid then s
  else match nodeWait s b with
    | some f => askService s b.part b.ctx (.work b.bid) 2 f
    | none => reapBlock s b.bid

/-- A notify dword that was written and cannot be read is waited for (14 R290). -/
def settleSnoop (s : State) (x : Nat × Nat) : State :=
  let q := (s.part x.1).queue x.2
  if !ctxRuns s q.ctx || s.faults.any fun f => f.asker == .notify x.1 x.2 then s
  else match firstService s (ctxView x.1 q.ctx) needR q.naddr.toNat 8 with
    | some f => askService s x.1 q.ctx (.notify x.1 x.2) 1 f
    | none => s

/-- Blocks that ended leave, images of suspended blocks are written, commands and packets that are over end. -/
def settleDevice (s : State) : State :=
  let s := (s.blocks.map (·.bid)).foldl (fun s bid =>
    match s.block? bid with
    | none => s
    | some b =>
      if reapable s b then tryReap s b
      else match b.state with
        | .suspended _ none => tryImage s b
        | _ => s) s
  let s := s.snooped.foldl settleSnoop (s.unarmed.foldl armQueue s)
  (List.range 8).foldl sendRequests (settlePackets ((List.range 8).foldl settleCommand s))

/-- One cycle goes by (log 3). -/
def tick (s : State) : State :=
  (List.range 8).foldl endChange <| advanceClock (advanceTime { s with cycle := s.cycle + 1, picked := false, sags := s.sags.map (holdBack s.mhz) })

/-- Without power, or halted in bring-up, the device does nothing but start anew (19 R401, R402). -/
def nextWhileDown (s : State) : Action :=
  match s.inbox with
  | .bringUp :: rest => .run .bringUp { s with inbox := rest }
  | _ :: rest => .quiet { s with inbox := rest }
  | [] => .quiet (tick s)

/-- The next action of the device. In a cycle, what is due comes first, then one issue group, then what its instructions made
due; a producer that completes is delivered before the next thread of the group (02 R40, log 3). -/
def nextAction (s : State) : Action :=
  if !s.powered || s.halt then nextWhileDown s
  else if s.stage < 7 then .run .bringUp s
  else match s.inbox with
    | e :: rest => .run e { s with inbox := rest }
    | [] => match s.todo with
      | c :: rest => match dueProds s with
        | e :: _ => .run e s
        | [] => issueNext s c rest
      | [] => match firstDue s dueSources with
        | some e => .run e s
        | none => .quiet (if s.picked then tick s else pickGroup s)

end Sys2Proof.Machine
end

