-- ==== Sys2Proof/Machine/Dispatch.lean ====
section
/-! DEFINITION. One arm per constructor of Instr: the meaning of each instruction and event. -/

namespace Sys2Proof.Machine

def exec (i : Instr) (s : State) : Host.Outcome State Fault Refusal :=
  match i with
  | .add p rd ra rb fea feb => Sys2Proof.Machine.execAdd p rd ra rb fea feb s
  | .sub p rd ra rb fea feb => Sys2Proof.Machine.execSub p rd ra rb fea feb s
  | .and p rd ra rb fea feb => Sys2Proof.Machine.execAnd p rd ra rb fea feb s
  | .or p rd ra rb fea feb => Sys2Proof.Machine.execOr p rd ra rb fea feb s
  | .xor p rd ra rb fea feb => Sys2Proof.Machine.execXor p rd ra rb fea feb s
  | .andn p rd ra rb fea feb => Sys2Proof.Machine.execAndn p rd ra rb fea feb s
  | .shl p rd ra rb fea feb => Sys2Proof.Machine.execShl p rd ra rb fea feb s
  | .shr p rd ra rb fea feb => Sys2Proof.Machine.execShr p rd ra rb fea feb s
  | .sra p rd ra rb fea feb => Sys2Proof.Machine.execSra p rd ra rb fea feb s
  | .rot p rd ra rb fea feb => Sys2Proof.Machine.execRot p rd ra rb fea feb s
  | .min p rd ra rb fea feb => Sys2Proof.Machine.execMin p rd ra rb fea feb s
  | .max p rd ra rb fea feb => Sys2Proof.Machine.execMax p rd ra rb fea feb s
  | .minn p rd ra rb fea feb => Sys2Proof.Machine.execMinn p rd ra rb fea feb s
  | .maxn p rd ra rb fea feb => Sys2Proof.Machine.execMaxn p rd ra rb fea feb s
  | .slt p rd ra rb fea feb => Sys2Proof.Machine.execSlt p rd ra rb fea feb s
  | .mul p rd ra rb fea feb => Sys2Proof.Machine.execMul p rd ra rb fea feb s
  | .mulh p rd ra rb fea feb => Sys2Proof.Machine.execMulh p rd ra rb fea feb s
  | .mulhn p rd ra rb fea feb => Sys2Proof.Machine.execMulhn p rd ra rb fea feb s
  | .div p rd ra rb fea feb => Sys2Proof.Machine.execDiv p rd ra rb fea feb s
  | .divn p rd ra rb fea feb => Sys2Proof.Machine.execDivn p rd ra rb fea feb s
  | .rem p rd ra rb fea feb => Sys2Proof.Machine.execRem p rd ra rb fea feb s
  | .remn p rd ra rb fea feb => Sys2Proof.Machine.execRemn p rd ra rb fea feb s
  | .sltn p rd ra rb fea feb => Sys2Proof.Machine.execSltn p rd ra rb fea feb s
  | .clz p rd ra fea => Sys2Proof.Machine.execClz p rd ra fea s
  | .ctz p rd ra fea => Sys2Proof.Machine.execCtz p rd ra fea s
  | .popc p rd ra fea => Sys2Proof.Machine.execPopc p rd ra fea s
  | .brev p rd ra fea => Sys2Proof.Machine.execBrev p rd ra fea s
  | .shli p rd ra sh fea => Sys2Proof.Machine.execShli p rd ra sh fea s
  | .shri p rd ra sh fea => Sys2Proof.Machine.execShri p rd ra sh fea s
  | .srai p rd ra sh fea => Sys2Proof.Machine.execSrai p rd ra sh fea s
  | .sel p rd ra rb fea feb => Sys2Proof.Machine.execSel p rd ra rb fea feb s
  | .addi p rd ra fea imm => Sys2Proof.Machine.execAddi p rd ra fea imm s
  | .andi p rd ra fea imm => Sys2Proof.Machine.execAndi p rd ra fea imm s
  | .slti p rd ra fea imm => Sys2Proof.Machine.execSlti p rd ra fea imm s
  | .sltni p rd ra fea imm => Sys2Proof.Machine.execSltni p rd ra fea imm s
  | .ld p rd ra size fe imm => Sys2Proof.Machine.execLd p rd ra size fe imm s
  | .ldz p rd ra size fe imm => Sys2Proof.Machine.execLdz p rd ra size fe imm s
  | .st p rd ra size fe imm => Sys2Proof.Machine.execSt p rd ra size fe imm s
  | .br ra cond disp => Sys2Proof.Machine.execBr ra cond disp s
  | .loop lc ra disp => Sys2Proof.Machine.execLoop lc ra disp s
  | .brspawn ra rb cond first cnt => Sys2Proof.Machine.execBrspawn ra rb cond first cnt s
  | .fadd p rd ra rb fea feb typ => Sys2Proof.Machine.execFadd p rd ra rb fea feb typ s
  | .fsub p rd ra rb fea feb typ => Sys2Proof.Machine.execFsub p rd ra rb fea feb typ s
  | .fmul p rd ra rb fea feb typ => Sys2Proof.Machine.execFmul p rd ra rb fea feb typ s
  | .fma p rd ra rb fea feb typ => Sys2Proof.Machine.execFma p rd ra rb fea feb typ s
  | .fmin p rd ra rb fea feb typ => Sys2Proof.Machine.execFmin p rd ra rb fea feb typ s
  | .fmax p rd ra rb fea feb typ => Sys2Proof.Machine.execFmax p rd ra rb fea feb typ s
  | .fdiv p rd ra rb fea feb typ => Sys2Proof.Machine.execFdiv p rd ra rb fea feb typ s
  | .fcmplt p rd ra rb fea feb typ => Sys2Proof.Machine.execFcmplt p rd ra rb fea feb typ s
  | .fcmpeq p rd ra rb fea feb typ => Sys2Proof.Machine.execFcmpeq p rd ra rb fea feb typ s
  | .fcmple p rd ra rb fea feb typ => Sys2Proof.Machine.execFcmple p rd ra rb fea feb typ s
  | .fcmpun p rd ra rb fea feb typ => Sys2Proof.Machine.execFcmpun p rd ra rb fea feb typ s
  | .fcopysign p rd ra rb fea feb typ => Sys2Proof.Machine.execFcopysign p rd ra rb fea feb typ s
  | .fsqrt p rd ra dst src fea => Sys2Proof.Machine.execFsqrt p rd ra dst src fea s
  | .frcp p rd ra dst src fea => Sys2Proof.Machine.execFrcp p rd ra dst src fea s
  | .frsq p rd ra dst src fea => Sys2Proof.Machine.execFrsq p rd ra dst src fea s
  | .fexp2 p rd ra dst src fea => Sys2Proof.Machine.execFexp2 p rd ra dst src fea s
  | .flog2 p rd ra dst src fea => Sys2Proof.Machine.execFlog2 p rd ra dst src fea s
  | .fsin p rd ra dst src fea => Sys2Proof.Machine.execFsin p rd ra dst src fea s
  | .fcos p rd ra dst src fea => Sys2Proof.Machine.execFcos p rd ra dst src fea s
  | .ftanh p rd ra dst src fea => Sys2Proof.Machine.execFtanh p rd ra dst src fea s
  | .fabs p rd ra dst src fea => Sys2Proof.Machine.execFabs p rd ra dst src fea s
  | .fneg p rd ra dst src fea => Sys2Proof.Machine.execFneg p rd ra dst src fea s
  | .fclass p rd ra dst src fea => Sys2Proof.Machine.execFclass p rd ra dst src fea s
  | .fround p rd ra dst src fea => Sys2Proof.Machine.execFround p rd ra dst src fea s
  | .fcvt p rd ra dst src fea => Sys2Proof.Machine.execFcvt p rd ra dst src fea s
  | .ftoi p rd ra dst src fea => Sys2Proof.Machine.execFtoi p rd ra dst src fea s
  | .itof p rd ra dst src fea => Sys2Proof.Machine.execItof p rd ra dst src fea s
  | .fexpt p rd ra dst src fea => Sys2Proof.Machine.execFexpt p rd ra dst src fea s
  | .padd p rd ra rb fea feb width => Sys2Proof.Machine.execPadd p rd ra rb fea feb width s
  | .psub p rd ra rb fea feb width => Sys2Proof.Machine.execPsub p rd ra rb fea feb width s
  | .pmul p rd ra rb fea feb width => Sys2Proof.Machine.execPmul p rd ra rb fea feb width s
  | .pmin p rd ra rb fea feb width => Sys2Proof.Machine.execPmin p rd ra rb fea feb width s
  | .pmax p rd ra rb fea feb width => Sys2Proof.Machine.execPmax p rd ra rb fea feb width s
  | .pavg p rd ra rb fea feb width => Sys2Proof.Machine.execPavg p rd ra rb fea feb width s
  | .pcmpeq p rd ra rb fea feb width => Sys2Proof.Machine.execPcmpeq p rd ra rb fea feb width s
  | .pcmplt p rd ra rb fea feb width => Sys2Proof.Machine.execPcmplt p rd ra rb fea feb width s
  | .shfl p rd ra rb fea feb => Sys2Proof.Machine.execShfl p rd ra rb fea feb s
  | .shfli p rd ra mode imm fea => Sys2Proof.Machine.execShfli p rd ra mode imm fea s
  | .bcast p rd ra rb fea feb => Sys2Proof.Machine.execBcast p rd ra rb fea feb s
  | .gred p rd ra op typ fea => Sys2Proof.Machine.execGred p rd ra op typ fea s
  | .gscan p rd ra op typ fea => Sys2Proof.Machine.execGscan p rd ra op typ fea s
  | .vote p rd ra mode fea => Sys2Proof.Machine.execVote p rd ra mode fea s
  | .matchKeys p rd ra byValue typ fea => Sys2Proof.Machine.execMatchKeys p rd ra byValue typ fea s
  | .join rd ra fea => Sys2Proof.Machine.execJoin rd ra fea s
  | .leave ra fea => Sys2Proof.Machine.execLeave ra fea s
  | .grank rd ra fea => Sys2Proof.Machine.execGrank rd ra fea s
  | .xsend slot ra rb fea feb => Sys2Proof.Machine.execXsend slot ra rb fea feb s
  | .xrecv rd slot => Sys2Proof.Machine.execXrecv rd slot s
  | .pshuf p rd ra width fea => Sys2Proof.Machine.execPshuf p rd ra width fea s
  | .ppack p rd ra mode half width fea => Sys2Proof.Machine.execPpack p rd ra mode half width fea s
  | .punpk p rd ra zx half width fea => Sys2Proof.Machine.execPunpk p rd ra zx half width fea s
  | .segred p rd ra op typ fea => Sys2Proof.Machine.execSegred p rd ra op typ fea s
  | .ldr rd ra zx size scope fea => Sys2Proof.Machine.execLdr rd ra zx size scope fea s
  | .str size scope ra rb fea feb => Sys2Proof.Machine.execStr size scope ra rb fea feb s
  | .lda rd ra zx size scope fea => Sys2Proof.Machine.execLda rd ra zx size scope fea s
  | .stl size scope ra rb fea feb => Sys2Proof.Machine.execStl size scope ra rb fea feb s
  | .fence uo scope => Sys2Proof.Machine.execFence uo scope s
  | .pref ra fea => Sys2Proof.Machine.execPref ra fea s
  | .ipref ra fea => Sys2Proof.Machine.execIpref ra fea s
  | .ragld p rd ra width fea => Sys2Proof.Machine.execRagld p rd ra width fea s
  | .fqpop rd q => Sys2Proof.Machine.execFqpop rd q s
  | .fqpush q ra fea => Sys2Proof.Machine.execFqpush q ra fea s
  | .cwb ra fea => Sys2Proof.Machine.execCwb ra fea s
  | .cinv ra fea => Sys2Proof.Machine.execCinv ra fea s
  | .tileld p rd ra typ => Sys2Proof.Machine.execTileld p rd ra typ s
  | .tilest p rd ra => Sys2Proof.Machine.execTilest p rd ra s
  | .copy p rd ra => Sys2Proof.Machine.execCopy p rd ra s
  | .gather p rd ra width => Sys2Proof.Machine.execGather p rd ra width s
  | .coll p rd ra => Sys2Proof.Machine.execColl p rd ra s
  | .waitc nlo nhi cls => Sys2Proof.Machine.execWaitc nlo nhi cls s
  | .aadd p rd ra rb scope => Sys2Proof.Machine.execAadd p rd ra rb scope s
  | .amin p rd ra rb scope => Sys2Proof.Machine.execAmin p rd ra rb scope s
  | .amax p rd ra rb scope => Sys2Proof.Machine.execAmax p rd ra rb scope s
  | .aminn p rd ra rb scope => Sys2Proof.Machine.execAminn p rd ra rb scope s
  | .amaxn p rd ra rb scope => Sys2Proof.Machine.execAmaxn p rd ra rb scope s
  | .aand p rd ra rb scope => Sys2Proof.Machine.execAand p rd ra rb scope s
  | .aor p rd ra rb scope => Sys2Proof.Machine.execAor p rd ra rb scope s
  | .axor p rd ra rb scope => Sys2Proof.Machine.execAxor p rd ra rb scope s
  | .axchg p rd ra rb scope => Sys2Proof.Machine.execAxchg p rd ra rb scope s
  | .acas p rd ra rb scope => Sys2Proof.Machine.execAcas p rd ra rb scope s
  | .acask p rd ra rb scope => Sys2Proof.Machine.execAcask p rd ra rb scope s
  | .aincw p rd ra rb scope => Sys2Proof.Machine.execAincw p rd ra rb scope s
  | .afadd p rd ra rb scope => Sys2Proof.Machine.execAfadd p rd ra rb scope s
  | .afmin p rd ra rb scope => Sys2Proof.Machine.execAfmin p rd ra rb scope s
  | .afmax p rd ra rb scope => Sys2Proof.Machine.execAfmax p rd ra rb scope s
  | .aaddW32 p rd ra rb scope => Sys2Proof.Machine.execAaddW32 p rd ra rb scope s
  | .aminW32 p rd ra rb scope => Sys2Proof.Machine.execAminW32 p rd ra rb scope s
  | .amaxW32 p rd ra rb scope => Sys2Proof.Machine.execAmaxW32 p rd ra rb scope s
  | .aminnW32 p rd ra rb scope => Sys2Proof.Machine.execAminnW32 p rd ra rb scope s
  | .amaxnW32 p rd ra rb scope => Sys2Proof.Machine.execAmaxnW32 p rd ra rb scope s
  | .aandW32 p rd ra rb scope => Sys2Proof.Machine.execAandW32 p rd ra rb scope s
  | .aorW32 p rd ra rb scope => Sys2Proof.Machine.execAorW32 p rd ra rb scope s
  | .axorW32 p rd ra rb scope => Sys2Proof.Machine.execAxorW32 p rd ra rb scope s
  | .axchgW32 p rd ra rb scope => Sys2Proof.Machine.execAxchgW32 p rd ra rb scope s
  | .acasW32 p rd ra rb scope => Sys2Proof.Machine.execAcasW32 p rd ra rb scope s
  | .acaskW32 p rd ra rb scope => Sys2Proof.Machine.execAcaskW32 p rd ra rb scope s
  | .aincwW32 p rd ra rb scope => Sys2Proof.Machine.execAincwW32 p rd ra rb scope s
  | .afaddW32 p rd ra rb scope => Sys2Proof.Machine.execAfaddW32 p rd ra rb scope s
  | .afminW32 p rd ra rb scope => Sys2Proof.Machine.execAfminW32 p rd ra rb scope s
  | .afmaxW32 p rd ra rb scope => Sys2Proof.Machine.execAfmaxW32 p rd ra rb scope s
  | .mma p acc cv ra rb fmt => Sys2Proof.Machine.execMma p acc cv ra rb fmt s
  | .cvdecl n ra fea => Sys2Proof.Machine.execCvdecl n ra fea s
  | .acalloc n => Sys2Proof.Machine.execAcalloc n s
  | .acfree n => Sys2Proof.Machine.execAcfree n s
  | .azero n => Sys2Proof.Machine.execAzero n s
  | .acommit ra fea => Sys2Proof.Machine.execAcommit ra fea s
  | .aload p f64 n ra rb fea feb => Sys2Proof.Machine.execAload p f64 n ra rb fea feb s
  | .astore p f64 n ra rb fea feb => Sys2Proof.Machine.execAstore p f64 n ra rb fea feb s
  | .scacc n ra part => Sys2Proof.Machine.execScacc n ra part s
  | .amovr rd n rb feb => Sys2Proof.Machine.execAmovr rd n rb feb s
  | .bara n => Sys2Proof.Machine.execBara n s
  | .barw n => Sys2Proof.Machine.execBarw n s
  | .bars n => Sys2Proof.Machine.execBars n s
  | .cbara n => Sys2Proof.Machine.execCbara n s
  | .cbarw n => Sys2Proof.Machine.execCbarw n s
  | .gbara n => Sys2Proof.Machine.execGbara n s
  | .gbarw n => Sys2Proof.Machine.execGbarw n s
  | .gset n => Sys2Proof.Machine.execGset n s
  | .gres ra n fea => Sys2Proof.Machine.execGres ra n fea s
  | .tlaunch rd ra fea => Sys2Proof.Machine.execTlaunch rd ra fea s
  | .tnext rd => Sys2Proof.Machine.execTnext rd s
  | .jmpr ra fea => Sys2Proof.Machine.execJmpr ra fea s
  | .callr rd ra fea => Sys2Proof.Machine.execCallr rd ra fea s
  | .ret ra fea => Sys2Proof.Machine.execRet ra fea s
  | .exit => Sys2Proof.Machine.execExit s
  | .yield => Sys2Proof.Machine.execYield s
  | .reconv rd ra rb fea feb => Sys2Proof.Machine.execReconv rd ra rb fea feb s
  | .lcset lc ra fea => Sys2Proof.Machine.execLcset lc ra fea s
  | .trap ra fea => Sys2Proof.Machine.execTrap ra fea s
  | .rte ra fea => Sys2Proof.Machine.execRte ra fea s
  | .brk => Sys2Proof.Machine.execBrk s
  | .winbase n => Sys2Proof.Machine.execWinbase n s
  | .srd rd n => Sys2Proof.Machine.execSrd rd n s
  | .swr ra n fea => Sys2Proof.Machine.execSwr ra n fea s
  | .capq rd n => Sys2Proof.Machine.execCapq rd n s
  | .tstamp rd => Sys2Proof.Machine.execTstamp rd s
  | .udf rd ra rb fea feb => Sys2Proof.Machine.execUdf rd ra rb fea feb s
  | .lih rd imm => Sys2Proof.Machine.execLih rd imm s
  | .addpc rd imm => Sys2Proof.Machine.execAddpc rd imm s
  | .call rd imm => Sys2Proof.Machine.execCall rd imm s
  | .teamFormation blk slot => Sys2Proof.Machine.execTeamFormation blk slot s
  | .teamFormTimeout blk slot => Sys2Proof.Machine.execTeamFormTimeout blk slot s
  | .reconvTimeout blk tid => Sys2Proof.Machine.execReconvTimeout blk tid s
  | .longLatencyComplete op => Sys2Proof.Machine.execLongLatencyComplete op s
  | .engineComplete op => Sys2Proof.Machine.execEngineComplete op s
  | .icacheFillComplete die core ctx line => Sys2Proof.Machine.execIcacheFillComplete die core ctx line s
  | .pageFaultService req => Sys2Proof.Machine.execPageFaultService req s
  | .faultServiceResume blk => Sys2Proof.Machine.execFaultServiceResume blk s
  | .faultReservationTimeout blk => Sys2Proof.Machine.execFaultReservationTimeout blk s
  | .commissionLaunch die slice => Sys2Proof.Machine.execCommissionLaunch die slice s
  | .notifyWrite part q value => Sys2Proof.Machine.execNotifyWrite part q value s
  | .queueMap part q => Sys2Proof.Machine.execQueueMap part q s
  | .packetParse part q => Sys2Proof.Machine.execPacketParse part q s
  | .packetDispatch part => Sys2Proof.Machine.execPacketDispatch part s
  | .nopPacket part q => Sys2Proof.Machine.execNopPacket part q s
  | .launchPacket part q => Sys2Proof.Machine.execLaunchPacket part q s
  | .deadlinePacket part q => Sys2Proof.Machine.execDeadlinePacket part q s
  | .graphPacket part q => Sys2Proof.Machine.execGraphPacket part q s
  | .copyPacket part q => Sys2Proof.Machine.execCopyPacket part q s
  | .signalPacket part q => Sys2Proof.Machine.execSignalPacket part q s
  | .waitPacket part q => Sys2Proof.Machine.execWaitPacket part q s
  | .waitPacketTimeout part q => Sys2Proof.Machine.execWaitPacketTimeout part q s
  | .indirectPacket part q => Sys2Proof.Machine.execIndirectPacket part q s
  | .stampPacket part q => Sys2Proof.Machine.execStampPacket part q s
  | .fencePacket part q => Sys2Proof.Machine.execFencePacket part q s
  | .nodePlacement part => Sys2Proof.Machine.execNodePlacement part s
  | .easelCapture blk => Sys2Proof.Machine.execEaselCapture blk s
  | .commitWindowClose blk => Sys2Proof.Machine.execCommitWindowClose blk s
  | .canvasWriteComplete blk => Sys2Proof.Machine.execCanvasWriteComplete blk s
  | .canvasRestore part ctx addr => Sys2Proof.Machine.execCanvasRestore part ctx addr s
  | .pentimentoComplete blk => Sys2Proof.Machine.execPentimentoComplete blk s
  | .redundantCompare blk => Sys2Proof.Machine.execRedundantCompare blk s
  | .bankRetire arr die core bank => Sys2Proof.Machine.execBankRetire arr die core bank s
  | .bankCutover arr die core bank => Sys2Proof.Machine.execBankCutover arr die core bank s
  | .regionMigrate die => Sys2Proof.Machine.execRegionMigrate die s
  | .assistTimeout part seq => Sys2Proof.Machine.execAssistTimeout part seq s
  | .shootdownComplete part => Sys2Proof.Machine.execShootdownComplete part s
  | .unloadComplete part => Sys2Proof.Machine.execUnloadComplete part s
  | .bringUp => Sys2Proof.Machine.execBringUp s
  | .thermalPowerOff => Sys2Proof.Machine.execThermalPowerOff s
  | .remoteRequest req => Sys2Proof.Machine.execRemoteRequest req s
  | .remoteRetransmit op => Sys2Proof.Machine.execRemoteRetransmit op s
  | .remoteGiveUp op => Sys2Proof.Machine.execRemoteGiveUp op s
  | .quorumTimeout group step => Sys2Proof.Machine.execQuorumTimeout group step s
  | .uncorrectableError site => Sys2Proof.Machine.execUncorrectableError site s
  | .scrubberPass site correctable => Sys2Proof.Machine.execScrubberPass site correctable s
  | .coreLost die core => Sys2Proof.Machine.execCoreLost die core s
  | .dramBankRemove die bank => Sys2Proof.Machine.execDramBankRemove die bank s
  | .assistResponse part seq accept addr => Sys2Proof.Machine.execAssistResponse part seq accept addr s
  | .partitionGo part => Sys2Proof.Machine.execPartitionGo part s
  | .partitionReset part scrub => Sys2Proof.Machine.execPartitionReset part scrub s
  | .functionLevelReset part => Sys2Proof.Machine.execFunctionLevelReset part s
  | .ctxCreate part ctx => Sys2Proof.Machine.execCtxCreate part ctx s
  | .ctxSuspend part ctx expo => Sys2Proof.Machine.execCtxSuspend part ctx expo s
  | .ctxResume part ctx => Sys2Proof.Machine.execCtxResume part ctx s
  | .ctxDestroy part ctx => Sys2Proof.Machine.execCtxDestroy part ctx s
  | .ctxClearerr part ctx mask => Sys2Proof.Machine.execCtxClearerr part ctx mask s
  | .ctxReload part ctx => Sys2Proof.Machine.execCtxReload part ctx s
  | .ctxBadOp part ctx op => Sys2Proof.Machine.execCtxBadOp part ctx op s
  | .queueEnable part q value => Sys2Proof.Machine.execQueueEnable part q value s
  | .queueDisable part q value => Sys2Proof.Machine.execQueueDisable part q value s
  | .queueRestart part q => Sys2Proof.Machine.execQueueRestart part q s
  | .queueSkip part q => Sys2Proof.Machine.execQueueSkip part q s
  | .shootdown part value => Sys2Proof.Machine.execShootdown part value s
  | .objLoad part req => Sys2Proof.Machine.execObjLoad part req s
  | .objUnload part req => Sys2Proof.Machine.execObjUnload part req s
  | .objSetslot part req => Sys2Proof.Machine.execObjSetslot part req s
  | .objBadOp part value => Sys2Proof.Machine.execObjBadOp part value s
  | .attestationRequest addr => Sys2Proof.Machine.execAttestationRequest addr s
  | .ptpLatch => Sys2Proof.Machine.execPtpLatch s
  | .ptpStep offset => Sys2Proof.Machine.execPtpStep offset s
  | .isrWrite part value => Sys2Proof.Machine.execIsrWrite part value s
  | .imaskWrite part value => Sys2Proof.Machine.execImaskWrite part value s
  | .frtailWrite part value => Sys2Proof.Machine.execFrtailWrite part value s
  | .linkControlWrite link value => Sys2Proof.Machine.execLinkControlWrite link value s
  | .fidWrite value => Sys2Proof.Machine.execFidWrite value s
  | .registerWrite space off value => Sys2Proof.Machine.execRegisterWrite space off value s
  | .supplySag group mhz => Sys2Proof.Machine.execSupplySag group mhz s
  | .thermalTrip => Sys2Proof.Machine.execThermalTrip s
  | .linkTraining link peer => Sys2Proof.Machine.execLinkTraining link peer s
  | .flitReplay link => Sys2Proof.Machine.execFlitReplay link s
  | .remoteResponse resp => Sys2Proof.Machine.execRemoteResponse resp s
  | .reduceContribution con => Sys2Proof.Machine.execReduceContribution con s
  | .ingressFrame link frame => Sys2Proof.Machine.execIngressFrame link frame s
  | .ptpMessage link frame => Sys2Proof.Machine.execPtpMessage link frame s
  | .hostMemAccess addr wr len => Sys2Proof.Machine.execHostMemAccess addr wr len s
  | .hostSnoop addr => Sys2Proof.Machine.execHostSnoop addr s
  | .linkFailed link failed => Sys2Proof.Machine.execLinkFailed link failed s
  | .modulePowerLimit mhz => Sys2Proof.Machine.execModulePowerLimit mhz s

end Sys2Proof.Machine
end

