-- ==== Sys2Proof/Machine/Wake.lean ====
section
/-! DEFINITION. What follows every instruction and event: waiting threads whose next instruction has no unsatisfied dependence
become ready (01 R17), and what the block and the device waited for is looked at. -/

namespace Sys2Proof.Machine

/-- A thread of the state. -/
def Cur.thread (c : Cur) (s : State) : Option Thread := s.thread? c.bid c.acc c.tid

/-- The lines of a thread's instruction are at hand: it has fetched them where it waits for something else. -/
def withLines (s : State) (b : Block) (t : Thread) : State :=
  let line := fun (a : Word) => ({ die := b.die, core := b.core, ctx := b.ctx, line := a.toNat / 128 } : ICLine)
  if t.wait = .fetch then s else { s with icache := line t.pc :: line (t.pc + 4) :: s.icache }

/-- The wait of a thread after its instruction was tried: ready where the instruction could issue, which is where the thread
goes on or the attempt did something to its block. -/
def triedWait (c : Cur) (before after : State) : Wait :=
  match c.thread after with
  | none => .ready
  | some t =>
    let as' := ((after.setThread c.bid c.acc { t with wait := .ready }).block? c.bid)
    if !t.running || as' != before.block? c.bid then .ready else t.wait

/-- What a waiting thread waits at now (01 R17, R28). Its instruction is tried on the state, and the trial is dropped. A fetch
that stops could be tried again where it asks for something: a line, or the host's check of a page. -/
def waitNow (s : State) (c : Cur) : Wait :=
  match s.block? c.bid, c.thread s with
  | some b, some t =>
    let t0 : Thread := { t with wait := .ready }
    let s0 := { (withLines s b t).setThread c.bid c.acc t0 with cur := some c }
    match s0.block? c.bid with
    | none => t.wait
    | some b0 =>
      match fetchInstr s0 b0 t0 c.acc with
      | .stop s1 =>
        if s1.fills.length != s0.fills.length || (s1.part b.part).assists.length != (s0.part b.part).assists.length then .ready
        else triedWait c s0 s1
      | .run i s1 => match exec i s1 with
        | .next s2 => triedWait c s0 s2
        | _ => .ready
  | _, _ => .ready

/-- Waiting threads that could issue are ready from this cycle on; the others wait at what their instruction waits for (01 R17). -/
def wakeReady (s : State) : State :=
  let w := fun (b : Block) (acc : Bool) (t : Thread) =>
    if t.running && t.wait != .ready then
      match waitNow s { bid := b.bid, tid := t.tid, acc := acc } with
      | .ready => { t with wait := .ready, since := s.cycle }
      | x => { t with wait := x }
    else t
  { s with
    blocks := s.blocks.map fun b =>
      let b := if b.issues then { b with threads := b.threads.map (w b false) } else b
      if b.accessIssues then { b with access := b.access.map (w b true) } else b }

/-- Threads whose wait the action itself ended became ready in this cycle (01 R17). -/
def stampReady (before s : State) : State :=
  let w := fun (b : Block) (acc : Bool) (t : Thread) =>
    if t.wait == .ready && (before.thread? b.bid acc t.tid).any fun u => u.wait != .ready then { t with since := s.cycle } else t
  { s with
    blocks := s.blocks.map fun b => { b with threads := b.threads.map (w b false), access := b.access.map (w b true) } }

/-- What follows every instruction and event; before is the state it ran on. -/
def afterRun (event : Bool) (before s : State) : State :=
  let s := if event || curWaits s then s else countCur (ageCur s)
  settleDevice (wakeReady (stampReady before (settleBlocks s)))

end Sys2Proof.Machine
end

