-- ==== Sys2Proof/Machine/Step.lean ====
section
/-! DEFINITION. One step of the device, and a state in which the next step fetches and runs a given word. -/

namespace Sys2Proof.Machine

/-- One step: what the schedule names next (Machine/Schedule.lean), and what follows it (Machine/Wake.lean). -/
def step (s : State) : Host.Outcome State Fault Refusal :=
  match nextAction s with
  | .quiet s' => .next s'
  | .ended s' => .next (afterRun true s s')
  | .run i s' =>
    match exec i s' with
    | .next t => .next (afterRun i.isEvent s' t)
    | .fault f => .fault f
    | .refused r => .refused r

/-- s with an instruction of nbits bits w, and zeros above, where the next step fetches (log 14). -/
def State.withFetchWord (s : State) (nbits w : Nat) : State := placeWord s (w % 2 ^ nbits)

end Sys2Proof.Machine
end

