-- ==== Sys2Proof/Safety.lean ====
section
/-! DEFINITION. What a safe run is, and the terms in which statements speak of an instruction that meets nothing before its own
effect: the issuing thread has every register it names (02 R37), and those it waits for are full (02 R39, R40). -/

namespace Sys2Proof

open Sys2Proof.Machine

/-- The step neither faults nor is refused. -/
def SafeStep (s : State) : Prop := ∃ t, step s = .next t

/-- Everything the outside world has put in the inbox is an event. -/
def InputsOnly (s : State) : Prop := ∀ e ∈ s.inbox, e.isEvent = true

/-- An instruction with prefix p runs for h, the issuing thread of s: every register number in names is one the thread has,
every register in full is full, and access-slice code neither carries a prefix nor reads in a trapping form (10 R243). -/
structure Runs (s : State) (p : Option Pfx) (names : List Nat) (full : List Reg) (traps : List Bool) (h : Here) : Prop where
  cur : current s (pfxLen p) = some h
  names : ∀ n ∈ names, regOk h n = true
  full : ∀ x ∈ full, h.t.xFull x = true
  slice : h.acc = true → p = none ∧ ∀ f ∈ traps, f = false

/-- As Runs, in the execute slice. -/
structure RunsHere (s : State) (p : Option Pfx) (names : List Nat) (full : List Reg) (h : Here) : Prop where
  cur : current s (pfxLen p) = some h
  acc : h.acc = false
  names : ∀ n ∈ names, regOk h n = true
  full : ∀ x ∈ full, h.t.xFull x = true

/-- Does a whole-thread instruction write rd: bit 0 of its enabling mask is set, or its prefix zeroes (06 R134)? -/
def writesRd (p : Option Pfx) (h : Here) : Bool := active p h.t || pfxZero p

/-- The registers of a list that a whole-thread instruction waits for besides its sources. -/
def waitsFor (p : Option Pfx) (h : Here) (rd : Reg) : List Reg := if writesRd p h then [rd] else []

/-- The state after an instruction whose thread becomes t and moves on (07 R158). -/
def moved (h : Here) (t : Thread) : State := h.put h.s (t.advance h.len)

/-- What a whole-thread instruction leaves in its thread (07 R147 Result): v in rd, 0 under zeroing, or rd as it was. -/
def wholeResult (h : Here) (p : Option Pfx) (rd : Reg) (v : Word) (xs : List Reg) : State :=
  moved h (if active p h.t then writeP h h.t rd v xs else if pfxZero p then h.t.writeX rd 0 else h.t)

/-- What a thread that makes a transfer leaves (07 R156, R159): the target is its PC, and the loop bodies it leaves have ended. -/
def jumped (h : Here) (target : Word) : State :=
  h.put h.s { h.t with lc := (leaveBodies h.s h.b.view h.t.pc target h.t).lc, pc := target, wait := .ready }

/-- What an instruction whose thread is not enabled leaves (06 R134): rd as it was, or 0 under zeroing. -/
def maskedOut (h : Here) (p : Option Pfx) (rd : Reg) : State := moved h (if pfxZero p then h.t.writeX rd 0 else h.t)

/-- A value cut to the i64 range (03 R57 SatInt). -/
def clamp64 (v : Int) : Word :=
  if v < -2 ^ 63 then 0x8000000000000000 else if 2 ^ 63 ≤ v then 0x7FFFFFFFFFFFFFFF else BitVec.ofInt 64 v

/-- What a thread keeps over an instruction that writes only registers: everything but its registers with their full bits and
poison, sr.fpst, its loop levels, its PC, and that it is ready again. -/
structure SameButRegs (t u : Thread) : Prop where
  who : u.tid = t.tid ∧ u.slot = t.slot ∧ u.lane = t.lane ∧ u.life = t.life ∧ u.spawned = t.spawned
  masks : u.k = t.k
  modes : u.wb = t.wb ∧ u.rm = t.rm ∧ u.spth = t.spth ∧ u.tvec = t.tvec
  traps : u.tcause = t.tcause ∧ u.tpc = t.tpc ∧ u.tval = t.tval ∧ u.inHandler = t.inHandler
  waits : u.outst = t.outst ∧ u.barsWait = t.barsWait ∧ u.reconv = t.reconv ∧ u.parking = t.parking
  slice : u.halted = t.halted ∧ u.touched = t.touched ∧ u.cmsn = t.cmsn

/-- Registers other than the destination keep their value and full bit. -/
def OnlyRd (rd : Reg) (t u : Thread) : Prop :=
  ∀ n < 256, (rd = 0 ∨ n ≠ t.yOf rd % 256) → u.y n = t.y n ∧ u.yFull n = t.yFull n

/-- The long-latency producer an instruction leaves behind (02 R38). -/
def started (s : State) (p : Prod) : State := { s with nextId := s.nextId + 1, prods := s.prods ++ [p] }

/-- Element m of n elements of b bits after an instruction under prefix p: the result where the enabling mask has the element,
0 or the old element elsewhere (08 R176). -/
def Elements (h : Here) (p : Option Pfx) (rd : Reg) (b n : Nat) (r : Nat → Nat) (v : Word) : Prop :=
  ∀ m < n, elem v m b =
    if elemOn (enableMask p h.t) m b then r m % 2 ^ b else if pfxZero p then 0 else elem (h.t.readX rd) m b

/-- The flags fl are those that some active element raises (03 R61, R64). -/
def FlagsOf (h : Here) (p : Option Pfx) (b n : Nat) (r : Nat → Flags) (fl : Flags) : Prop :=
  ∀ i < 5, fl.getLsbD i = true ↔ ∃ m < n, elemOn (enableMask p h.t) m b = true ∧ (r m).getLsbD i = true

/-- The instruction i writes rd element by element at issue, zeros above, and raises the active elements' flags. -/
def ElementWise (i : Instr) (s : State) (h : Here) (p : Option Pfx) (rd : Reg) (b n : Nat) (r : Nat → Nat × Flags) : Prop :=
  ∃ (v : Word) (fl : Flags),
    exec i s = .next (moved h { h.t.writeX rd v with fpst := h.t.fpst ||| fl })
    ∧ Elements h p rd b n (fun m => (r m).1) v ∧ v.toNat < 2 ^ (n * b)
    ∧ FlagsOf h p b n (fun m => (r m).2) fl

/-- The instruction i starts a producer whose value and flags are those (02 R38). -/
def ElementWiseLater (i : Instr) (s : State) (h : Here) (p : Option Pfx) (rd : Reg) (b n : Nat) (r : Nat → Nat × Flags) :
    Prop :=
  ∃ q : Prod, exec i s = .next ((started s q).setThread h.b.bid false ((h.t.emptyX rd).advance h.len))
    ∧ q.id = s.nextId ∧ q.bid = h.b.bid ∧ q.tid = h.t.tid ∧ q.acc = false ∧ q.ready = true
    ∧ q.y = (if rd = 0 then none else some (h.t.yOf rd))
    ∧ Elements h p rd b n (fun m => (r m).1) q.val ∧ FlagsOf h p b n (fun m => (r m).2) q.flags

/-- The state s, or the one after the interval boundary that an irrevocable action is followed by (01 R31). -/
def irrevocable (yes : Bool) (h : Here) (s : State) : State := if yes then clusterBoundary s h.b else s

/-- A load of n bytes leaves a producer that will put v into rd (02 R38); s' is the state with the access's A bits set. -/
def LoadStarts (i : Instr) (s' : State) (h : Here) (rd : Reg) (v : Word) : Prop :=
  ∃ q : Prod, exec i h.s = .next (h.put (started s' q) ((h.t.emptyX rd).advance h.len))
    ∧ q.id = s'.nextId ∧ q.bid = h.b.bid ∧ q.tid = h.t.tid ∧ q.acc = h.acc ∧ q.val = v ∧ q.flags = 0 ∧ q.ready = true
    ∧ q.poison = none ∧ q.y = (if rd = 0 then none else some (h.t.yOf rd))

/-- The bytes of the places ls and the page-table entries on the way are all that t may hold otherwise than s. -/
def OnlyAt (ls : List Located) (s t : State) : Prop :=
  (∀ a, (∀ l ∈ ls, l.place ≠ .phys a) →
      (∀ l ∈ ls, ∀ f, l.leaf = some f → a < f.entryAddr ∨ f.entryAddr + 8 ≤ a) → cellsGet t.mem a = cellsGet s.mem a)
  ∧ (∀ a, (∀ l ∈ ls, l.place ≠ .atelier a) → cellsGet t.atelier a = cellsGet s.atelier a)
  ∧ ∀ b o, (∀ l ∈ ls, l.place ≠ .scratch b o) → placeGet t (.scratch b o) = placeGet s (.scratch b o)

/-- The page-table entries on the way to the bytes ls are all that t may hold otherwise than s. -/
def OnlyEntries (ls : List Located) (s t : State) : Prop :=
  (∀ a, (∀ l ∈ ls, ∀ f, l.leaf = some f → a < f.entryAddr ∨ f.entryAddr + 8 ≤ a) → cellsGet t.mem a = cellsGet s.mem a)
  ∧ (∀ a, cellsGet t.atelier a = cellsGet s.atelier a) ∧ ∀ b o, placeGet t (.scratch b o) = placeGet s (.scratch b o)

/-- Every byte of physical memory and of the atelier reads as before. -/
def SameBytes (s t : State) : Prop :=
  (∀ a, cellsGet t.mem a = cellsGet s.mem a) ∧ ∀ a, cellsGet t.atelier a = cellsGet s.atelier a

/-- Every memory of the state has its canonical form. -/
def MemoriesWf (s : State) : Prop :=
  Memory.wf s.mem = true ∧ Memory.wf s.atelier = true ∧ ∀ b ∈ s.blocks, Memory.wf b.scratch = true

/-- What step does with an instruction or event on a state: exec, and what follows every action. -/
def runOn (i : Instr) (s : State) : Out :=
  match exec i s with
  | .next t => .next (afterRun i.isEvent s t)
  | .fault f => .fault f
  | .refused r => .refused r

end Sys2Proof
end

