-- ==== Sys2Proof/Certificates/Slice0/Obligations.lean ====
section
/-! DEFINITION. The statements about this model, for the provers. Each docstring names the rules of spec/ it speaks of. -/

open Sys2Proof Sys2Proof.Machine

/-! ## Integer instructions (chapter 07) -/

/-- ALU-A (R149, R147): the value of each row, delivered by Result. Without sat a sum, difference or shift wraps; with sat it is
cut to the i64 range. The signs of the other rows are those the table gives. -/
def Obligations.AluAResults : Prop :=
  ∀ (p : Option Pfx) (rd ra rb : Reg) (fea feb : Bool) (s : State) (h : Here),
    Runs s p [rd.toNat, ra.toNat, rb.toNat] ([ra, rb] ++ waitsFor p h rd) [fea, feb] h →
    let a := h.t.readX ra
    let b := h.t.readX rb
    let sh := b.toNat % 64
    let gives := fun (v : Word) => (Host.Outcome.next (wholeResult h p rd v [ra, rb]) : Out)
    let cut := fun (v : Int) => if pfxSat p then clamp64 v else BitVec.ofInt 64 v
    exec (.add p rd ra rb fea feb) s = gives (cut (a.toInt + b.toInt))
    ∧ exec (.sub p rd ra rb fea feb) s = gives (cut (a.toInt - b.toInt))
    ∧ exec (.and p rd ra rb fea feb) s = gives (a &&& b)
    ∧ exec (.or p rd ra rb fea feb) s = gives (a ||| b)
    ∧ exec (.xor p rd ra rb fea feb) s = gives (a ^^^ b)
    ∧ exec (.andn p rd ra rb fea feb) s = gives (a &&& ~~~b)
    ∧ exec (.shl p rd ra rb fea feb) s = gives (cut (a.toInt * 2 ^ sh))
    ∧ exec (.shr p rd ra rb fea feb) s = gives (BitVec.ofNat 64 (a.toNat / 2 ^ sh))
    ∧ exec (.sra p rd ra rb fea feb) s = gives (BitVec.ofInt 64 (a.toInt / 2 ^ sh))
    ∧ exec (.rot p rd ra rb fea feb) s = gives (a.rotateRight sh)
    ∧ exec (.min p rd ra rb fea feb) s = gives (BitVec.ofInt 64 (min a.toInt b.toInt))
    ∧ exec (.max p rd ra rb fea feb) s = gives (BitVec.ofInt 64 (max a.toInt b.toInt))
    ∧ exec (.minn p rd ra rb fea feb) s = gives (BitVec.ofNat 64 (min a.toNat b.toNat))
    ∧ exec (.maxn p rd ra rb fea feb) s = gives (BitVec.ofNat 64 (max a.toNat b.toNat))
    ∧ exec (.slt p rd ra rb fea feb) s = gives (if a.toInt < b.toInt then 1 else 0)

/-- ALU-B but the division family and SEL (R150). A count of zeros or ones is stated by the bits it counts. -/
def Sys2Proof.Claim.AluBResults : Prop :=
  ∀ (p : Option Pfx) (rd ra rb : Reg) (fea feb : Bool) (n : BitVec 6) (s : State) (h : Here),
    Runs s p [rd.toNat, ra.toNat, rb.toNat] ([ra, rb] ++ waitsFor p h rd) [fea, feb] h →
    let a := h.t.readX ra
    let b := h.t.readX rb
    let gives := fun (xs : List Reg) (v : Word) => (Host.Outcome.next (wholeResult h p rd v xs) : Out)
    let cut := fun (v : Int) => if pfxSat p then clamp64 v else BitVec.ofInt 64 v
    exec (.mul p rd ra rb fea feb) s = gives [ra, rb] (cut (a.toInt * b.toInt))
    ∧ exec (.mulh p rd ra rb fea feb) s = gives [ra, rb] (BitVec.ofInt 64 (a.toInt * b.toInt / 2 ^ 64))
    ∧ exec (.mulhn p rd ra rb fea feb) s = gives [ra, rb] (BitVec.ofNat 64 (a.toNat * b.toNat / 2 ^ 64))
    ∧ exec (.sltn p rd ra rb fea feb) s = gives [ra, rb] (if a.toNat < b.toNat then 1 else 0)
    ∧ (∃ v : Nat, exec (.clz p rd ra fea) s = gives [ra] (BitVec.ofNat 64 v) ∧ v ≤ 64
        ∧ (∀ i < v, a.getLsbD (63 - i) = false) ∧ (v < 64 → a.getLsbD (63 - v) = true))
    ∧ (∃ v : Nat, exec (.ctz p rd ra fea) s = gives [ra] (BitVec.ofNat 64 v) ∧ v ≤ 64
        ∧ (∀ i < v, a.getLsbD i = false) ∧ (v < 64 → a.getLsbD v = true))
    ∧ exec (.popc p rd ra fea) s
        = gives [ra] (BitVec.ofNat 64 ((List.range 64).filter fun i => a.getLsbD i).length)
    ∧ (∃ v : Word, exec (.brev p rd ra fea) s = gives [ra] v ∧ ∀ i < 64, v.getLsbD i = a.getLsbD (63 - i))
    ∧ exec (.shli p rd ra n fea) s = gives [ra] (cut (a.toInt * 2 ^ n.toNat))
    ∧ exec (.shri p rd ra n fea) s = gives [ra] (BitVec.ofNat 64 (a.toNat / 2 ^ n.toNat))
    ∧ exec (.srai p rd ra n fea) s = gives [ra] (BitVec.ofInt 64 (a.toInt / 2 ^ n.toNat))

/-- The immediate forms (R153): the immediate is sign-extended, before the unsigned compare of SLTNI too. -/
def Sys2Proof.Claim.ImmediateResults : Prop :=
  ∀ (p : Option Pfx) (rd ra : Reg) (fea : Bool) (imm : BitVec 12) (s : State) (h : Here),
    Runs s p [rd.toNat, ra.toNat] (ra :: waitsFor p h rd) [fea] h →
    let a := h.t.readX ra
    let gives := fun (v : Word) => (Host.Outcome.next (wholeResult h p rd v [ra]) : Out)
    exec (.addi p rd ra fea imm) s
        = gives (if pfxSat p then clamp64 (a.toInt + imm.toInt) else BitVec.ofInt 64 (a.toInt + imm.toInt))
    ∧ exec (.andi p rd ra fea imm) s = gives (a &&& BitVec.ofInt 64 imm.toInt)
    ∧ exec (.slti p rd ra fea imm) s = gives (if a.toInt < imm.toInt then 1 else 0)
    ∧ exec (.sltni p rd ra fea imm) s = gives (if a.toNat < (BitVec.ofInt 64 imm.toInt).toNat then 1 else 0)

/-- The U group (R154): LIH, ADDPC and CALL, whose link is PC + 4 and which ends no loop level. -/
def Obligations.UGroup : Prop :=
  ∀ (rd : Reg) (imm : BitVec 20) (s : State) (h : Here), Runs s none [rd.toNat] [rd] [] h →
    let i := BitVec.ofInt 64 (imm.toInt * 4096)
    exec (.lih rd imm) s = .next (moved h (writeP h h.t rd i []))
    ∧ exec (.addpc rd imm) s = .next (moved h (writeP h h.t rd (h.t.pc + i) []))
    ∧ (h.acc = false → exec (.call rd imm) s = .next (h.put h.s
        { h.t.writeX rd (h.t.pc + 4) with pc := h.t.pc + BitVec.ofInt 64 (imm.toInt * 4), wait := .ready }))

/-- SEL (R152): byte j of rd is byte j of ra where bit j of the mask register is set, and byte j of rb elsewhere; the mask
register is k1 without a prefix, k0 reads all ones (R42). -/
def Sys2Proof.Claim.SelResult : Prop :=
  ∀ (p : Option Pfx) (rd ra rb : Reg) (fea feb : Bool) (s : State) (h : Here),
    RunsHere s p [rd.toNat, ra.toNat, rb.toNat] [ra, rb, rd] h → (∀ q, p = some q → q.zero = false) →
    ∃ v : Word, exec (.sel p rd ra rb fea feb) s = .next (moved h (h.t.writeX rd v))
      ∧ ∀ j < 8, elem v j 8 = if (h.t.kReg ((p.map (·.mask)).getD 1)).getLsbD j
          then elem (h.t.readX ra) j 8 else elem (h.t.readX rb) j 8

/-- All of: AluBResults, ImmediateResults, SelResult. -/
def Obligations.AluBAndImmediateResults : Prop := Claim.AluBResults ∧ Claim.ImmediateResults ∧ Claim.SelResult

/-- The division family (R151): at issue rd is marked empty and one producer is left, holding the table's value; with rd = x0
it names no register. -/
def Sys2Proof.Claim.DivisionStarts : Prop :=
  ∀ (p : Option Pfx) (rd ra rb : Reg) (fea feb : Bool) (s : State) (h : Here),
    RunsHere s p [rd.toNat, ra.toNat, rb.toNat] ([ra, rb] ++ waitsFor p h rd) h → active p h.t = true →
    let a := h.t.readX ra
    let b := h.t.readX rb
    let starts := fun (i : Instr) (v : Word) =>
      ∃ q : Prod, exec i s = .next ((started s q).setThread h.b.bid false ((h.t.emptyX rd).advance h.len))
        ∧ q.id = s.nextId ∧ q.bid = h.b.bid ∧ q.tid = h.t.tid ∧ q.acc = false ∧ q.val = v ∧ q.flags = 0
        ∧ q.y = (if rd = 0 then none else some (h.t.yOf rd)) ∧ q.ready = true
    starts (.div p rd ra rb fea feb)
        (if b = 0 then BitVec.allOnes 64 else BitVec.ofInt 64 (a.toInt.tdiv b.toInt))
    ∧ starts (.divn p rd ra rb fea feb) (if b = 0 then BitVec.allOnes 64 else BitVec.ofNat 64 (a.toNat / b.toNat))
    ∧ starts (.rem p rd ra rb fea feb) (if b = 0 then a else BitVec.ofInt 64 (a.toInt - a.toInt.tdiv b.toInt * b.toInt))
    ∧ starts (.remn p rd ra rb fea feb) (if b = 0 then a else BitVec.ofNat 64 (a.toNat % b.toNat))
    ∧ (a.toInt = -2 ^ 63 → b.toInt = -1 → starts (.div p rd ra rb fea feb) a ∧ starts (.rem p rd ra rb fea feb) 0)

/-- The division family in a thread that is not enabled (R134, R147): no producer starts; rd stays or is zeroed. -/
def Sys2Proof.Claim.DivisionMasked : Prop :=
  ∀ (p : Option Pfx) (rd ra rb : Reg) (fea feb : Bool) (s : State) (h : Here),
    RunsHere s p [rd.toNat, ra.toNat, rb.toNat] ([ra, rb] ++ waitsFor p h rd) h → active p h.t = false →
    let masked := (Host.Outcome.next (maskedOut h p rd) : Out)
    exec (.div p rd ra rb fea feb) s = masked ∧ exec (.divn p rd ra rb fea feb) s = masked
    ∧ exec (.rem p rd ra rb fea feb) s = masked ∧ exec (.remn p rd ra rb fea feb) s = masked

/-! ## Branches, loops and the CTRL group (chapter 07) -/

/-- BR (R155): the target from the sign-extended displacement when taken, else the next instruction. A taken branch ends the loop
levels whose body it leaves (R159). -/
def Sys2Proof.Claim.BranchTarget : Prop :=
  ∀ (ra : Reg) (cond : BitVec 4) (disp : BitVec 16) (s : State) (h : Here), cond.toNat ≤ 8 →
    RunsHere s none (if cond.toNat < 6 then [ra.toNat] else []) (if cond.toNat < 6 then [ra] else []) h →
    let v := (h.t.readX ra).toInt
    let bit := (h.t.kReg (ra.setWidth 3)).getLsbD 0
    let taken := match cond.toNat with
      | 0 => v = 0
      | 1 => v ≠ 0
      | 2 => v < 0
      | 3 => 0 ≤ v
      | 4 => 0 < v
      | 5 => v ≤ 0
      | 6 => bit = true
      | 7 => bit = false
      | _ => True
    (taken → exec (.br ra cond disp) s = .next (jumped h (h.t.pc + BitVec.ofInt 64 (disp.toInt * 4))))
    ∧ (¬taken → exec (.br ra cond disp) s = .next (moved h h.t))

/-- JMPR, CALLR and RET (R164, R156): the value read, bits [1:0] cleared, is the target; JMPR and RET end the loop levels they
leave (R159), CALLR reads ra before it writes the link and ends none. -/
def Sys2Proof.Claim.RegisterTransfers : Prop :=
  ∀ (rd ra : Reg) (fea : Bool) (s : State) (h : Here), RunsHere s none [rd.toNat, ra.toNat] [ra, rd] h →
    let target := h.t.readX ra &&& 0xFFFFFFFFFFFFFFFC
    exec (.jmpr ra fea) s = .next (jumped h target)
    ∧ exec (.ret ra fea) s = .next (jumped h target)
    ∧ exec (.callr rd ra fea) s
        = .next (h.put h.s { h.t.writeX rd (h.t.pc + 4) with pc := target, wait := .ready })

/-- All of: BranchTarget, RegisterTransfers. -/
def Obligations.BranchAndRegisterTransfers : Prop := Claim.BranchTarget ∧ Claim.RegisterTransfers

/-- R159: a transfer ends exactly the active levels whose body holds the transfer and not its target; the body runs from start
to the end of the instruction at end. -/
def Sys2Proof.Claim.TransferEndsLevels : Prop :=
  ∀ (s : State) (v : View) (pc target : Word) (t : Thread) (n : Fin 4),
    let l := t.lc[n]
    let size := (l.stop - l.start).toNat + lenAt s v l.stop
    let inside := fun (a : Word) => (a - l.start).toNat < size
    (leaveBodies s v pc target t).lc[n]
      = if l.active = true ∧ inside pc ∧ ¬inside target then { l with active := false, remaining := 0 } else l

/-- LOOP with a count other than 0, and LCSET (R157, R160); LOOP in access-slice code too, on a count without poison (R243). -/
def Sys2Proof.Claim.LoopLevels : Prop :=
  ∀ (lc : BitVec 2) (ra : Reg) (disp : BitVec 18) (fea : Bool) (s : State) (h : Here),
    Runs s none [ra.toNat] [ra] [] h → (h.acc = true → firstPoison h [ra] = none) →
    let n := (h.t.readX ra).setWidth 32
    let level : Fin 4 := ⟨lc.toNat, lc.isLt⟩
    (n ≠ 0 → exec (.loop lc ra disp) s = .next (moved h { h.t with
      lc := h.t.lc.set level.val { active := true, remaining := n, start := h.t.pc + 4,
                                   stop := h.t.pc + BitVec.ofNat 64 (disp.toNat * 4) } level.isLt }))
    ∧ (h.acc = false → exec (.lcset lc ra fea) s = .next (moved h { h.t with
        lc := h.t.lc.set level.val (if h.t.lc[level].active then { h.t.lc[level] with remaining := n } else h.t.lc[level])
          level.isLt }))

/-- LOOP with count 0 (R157): the level is unchanged and the PC is the one after the instruction at endpc, which is read as an
instruction fetch: it waits for a line that is not in the cache (R260), and its fault is taken on the LOOP. In access-slice code
too, on a count without poison (R243). -/
def Sys2Proof.Claim.LoopSkipped : Prop :=
  ∀ (lc : BitVec 2) (ra : Reg) (disp : BitVec 18) (s : State) (h : Here),
    Runs s none [ra.toNat] [ra] [] h → (h.acc = true → firstPoison h [ra] = none) →
    (h.t.readX ra).setWidth 32 = (0 : BitVec 32) →
    let endpc := h.t.pc + BitVec.ofNat 64 (disp.toNat * 4)
    let line : ICLine := { die := h.b.die, core := h.b.core, ctx := h.b.ctx, line := endpc.toNat / 128 }
    (codeInst s h.b.ctx endpc.toNat).all (fun x => !s.poisoned.contains x.1.hash) = true →
    (∀ ls, locateAll s h.b.view needX (addrs endpc.toNat 4) = .inl ls →
      (leafCode ls = true → codeCheck s h.b.part h.b.ctx endpc.toNat = (.ok, s)) →
      (line ∉ s.icache → (∀ f ∈ s.fills, f.line ≠ line) → ∃ f : LineFill, f.line = line ∧ exec (.loop lc ra disp) s
        = .next (h.put { s with fills := s.fills ++ [f] } { h.t with wait := .fetch }))
      ∧ (line ∈ s.icache → dataFault s ls endpc.toNat = none → exec (.loop lc ra disp) s
        = .next (h.put { s with icache := line :: s.icache.filter (· != line) }
            { h.t with pc := endpc + (if readPlaces s ls / 2 ^ 27 = 0x1B then 8 else 4), wait := .ready })))
    ∧ (∀ f, locateAll s h.b.view needX (addrs endpc.toNat 4) = .inr f →
      exec (.loop lc ra disp) s = .next (accessFault s h.b h.t h.acc f h.t.pc 0 4))

/-- All of: LoopLevels, LoopSkipped. -/
def Obligations.LoopInstructions : Prop := Claim.LoopLevels ∧ Claim.LoopSkipped

/-- The end test (R158) at the sequential successor, from level 3 down: a level that ends in the instruction with its last pass is
ended and the next lower one is tested; the first with more passes left loses one and sends the PC to its start, and the levels
below it stay; where there is none the PC is the successor. -/
def Sys2Proof.Claim.EndTest : Prop :=
  ∀ (t : Thread) (len : Nat),
    let ends := fun (n : Fin 4) =>
      t.lc[n].active && decide ((t.lc[n].stop - t.pc).toNat < len) && (t.lc[n].stop - t.pc).toNat % 4 == 0
    let ended := fun (n : Fin 4) => { t.lc[n] with active := false, remaining := 0 }
    let u := t.advance len
    ((∀ n, ends n = true → t.lc[n].remaining.toNat ≤ 1) →
      u = { t with pc := t.pc + BitVec.ofNat 64 len, wait := .ready, lc := u.lc }
      ∧ ∀ n : Fin 4, u.lc[n] = if ends n then ended n else t.lc[n])
    ∧ ∀ n : Fin 4, ends n = true → 1 < t.lc[n].remaining.toNat →
      (∀ m, n < m → ends m = true → t.lc[m].remaining.toNat ≤ 1) →
      u = { t with pc := t.lc[n].start, wait := .ready, lc := u.lc }
      ∧ ∀ m : Fin 4, u.lc[m] = if m = n then { t.lc[n] with remaining := t.lc[n].remaining - 1 }
          else if decide (n < m) && ends m then ended m else t.lc[m]

/-- A thread that moves on keeps everything but its PC, its loop levels and its wait. -/
def Sys2Proof.Claim.AdvanceFrame : Prop :=
  ∀ (t : Thread) (len : Nat), ∃ lc pc, t.advance len = { t with lc := lc, pc := pc, wait := .ready }

/-- All of: TransferEndsLevels, EndTest, AdvanceFrame. -/
def Obligations.LoopEndRules : Prop := Claim.TransferEndsLevels ∧ Claim.EndTest ∧ Claim.AdvanceFrame

/-! ## The order of issue, traps and the illegal-instruction response -/

/-- R17, R39, R40: an instruction whose blocking source or whose destination is empty does not issue; nothing changes but that
its thread waits. Stated of ADD, ST, FADD and SRD, one for each way of naming registers. -/
def Sys2Proof.Claim.EmptyRegisterWaits : Prop :=
  ∀ (rd ra rb : Reg) (typ : BitVec 2) (imm : BitVec 10) (n : BitVec 5) (s : State) (h : Here),
    current s 4 = some h → h.acc = false → (∀ x ∈ [rd, ra, rb], regOk h x.toNat = true) →
    let waits := fun (i : Instr) => ∃ w, w ≠ Wait.ready ∧ exec i s = .next (h.put s { h.t with wait := w })
    (h.t.xFull ra = false ∨ h.t.xFull rb = false ∨ h.t.xFull rd = false →
      waits (.add none rd ra rb false false) ∧ waits (.fadd none rd ra rb false false typ))
    ∧ (h.t.xFull ra = false ∨ h.t.xFull rd = false → waits (.st none rd ra 3 false imm))
    ∧ (h.t.xFull rd = false → srReadable n.toNat = true → waits (.srd rd n))

/-- R39: a trapping source found empty, its instruction having nothing to wait for, raises EMPTY_READ (cause 1) on the
instruction, with sr.tval the source's x number and, from bit 8 on, its y number; ra is looked at before rb. -/
def Sys2Proof.Claim.EmptyReadTraps : Prop :=
  ∀ (rd ra rb : Reg) (fea feb : Bool) (s : State) (h : Here),
    current s 4 = some h → h.acc = false → (∀ x ∈ [rd, ra, rb], regOk h x.toNat = true) → h.t.xFull rd = true →
    (h.t.xFull ra = true ∨ fea = true) → (h.t.xFull rb = true ∨ feb = true) →
    let entry := fun (x : Reg) => (Host.Outcome.next
      (trapEntry s h.b.bid h.t.tid h.t.pc 1 h.t.pc (BitVec.ofNat 64 (x.toNat + 256 * (h.t.wb + x.toNat)))) : Out)
    (h.t.xFull ra = false → exec (.add none rd ra rb fea feb) s = entry ra)
    ∧ (h.t.xFull ra = true → h.t.xFull rb = false → exec (.add none rd ra rb fea feb) s = entry rb)

/-- All of: EmptyRegisterWaits, EmptyReadTraps. -/
def Obligations.EmptyRegistersWaitOrTrap : Prop := Claim.EmptyRegisterWaits ∧ Claim.EmptyReadTraps

/-- R168, R325: entering the handler completes the thread's loads, writes sr.tcause, sr.tpc and sr.tval, marks the thread as in
a handler and sends its PC to sr.tvec; every register that no load fills, mask, loop level, window base and mode stays. -/
def Sys2Proof.Claim.TrapEntryEffect : Prop :=
  ∀ (s : State) (bid tid : Nat) (b : Block) (t : Thread) (cause : Nat) (ipc tpc tval : Word),
    (completeLoads s bid tid).block? bid = some b → b.thread? false tid = some t →
    t.inHandler = false → t.tvec ≠ 0 →
    trapEntry s bid tid ipc cause tpc tval
      = (completeLoads s bid tid).setThread bid false { t with
          tcause := BitVec.ofNat 8 cause, tpc := tpc, tval := tval, inHandler := true, pc := t.tvec, wait := .ready,
          reconv := none }

/-- R168, R327: a trap in a handler, or without a handler, kills the team, sets DOUBLE (bit 1 of sr.err) of the context and
posts a record; the thread itself has ended. Outside commissions. -/
def Sys2Proof.Claim.DoubleFaultKills : Prop :=
  ∀ (s : State) (bid tid : Nat) (b : Block) (t : Thread) (cause : Nat) (ipc tpc tval : Word),
    (completeLoads s bid tid).block? bid = some b → b.thread? false tid = some t → b.commission = none →
    t.inHandler = true ∨ t.tvec = 0 →
    ∃ rcd, rcd.length = 64 ∧ trapEntry s bid tid ipc cause tpc tval
      = postRecord (stick (killThreads (completeLoads s bid tid) bid t.slot) b.ctx 2) b.part rcd

/-- All of: TrapEntryEffect, DoubleFaultKills. -/
def Obligations.HandlerEntryAndDoubleFault : Prop := Claim.TrapEntryEffect ∧ Claim.DoubleFaultKills

/-- TRAP and BRK (R168): cause 3 with sr.tval the register and sr.tpc the PC after the end test; cause 2 with sr.tval 0 and
sr.tpc the BRK's own address, its end test done too. -/
def Sys2Proof.Claim.TrapAndBrk : Prop :=
  ∀ (ra : Reg) (fea : Bool) (s : State) (h : Here), RunsHere s none [ra.toNat] [ra] h →
    exec (.trap ra fea) s = .next
      (trapEntry (moved h h.t) h.b.bid h.t.tid h.t.pc 3 (h.t.advance 4).pc (h.t.readX ra))
    ∧ exec .brk s = .next (trapEntry (moved h h.t) h.b.bid h.t.tid h.t.pc 2 h.t.pc 0)

/-- RTE (R169): in a handler it restores the PC from sr.tpc, or takes it from a register with bits [1:0] ignored, clears
sr.tcause, keeps sr.tpc and sr.tval, ends the loop levels it leaves (R159), and leaves the handler; outside a handler it is illegal. -/
def Sys2Proof.Claim.ReturnFromHandler : Prop :=
  ∀ (ra : Reg) (fea : Bool) (s : State) (h : Here), RunsHere s none [ra.toNat] [ra] h →
    let target := (if ra = 0 then h.t.tpc else h.t.readX ra) &&& 0xFFFFFFFFFFFFFFFC
    (h.t.inHandler = true → exec (.rte ra fea) s = .next (h.put s { h.t with
      lc := (leaveBodies s h.b.view h.t.pc target h.t).lc, pc := target, wait := .ready, tcause := 0, inHandler := false }))
    ∧ (h.t.inHandler = false → exec (.rte ra fea) s = .next (illegalAt s h.b h.t))

/-- All of: TrapAndBrk, ReturnFromHandler. -/
def Obligations.TrapBrkAndReturn : Prop := Claim.TrapAndBrk ∧ Claim.ReturnFromHandler

/-- R174: UDF meets the illegal-instruction response whatever its other fields hold; the canonical word decodes to it. -/
def Obligations.UdfIsIllegal : Prop :=
  (∀ (rd ra rb : Reg) (fea feb : Bool) (s : State) (h : Here), current s 4 = some h →
    exec (.udf rd ra rb fea feb) s = .next (illegalAt s h.b h.t))
  ∧ decodeTableWord 32 0xD000000F = some (.udf 0 0 0 false false)

/-- R30: the response outside a commission ends every live thread of the team, access threads included, leaves the threads of
other teams alive as they were, sets the context's ILLEGAL bit and changes no byte of memory. -/
def Obligations.IllegalKillsTeam : Prop :=
  ∀ (s : State) (b : Block) (t : Thread), s.block? b.bid = some b → b.commission = none →
    (s.blocks.map (·.bid)).Nodup → (b.threads.map (·.tid)).Nodup →
    let s' := illegalAt s b t
    (∀ c ∈ s'.ctxs, c.id = b.ctx → c.sticky.getLsbD 0 = true)
    ∧ SameBytes s s'
    ∧ ∀ b', s'.block? b.bid = some b' →
      (∀ x ∈ b'.threads ++ b'.access, x.slot = t.slot → x.life ≠ .running)
      ∧ (b'.threads.map fun x => (x.tid, x.slot, x.lane)) = (b.threads.map fun x => (x.tid, x.slot, x.lane))
      ∧ ∀ x ∈ b.threads, x.slot ≠ t.slot → ∃ y ∈ b'.threads, y.tid = x.tid ∧ y.life = x.life ∧ y.regs = x.regs

/-- R37 and the field rules of R136 that need the state: an instruction of the execute slice that names a register the thread
does not have, a WINBASE that leaves no register, and access-slice code that is none (10 R243) meet the illegal-instruction
response before anything else. -/
def Obligations.IllegalHere : Prop :=
  ∀ (rd ra rb : Reg) (fea feb : Bool) (typ : BitVec 2) (n : BitVec 3) (s : State) (h : Here), current s 4 = some h →
    let illegal := (Host.Outcome.next (illegalAt s h.b h.t) : Out)
    (regOk h rd.toNat = false ∨ regOk h ra.toNat = false ∨ regOk h rb.toNat = false →
      exec (.add none rd ra rb fea feb) s = illegal ∧ exec (.div none rd ra rb fea feb) s = illegal
      ∧ exec (.fma none rd ra rb fea feb typ) s = illegal ∧ exec (.aadd none rd ra rb 0) s = illegal)
    ∧ (5 ≤ n.toNat ∨ h.b.kernel.regs ≤ 32 * n.toNat → exec (.winbase n) s = illegal)
    ∧ (h.acc = true → exec (.fma none rd ra rb fea feb typ) s = illegal ∧ exec .yield s = illegal
      ∧ exec (.swr ra 22 fea) s = illegal)

/-- A state without what its blocks and launches have read of the capacities. -/
def Sys2Proof.Claim.unread (s : State) : State :=
  { s with
    blocks := s.blocks.map fun b => { b with capRead := [] }
    launches := s.launches.map fun l => { l with capRead := [] } }

/-- The system instructions of the CTRL group: YIELD (R166) makes the thread the youngest, WINBASE (R170) sets the window base,
CAPQ (R172) writes a capacity, and 0 for a reserved code; it keeps what it returned, for the block or for its launch, and changes
nothing else. R88: a capacity is never above what the core has, and no later read is above an earlier one: of the block, on any
core, and for the codes of the partition of any block of the launch. -/
def Sys2Proof.Claim.YieldWinbaseCapq : Prop :=
  ∀ (rd : Reg) (n : BitVec 3) (c : BitVec 4) (s : State) (h : Here), RunsHere s none [rd.toNat] [rd] h →
    exec .yield s = .next (moved h { h.t with since := s.cycle + 1 })
    ∧ (n.toNat < 5 → 32 * n.toNat < h.b.kernel.regs →
      exec (.winbase n) s = .next (moved h { h.t with wb := 32 * n.toNat }))
    ∧ (∃ t : State, exec (.capq rd c) s = .next (t.setThread h.b.bid false
          ((h.t.writeX rd (BitVec.ofNat 64 (readCapacity s h.b c.toNat))).advance h.len))
        ∧ Claim.unread t = Claim.unread s
        ∧ ∀ (s' : State) (b b' : Block), t.block? h.b.bid = some b → (∀ x, capBound s' b' x = capBound t b x) →
            readCapacity s' b' c.toNat ≤ readCapacity s h.b c.toNat)
    ∧ ((∀ x, capBound s h.b x = none) → readCapacity s h.b c.toNat = if c = 3 then min 1536 (capacity s h.b 0 / 32) else capacity s h.b c.toNat)
    ∧ (c ≠ 3 → readCapacity s h.b c.toNat ≤ capacity s h.b c.toNat)
    ∧ (6 ≤ c.toNat → readCapacity s h.b c.toNat = 0)

/-- SRD (R171, R44): the values of the special registers that the rule lists, with the RSV bits of sr.rm, sr.fpst, sr.spth and
sr.tcause reading 0; sr.fpst waits for the thread's floating-point instructions in flight; other numbers are illegal. -/
def Sys2Proof.Claim.SpecialRegisterReads : Prop :=
  ∀ (rd : Reg) (n : BitVec 5) (s : State) (h : Here), RunsHere s none [rd.toNat] [rd] h →
    let reads := fun (v : Word) => exec (.srd rd n) s = .next (moved h (h.t.writeX rd v))
    (n = 0 → reads (BitVec.ofNat 64 h.t.tid)) ∧ (n = 1 → reads (BitVec.ofNat 64 h.t.lane))
    ∧ (n = 2 → reads (BitVec.ofNat 64 h.t.slot)) ∧ (n = 3 → reads (BitVec.ofNat 64 (h.b.kernel.n + h.b.kernel.s)))
    ∧ (n = 4 → reads (BitVec.ofNat 64 h.b.idx)) ∧ (n = 5 → reads (BitVec.ofNat 64 h.b.nblk))
    ∧ (n = 6 → reads (BitVec.ofNat 64 h.b.crank)) ∧ (n = 7 → reads (BitVec.ofNat 64 h.b.csize))
    ∧ (n = 8 → reads (h.b.grid.zeroExtend 64)) ∧ (n = 9 → reads (if h.b.kind = .sCore then 1 else 0))
    ∧ (n = 10 → reads (BitVec.ofNat 64 h.b.cfg)) ∧ (n = 11 → reads (if h.t.spawned then 1 else 0))
    ∧ (n = 12 → reads (BitVec.ofNat 64 (h.b.clk s)))
    ∧ (n = 13 → ∀ c, s.ctx? h.b.ctx = some c → reads ((c.sticky &&& 7).zeroExtend 64))
    ∧ (n = 16 → reads (h.t.tcause.zeroExtend 64)) ∧ (n = 17 → reads h.t.tpc) ∧ (n = 18 → reads h.t.tval)
    ∧ (n = 20 → reads (h.t.rm.zeroExtend 64))
    ∧ (n = 21 → flagsPending h = false → reads (h.t.fpst.zeroExtend 64))
    ∧ (n = 21 → flagsPending h = true → exec (.srd rd n) s = .next (h.put s { h.t with wait := .dep }))
    ∧ (n = 22 → reads (h.t.spth.zeroExtend 64)) ∧ (n = 23 → reads h.t.tvec)
    ∧ (n.toNat ∈ [14, 15, 19, 24, 25, 26, 27, 28, 29, 30, 31] → exec (.srd rd n) s = .next (illegalAt s h.b h.t))

/-- SWR (R171, R45): the RW fields of sr.rm, sr.fpst, sr.spth and sr.tvec; RSV bits and the values 5 to 7 of sr.rm are ignored;
a number that is read-only or not listed is illegal. -/
def Sys2Proof.Claim.SpecialRegisterWrites : Prop :=
  ∀ (ra : Reg) (fea : Bool) (s : State) (h : Here), RunsHere s none [ra.toNat] [ra] h →
    let v := h.t.readX ra
    (v.toNat % 8 < 5 → exec (.swr ra 20 fea) s = .next (moved h { h.t with rm := v.setWidth 3 }))
    ∧ (5 ≤ v.toNat % 8 → exec (.swr ra 20 fea) s = .next (moved h h.t))
    ∧ (flagsPending h = false → exec (.swr ra 21 fea) s = .next (moved h { h.t with fpst := v.setWidth 5 }))
    ∧ (flagsPending h = true → exec (.swr ra 21 fea) s = .next (h.put s { h.t with wait := .dep }))
    ∧ exec (.swr ra 22 fea) s = .next (moved h { h.t with spth := v.setWidth 5 })
    ∧ exec (.swr ra 23 fea) s = .next (moved h { h.t with tvec := v &&& 0xFFFFFFFFFFFFFFFC })
    ∧ ∀ n : BitVec 5, n.toNat < 20 ∨ 23 < n.toNat → exec (.swr ra n fea) s = .next (illegalAt s h.b h.t)

/-- All of: SpecialRegisterReads, SpecialRegisterWrites. -/
def Obligations.SpecialRegisterAccess : Prop := Claim.SpecialRegisterReads ∧ Claim.SpecialRegisterWrites

/-- TSTAMP (R173): a long-latency producer whose value holds the low 34 bits of the clock's seconds above its nanoseconds. -/
def Sys2Proof.Claim.TimestampStarts : Prop :=
  ∀ (rd : Reg) (s : State) (h : Here), RunsHere s none [rd.toNat] [rd] h → s.ptpNs < 10 ^ 9 →
    ∃ q : Prod, exec (.tstamp rd) s = .next ((started s q).setThread h.b.bid false ((h.t.emptyX rd).advance 4))
      ∧ q.id = s.nextId ∧ q.bid = h.b.bid ∧ q.tid = h.t.tid ∧ q.y = (if rd = 0 then none else some (h.t.yOf rd))
      ∧ q.val.toNat / 2 ^ 30 = s.ptpSec % 2 ^ 34 ∧ q.val.toNat % 2 ^ 30 = s.ptpNs

/-- All of: DivisionStarts, DivisionMasked, TimestampStarts. -/
def Obligations.DivisionAndTimestampStart : Prop := Claim.DivisionStarts ∧ Claim.DivisionMasked ∧ Claim.TimestampStarts

/-- EXIT (R165, 10 R243): a thread of the execute slice ends and leaves its groups and barriers; an access thread ends alone;
inside a restart region EXIT raises RESTART_REGION (cause 5, value 7) instead. -/
def Sys2Proof.Claim.ExitEnds : Prop :=
  ∀ (s : State) (h : Here), current s 4 = some h →
    (h.acc = true → exec .exit s = .next (s.setThread h.b.bid true { h.t with life := .exited, wait := .ready }))
    ∧ (h.acc = false → uncommitted h.b = false →
      exec .exit s = .next ((dropThreads s h.b.bid [h.t.tid] .exited true).onBlock h.b.bid settleBlock))
    ∧ (h.acc = false → uncommitted h.b = true →
      exec .exit s = .next (trapEntry s h.b.bid h.t.tid h.t.pc 5 h.t.pc 7))

/-- RECONV (R167, R29): status 2 to a thread that is no member of the set. A member waits, keeping the cycle of its first issue;
when every member of its set waits at this PC, each of them that names this set goes on with status 1. While the set is not
complete, a timeout of 0 gives status 0 at once, and any other leaves the thread waiting. -/
def Sys2Proof.Claim.ReconvStatus : Prop :=
  ∀ (rd ra rb : Reg) (fea feb : Bool) (s : State) (h : Here),
    RunsHere s none [rd.toNat, ra.toNat, rb.toNat] [ra, rb, rd] h →
    let key := if ra = 0 then none else some (h.t.readX ra)
    let i := Instr.reconv rd ra rb fea feb
    (setMembers h.b h.t.slot key = none → exec i s = .next (moved h (h.t.writeX rd 2)))
    ∧ ∀ ms, setMembers h.b h.t.slot key = some ms →
      (h.t.tid ∉ ms → exec i s = .next (moved h (h.t.writeX rd 2)))
      ∧ (h.t.tid ∈ ms → (h.b.threads.map (·.tid)).Nodup →
        let limit := (h.t.readX rb).toNat % 2 ^ 32
        let t' : Thread := { h.t with
          wait := .reconv,
          reconv := some { issued := (h.t.reconv.map (·.issued)).getD (h.b.clk s), key := key, rd := rd, limit := limit } }
        let b' := h.b.setThread false t'
        (allAtReconv b' ms h.t.pc = true → ∃ f : Block → Block, exec i s = .next (s.onBlock h.b.bid f)
          ∧ ∀ u ∈ b'.threads, ∀ r, u.reconv = some r → setMembers b' u.slot r.key = some ms → u.tid ∈ ms → u.pc = h.t.pc →
              { (u.writeX r.rd 1).advance 4 with reconv := none } ∈ (f h.b).threads)
        ∧ (allAtReconv b' ms h.t.pc = false → limit = 0 →
          exec i s = .next (s.onBlock h.b.bid fun b =>
            (settleReconv (b.setThread false t')).setThread false { (t'.writeX rd 0).advance 4 with reconv := none }))
        ∧ (allAtReconv b' ms h.t.pc = false → limit ≠ 0 → t' ∈ (settleReconv b').threads
          ∧ exec i s = .next (s.onBlock h.b.bid fun b => settleReconv (b.setThread false t'))))

/-- All of: YieldWinbaseCapq, ExitEnds, ReconvStatus. -/
def Obligations.ThreadControlInstructions : Prop := Claim.YieldWinbaseCapq ∧ Claim.ExitEnds ∧ Claim.ReconvStatus

/-- BRSPAWN (R162, R25): a thread that is not in the minority, or may not spawn, branches to the target with bits [1:0] cleared
or falls through by its own condition, as an ordinary branch (R159); one that spawns parks for its side once its live range is
full, and waits for it till then. -/
def Obligations.SpawningBranch : Prop :=
  ∀ (ra rb : Reg) (cond : BitVec 3) (first : BitVec 6) (cnt : BitVec 4) (s : State) (h : Here),
    RunsHere s none ([ra.toNat, rb.toNat] ++ (List.range (cnt.toNat + 1)).map (first.toNat + ·)) [ra, rb] h →
    h.t.parking = none → cond.toNat < 6 →
    let holds := fun (x : Thread) => condHolds cond.toNat (x.readX ra)
    let target := h.t.readX rb &&& 0xFFFFFFFFFFFFFFFC
    let dest := if holds h.t then target else h.t.pc + 4
    let mates := h.b.threads.filter fun x =>
      x.life != .exited && x.slot == h.t.slot && x.xFull ra && x.xFull rb && (x.tid == h.t.tid || s.group.contains { bid := h.b.bid, tid := x.tid, acc := false })
    let mine := (mates.filter fun x => holds x == holds h.t).length
    let minority := mine < mates.length - mine ∧ 1 ≤ mine ∧ mine ≤ h.t.spth.toNat ∧ h.t.inHandler = false
    let spawns := minority ∧ (spawnSlot h.b dest).isSome
    let i := Instr.brspawn ra rb cond first cnt
    (¬spawns → holds h.t = true → exec i s = .next (jumped h target))
    ∧ (¬spawns → holds h.t = false → exec i s = .next (moved h h.t))
    ∧ (∀ slot, minority → spawnSlot h.b dest = some slot → liveFull h.t first.toNat (cnt.toNat + 1) = true →
      exec i s = .next (park s h.b h.t { target := dest, first := first.toNat, count := cnt.toNat + 1 } slot))
    ∧ (∀ slot, minority → spawnSlot h.b dest = some slot → liveFull h.t first.toNat (cnt.toNat + 1) = false →
      exec i s = .next (h.put s { h.t with
        parking := some { target := dest, first := first.toNat, count := cnt.toNat + 1 }, wait := .park }))

/-! ## Floating point, packed integers (chapter 08) -/

/-- FP-A, FP-B and FP-C (R178 to R180) and FMA (R179): element by element on the format of the typ field, under the effective
rounding mode and the saturation of the prefix; FMA's addend is the old rd without a prefix and rc with one. -/
def Obligations.FloatResults : Prop :=
  ∀ (p : Option Pfx) (rd ra rb : Reg) (fea feb : Bool) (typ : BitVec 2) (s : State) (h : Here),
    RunsHere s p [rd.toNat, ra.toNat, rb.toNat] [ra, rb, rd] h →
    let f := fpFmt typ
    let x := fun m => elem (h.t.readX ra) m f.slot
    let y := fun m => elem (h.t.readX rb) m f.slot
    let rm := effRM p h.t
    let sat := pfxSat p
    let each := fun (i : Instr) (r : Nat → Nat × Flags) => ElementWise i s h p rd f.slot f.count r
    each (.fadd p rd ra rb fea feb typ) (fun m => opFadd f rm sat (x m) (y m))
    ∧ each (.fsub p rd ra rb fea feb typ) (fun m => opFsub f rm sat (x m) (y m))
    ∧ each (.fmul p rd ra rb fea feb typ) (fun m => opFmul f rm sat (x m) (y m))
    ∧ each (.fdiv p rd ra rb fea feb typ) (fun m => opFdiv f rm sat (x m) (y m))
    ∧ each (.fmin p rd ra rb fea feb typ) (fun m => opFmin f (x m) (y m))
    ∧ each (.fmax p rd ra rb fea feb typ) (fun m => opFmax f (x m) (y m))
    ∧ each (.fcmplt p rd ra rb fea feb typ) (fun m => opFcmplt f (x m) (y m))
    ∧ each (.fcmpeq p rd ra rb fea feb typ) (fun m => opFcmpeq f (x m) (y m))
    ∧ each (.fcmple p rd ra rb fea feb typ) (fun m => opFcmple f (x m) (y m))
    ∧ each (.fcmpun p rd ra rb fea feb typ) (fun m => opFcmpun f (x m) (y m))
    ∧ each (.fcopysign p rd ra rb fea feb typ) (fun m => opFcopysign f (x m) (y m))
    ∧ (p = none → each (.fma p rd ra rb fea feb typ)
        (fun m => opFma f rm sat (x m) (y m) (elem (h.t.readX rd) m f.slot)))
    ∧ (∀ q, p = some q → regOk h q.rc.toNat = true → h.t.xFull q.rc = true → each (.fma p rd ra rb fea feb typ)
        (fun m => opFma f rm sat (x m) (y m) (elem (h.t.readX q.rc) m f.slot)))

/-- FUNARY at issue (R182, R184, R185): as many elements as the wider of the two slots gives, results from bit 0 on. FTOI's
lone element narrower than 64 bits is sign-extended for a signed destination. -/
def Sys2Proof.Claim.UnaryResults : Prop :=
  ∀ (p : Option Pfx) (rd ra : Reg) (dst : BitVec 3) (src : BitVec 4) (fea : Bool) (s : State) (h : Here),
    RunsHere s p [rd.toNat, ra.toNat] [ra, rd] h →
    let f := Fmt.ofCode src.toNat
    let g := Fmt.ofCode dst.toNat
    let rm := effRM p h.t
    let sat := pfxSat p
    let arg := fun (w m : Nat) => elem (h.t.readX ra) m w
    let same := fun (i : Instr) (r : Nat → Nat × Flags) => ElementWise i s h p rd f.slot (64 / f.slot) fun m => r (arg f.slot m)
    same (.fabs p rd ra dst src fea) (fun x => opSign f false x)
    ∧ same (.fneg p rd ra dst src fea) (fun x => opSign f true x)
    ∧ same (.fclass p rd ra dst src fea) (fun x => opFclass f x)
    ∧ same (.fround p rd ra dst src fea) (fun x => opFround f rm x)
    ∧ ElementWise (.fcvt p rd ra dst src fea) s h p rd g.slot (64 / max f.slot g.slot) (fun m => opFcvt f g rm sat (arg f.slot m))
    ∧ (8 ≤ src.toNat → ElementWise (.itof p rd ra dst src fea) s h p rd g.slot (64 / max (intWidth src.toNat) g.slot)
        (fun m => opItof src.toNat g rm sat (arg (intWidth src.toNat) m)))
    ∧ let w := intWidth (dst.toNat + 8)
      let n := 64 / max f.slot w
      ∃ (v : Word) (fl : Flags),
        exec (.ftoi p rd ra dst src fea) s = .next (moved h { h.t.writeX rd v with fpst := h.t.fpst ||| fl })
        ∧ Elements h p rd w n (fun m => (opFtoi f (dst.toNat + 8) rm sat (arg f.slot m)).1) v
        ∧ FlagsOf h p w n (fun m => (opFtoi f (dst.toNat + 8) rm sat (arg f.slot m)).2) fl
        ∧ (if n = 1 ∧ dst.toNat < 4 then v = sextTo w (elem v 0 w) else v.toNat < 2 ^ (n * w))

/-- The special functions and FEXPT (R183): long-latency producers over the elements, when an element is active; without one no
producer starts and rd's elements stay or are zeroed (R134). -/
def Sys2Proof.Claim.SpecialFunctionsStart : Prop :=
  ∀ (p : Option Pfx) (rd ra : Reg) (dst : BitVec 3) (src : BitVec 4) (fea : Bool) (s : State) (h : Here),
    RunsHere s p [rd.toNat, ra.toNat] [ra, rd] h →
    let f := Fmt.ofCode src.toNat
    let rm := effRM p h.t
    let x := fun m => decodeNum f (elem (h.t.readX ra) m f.slot)
    let some' := ∃ m < 64 / f.slot, elemOn (enableMask p h.t) m f.slot = true
    let each := fun (i : Instr) (r : Machine.Num → Nat × Flags) =>
      (some' → ElementWiseLater i s h p rd f.slot (64 / f.slot) fun m => r (x m))
      ∧ (¬some' → ∃ v : Word, exec i s = .next (moved h (h.t.writeX rd v))
          ∧ ∀ m < 64 / f.slot, elem v m f.slot = if pfxZero p then 0 else elem (h.t.readX rd) m f.slot)
    each (.fsqrt p rd ra dst src fea) (sqrtOp f rm) ∧ each (.frcp p rd ra dst src fea) (rcpOp f rm)
    ∧ each (.frsq p rd ra dst src fea) (rsqOp f) ∧ each (.fexp2 p rd ra dst src fea) (exp2Op f)
    ∧ each (.flog2 p rd ra dst src fea) (log2Op f) ∧ each (.fsin p rd ra dst src fea) (sinOp f)
    ∧ each (.fcos p rd ra dst src fea) (cosOp f) ∧ each (.ftanh p rd ra dst src fea) (tanhOp f)
    ∧ each (.fexpt p rd ra dst src fea) (exptOp f)

/-- All of: UnaryResults, SpecialFunctionsStart. -/
def Obligations.UnaryFloatAndSpecialFunctions : Prop := Claim.UnaryResults ∧ Claim.SpecialFunctionsStart

/-- The value of a code of format f in units of 2^-1074, of which every finite value of every format is a whole number; none for
an infinity or a NaN. -/
def Sys2Proof.Claim.value (f : Fmt) (c : Nat) : Option Int :=
  match decodeNum f c with
  | .zero _ => some 0
  | .fin n m e _ => some ((if n then -1 else 1) * (m * 2 ^ (e + 1074).toNat : Nat))
  | _ => none

/-- The place of a code in the order of values (R180): an infinity lies beyond every finite value; none for a NaN. -/
def Sys2Proof.Claim.rank (f : Fmt) (c : Nat) : Option Int :=
  match decodeNum f c with
  | .inf n => some ((if n then -1 else 1) * 2 ^ 3000)
  | _ => Claim.value f c

/-- v is the choice of a rounding mode among the values S for the exact value c / d (R58): even tells which of two equally near
values RNE takes. -/
def Sys2Proof.Claim.Picks (rm : RM) (S : Int → Prop) (even : Prop) (c : Int) (d : Nat) (v : Int) : Prop :=
  let far := fun (x : Int) => (x * d - c).natAbs
  ∀ x, S x → match rm with
    | .rne => far v ≤ far x ∧ (x ≠ v → far v = far x → even)
    | .rna => far v ≤ far x ∧ (x ≠ v → far v = far x → x.natAbs < v.natAbs)
    | .rtz => (v * d).natAbs ≤ c.natAbs ∧ 0 ≤ v * c ∧ (0 ≤ x * c → (x * d).natAbs ≤ c.natAbs → x.natAbs ≤ v.natAbs)
    | .rup => c ≤ v * d ∧ (c ≤ x * d → v ≤ x)
    | .rdn => v * d ≤ c ∧ (x * d ≤ c → x ≤ v)

/-- What a finite value that overflows gives (R62): the largest magnitude, an infinity or the NaN, with OF and NX. -/
def Sys2Proof.Claim.overflowed (f : Fmt) (rm : RM) (sat neg : Bool) : Nat × Flags :=
  let largest := f.signed neg f.maxCode
  (if f.tapered ∨ sat then largest
   else if f = .e4m3 then 0x7F
   else match rm with
     | .rne | .rna => f.signed neg f.infCode
     | .rtz => largest
     | .rup => if neg then largest else f.infCode
     | .rdn => if neg then f.signed true f.infCode else largest, flOF ||| flNX)

/-- What an infinite value gives (R62). -/
def Sys2Proof.Claim.infinite (f : Fmt) (sat neg : Bool) : Nat × Flags :=
  if f.tapered then (f.canonNaN, flNV)
  else if sat then (f.signed neg f.maxCode, flNV)
  else if f = .e4m3 then (0x7F, flNV)
  else (f.signed neg f.infCode, 0)

/-- What a zero of a sign gives (R59): a tapered format has one zero. -/
def Sys2Proof.Claim.zeroed (f : Fmt) (neg : Bool) : Nat × Flags := (if f.tapered then 0 else f.signed neg 0, 0)

/-- Does the exact value c / d, c not 0, overflow format f (R61)? Top is the largest finite value and gap the distance from it
to the value that would come next: a binary format overflows where rounding without a bound on the exponent passes top. -/
def Sys2Proof.Claim.overflows (f : Fmt) (rm : RM) (c : Int) (d : Nat) : Prop :=
  let top := ((Claim.value f f.maxCode).getD 0).natAbs
  let gap := top - ((Claim.value f (f.maxCode - 1)).getD 0).natAbs
  if f.tapered then top * d < c.natAbs
  else match rm with
    | .rne => if f = .e4m3 then (2 * top + gap) * d < 2 * c.natAbs else (2 * top + gap) * d ≤ 2 * c.natAbs
    | .rna => (2 * top + gap) * d ≤ 2 * c.natAbs
    | .rtz => (top + gap) * d ≤ c.natAbs
    | .rup => if c < 0 then (top + gap) * d ≤ c.natAbs else top * d < c.natAbs
    | .rdn => if c < 0 then top * d < c.natAbs else (top + gap) * d ≤ c.natAbs

/-- Is the exact value c / d, c not 0, tiny in format f (R61)? Low is the smallest normal value of a binary format and unit its
smallest value; a value is tiny where rounding to the format's precision without a bound on the exponent leaves it below low. A
tapered format tests the exact value. -/
def Sys2Proof.Claim.isTiny (f : Fmt) (rm : RM) (c : Int) (d : Nat) : Prop :=
  let unit := ((Claim.value f 1).getD 0).natAbs
  let low := ((Claim.value f (2 ^ f.frac)).getD 0).natAbs
  if f.tapered then c.natAbs < unit * d
  else match rm with
    | .rne | .rna => 4 * c.natAbs < (4 * low - unit) * d
    | .rtz => c.natAbs < low * d
    | .rup => if c < 0 then c.natAbs < low * d else 2 * c.natAbs ≤ (2 * low - unit) * d
    | .rdn => if c < 0 then 2 * c.natAbs ≤ (2 * low - unit) * d else c.natAbs < low * d

/-- z is RoundTo (R62) of the exact value c / d units, c not 0: its code and its flags. -/
def Sys2Proof.Claim.Rounds (f : Fmt) (rm : RM) (sat : Bool) (c : Int) (d : Nat) (z : Nat × Flags) : Prop :=
  (Claim.overflows f rm c d → z = Claim.overflowed f rm sat (decide (c < 0)))
  ∧ (¬Claim.overflows f rm c d → ∃ v, Claim.value f z.1 = some v ∧ z.1 < 2 ^ f.bits
      ∧ (v = 0 → z.1 = (Claim.zeroed f (decide (c < 0))).1)
      ∧ Claim.Picks rm (fun x => ∃ w < 2 ^ f.bits, Claim.value f w = some x) (z.1 % 2 = 0) c d v
      ∧ z.2.toNat < 4 ∧ (z.2.getLsbD 1 = true ↔ v * d ≠ c ∧ Claim.isTiny f rm c d) ∧ (z.2.getLsbD 0 = true ↔ v * d ≠ c))

/-- R180: a comparison gives all ones or zero, by the order of the values, in which −0 equals +0 and an infinity lies beyond every
number; with a NaN FCMPUN alone holds. The signalling comparisons raise NV on any NaN, the quiet ones, FMIN and FMAX on a
signalling NaN. FMIN and FMAX give the lesser and the greater operand's code, the other operand for one NaN, the canonical NaN for
two, and take −0 below +0. -/
def Sys2Proof.Claim.CompareRules : Prop :=
  ∀ (f : Fmt) (x y : Nat),
    let a := decodeNum f x
    let b := decodeNum f y
    let nan := a.isNaN = true ∨ b.isNaN = true
    let ones := 2 ^ f.slot - 1
    let quiet := flIf (a.isSNaN || b.isSNaN) flNV
    (nan → opFcmplt f x y = (0, flNV) ∧ opFcmple f x y = (0, flNV) ∧ opFcmpeq f x y = (0, quiet)
      ∧ opFcmpun f x y = (ones, quiet))
    ∧ (¬nan → ∃ u v, Claim.rank f x = some u ∧ Claim.rank f y = some v
      ∧ opFcmplt f x y = (if u < v then ones else 0, 0) ∧ opFcmple f x y = (if u ≤ v then ones else 0, 0)
      ∧ opFcmpeq f x y = (if u = v then ones else 0, 0) ∧ opFcmpun f x y = (0, 0)
      ∧ (u < v → (opFmin f x y).1 = x ∧ (opFmax f x y).1 = y) ∧ (v < u → (opFmin f x y).1 = y ∧ (opFmax f x y).1 = x))
    ∧ (opFmin f x y).2 = quiet ∧ (opFmax f x y).2 = quiet
    ∧ (a.isNaN = true → b.isNaN = true → (opFmin f x y).1 = f.canonNaN ∧ (opFmax f x y).1 = f.canonNaN)
    ∧ (a.isNaN = true → b.isNaN = false → (opFmin f x y).1 = y ∧ (opFmax f x y).1 = y)
    ∧ (a.isNaN = false → b.isNaN = true → (opFmin f x y).1 = x ∧ (opFmax f x y).1 = x)
    ∧ (a = .zero true → b = .zero false → (opFmin f x y).1 = x ∧ (opFmax f x y).1 = y)
    ∧ (a = .zero false → b = .zero true → (opFmin f x y).1 = y ∧ (opFmax f x y).1 = x)

/-- z is the sum of the finite values a / d and b / d, of signs sa and sb, in format f: an exact zero of opposite signs is +0, and
−0 under RDN (R59). -/
def Sys2Proof.Claim.SumRounds (f : Fmt) (rm : RM) (sat : Bool) (a b : Int) (sa sb : Bool) (d : Nat) (z : Nat × Flags) : Prop :=
  (a + b = 0 → z = Claim.zeroed f (if sa = sb then sa else decide (rm = .rdn)))
  ∧ (a + b ≠ 0 → Claim.Rounds f rm sat (a + b) d z)

/-- The canonical NaN, with NV where nv holds (R60). -/
def Sys2Proof.Claim.nanGiven (f : Fmt) (nv : Bool) : Nat × Flags := (f.canonNaN, flIf nv flNV)

/-- The values of FADD, FSUB, FMUL, FDIV and FMA (R59 to R62, R178, R179): the exact result of finite operands rounded once; a NaN
operand gives the canonical NaN, with NV for a signalling one; the invalid operations give it with NV; an infinite result, DZ for
a finite number that is not zero divided by zero. -/
def Sys2Proof.Claim.ArithmeticValues : Prop :=
  ∀ (f : Fmt) (rm : RM) (sat : Bool) (x y z : Nat),
    let a := decodeNum f x
    let b := decodeNum f y
    let c := decodeNum f z
    let sx := x.testBit f.signPos
    let sy := y.testBit f.signPos
    let sz := z.testBit f.signPos
    let inf := fun (s : Bool) => Claim.infinite f sat s
    let invalid := Claim.nanGiven f true
    let add := opFadd f rm sat x y
    let sub := opFsub f rm sat x y
    let mul := opFmul f rm sat x y
    let quo := opFdiv f rm sat x y
    let fma := opFma f rm sat x y z
    (∀ X Y, Claim.value f x = some X → Claim.value f y = some Y →
      Claim.SumRounds f rm sat X Y sx sy 1 add ∧ Claim.SumRounds f rm sat X (-Y) sx (!sy) 1 sub
      ∧ (X * Y = 0 → mul = Claim.zeroed f (sx ^^ sy)) ∧ (X * Y ≠ 0 → Claim.Rounds f rm sat (X * Y) (2 ^ 1074) mul)
      ∧ (X = 0 → Y ≠ 0 → quo = Claim.zeroed f (sx ^^ sy))
      ∧ (X ≠ 0 → Y ≠ 0 → Claim.Rounds f rm sat (X * 2 ^ 1074 * Y.sign) Y.natAbs quo)
      ∧ (X ≠ 0 → Y = 0 → quo = ((inf (sx ^^ sy)).1, (inf (sx ^^ sy)).2 ||| flDZ))
      ∧ (X = 0 → Y = 0 → quo = invalid)
      ∧ ∀ Z, Claim.value f z = some Z → Claim.SumRounds f rm sat (X * Y) (Z * 2 ^ 1074) (sx ^^ sy) sz (2 ^ 1074) fma)
    ∧ (a.isNaN = true ∨ b.isNaN = true →
      let r := Claim.nanGiven f (a.isSNaN || b.isSNaN)
      add = r ∧ sub = r ∧ mul = r ∧ quo = r)
    ∧ (a.isNaN = true ∨ b.isNaN = true ∨ c.isNaN = true →
      fma = Claim.nanGiven f (a.isSNaN || b.isSNaN || c.isSNaN
        || (a.isInf && b.isZero) || (a.isZero && b.isInf)))
    ∧ (a.isInf = true → b.isInf = true → add = (if sx = sy then inf sx else invalid) ∧ sub = (if sx = sy then invalid else inf sx)
        ∧ mul = inf (sx ^^ sy) ∧ quo = invalid)
    ∧ (∀ Y, a.isInf = true → Claim.value f y = some Y → add = inf sx ∧ sub = inf sx
        ∧ mul = (if Y = 0 then invalid else inf (sx ^^ sy)) ∧ quo = inf (sx ^^ sy)
        ∧ (Y = 0 → c.isNaN = false → fma = invalid))
    ∧ (∀ X, Claim.value f x = some X → b.isInf = true → add = inf sy ∧ sub = inf (!sy)
        ∧ mul = (if X = 0 then invalid else inf (sx ^^ sy)) ∧ quo = Claim.zeroed f (sx ^^ sy)
        ∧ (X = 0 → c.isNaN = false → fma = invalid))
    ∧ ((a.isInf = true ∧ b.isNaN = false ∧ b.isZero = false ∨ b.isInf = true ∧ a.isNaN = false ∧ a.isZero = false) →
        c.isNaN = false → fma = if c.isInf = true ∧ sz ≠ (sx ^^ sy) then invalid else inf (sx ^^ sy))
    ∧ (∀ X Y, Claim.value f x = some X → Claim.value f y = some Y → c.isInf = true → fma = inf sz)

/-- The values of the conversions and of FROUND (R63, R184, R185): between formats, to an integer type, from one, and to a number
without a fraction, which raises no NX and keeps the sign of a zero. -/
def Sys2Proof.Claim.ConversionValues : Prop :=
  ∀ (f g : Fmt) (rm : RM) (sat : Bool) (x code : Nat),
    let a := decodeNum f x
    let sx := x.testBit f.signPos
    let w := intWidth code
    let lo : Int := if code < 12 then -2 ^ (w - 1) else 0
    let hi : Int := if code < 12 then 2 ^ (w - 1) - 1 else 2 ^ w - 1
    let whole := fun (X n : Int) => Claim.Picks rm (fun _ => True) (n % 2 = 0) X (2 ^ 1074) n
    (∀ X, Claim.value f x = some X →
      (X = 0 → opFcvt f g rm sat x = Claim.zeroed g sx) ∧ (X ≠ 0 → Claim.Rounds g rm sat X 1 (opFcvt f g rm sat x))
      ∧ (∃ n, whole X n ∧ opFtoi f code rm sat x =
          if lo ≤ n ∧ n ≤ hi then ((n % 2 ^ w).toNat, flIf (n * 2 ^ 1074 != X) flNX)
          else (((if sat then max lo (min hi n) else n) % 2 ^ w).toNat, flNV))
      ∧ (∃ n, whole X n ∧ Claim.value f (opFround f rm x).1 = some (n * 2 ^ 1074) ∧ (opFround f rm x).2 = 0
        ∧ (f.tapered = false → (opFround f rm x).1 % 2 ^ f.bits / 2 ^ f.signPos = x / 2 ^ f.signPos % 2)))
    ∧ (a.isNaN = true → opFcvt f g rm sat x = Claim.nanGiven g a.isSNaN ∧ opFtoi f code rm sat x = (0, flNV)
        ∧ opFround f rm x = Claim.nanGiven f a.isSNaN)
    ∧ (a.isInf = true → opFcvt f g rm sat x = Claim.infinite g sat sx ∧ opFround f rm x = (x, 0)
        ∧ opFtoi f code rm sat x = (if sat then ((if sx then lo else hi) % 2 ^ w).toNat else 0, flNV))
    ∧ let v : Int := if code < 12 then (BitVec.ofNat w x).toInt else (x % 2 ^ w : Nat)
      x < 2 ^ w →
      (v = 0 → opItof code g rm sat x = Claim.zeroed g false)
      ∧ (v ≠ 0 → Claim.Rounds g rm sat (v * 2 ^ 1074) 1 (opItof code g rm sat x))

/-- The element values of an MMA (R65 to R68, R232): the canonical NaN for a NaN, for 0 × ∞ and for infinities of both signs, else
the infinity of an infinite term; FP64 is a chain of FMA steps, FP32, FP16 and BF16 one sum in a window of 64 bits below the
largest term, the 8-bit and tapered formats one exact sum, each rounded once by RNE. Row and column of one length. -/
def Sys2Proof.Claim.MatrixElementValues : Prop :=
  ∀ (fmt : Nat) (as bs : List Nat) (c : Nat), fmt < 8 → as.length = bs.length →
    let f := Fmt.ofCode fmt
    let acc : Fmt := if fmt = 0 then .f64 else .f32
    let z := mmaElem fmt as bs c
    let ps := as.zip bs
    let sign := fun (p : Nat × Nat) => p.1.testBit f.signPos ^^ p.2.testBit f.signPos
    let infs := ((ps.filter fun p => (decodeNum f p.1).isInf || (decodeNum f p.2).isInf).map sign)
      ++ (if (decodeNum acc c).isInf then [c.testBit acc.signPos] else [])
    let bad := (∃ p ∈ ps, (decodeNum f p.1).isNaN = true ∨ (decodeNum f p.2).isNaN = true
          ∨ ((decodeNum f p.1).isInf = true ∧ (decodeNum f p.2).isZero = true)
          ∨ ((decodeNum f p.1).isZero = true ∧ (decodeNum f p.2).isInf = true))
        ∨ (decodeNum acc c).isNaN = true ∨ (true ∈ infs ∧ false ∈ infs)
    (bad → z = acc.canonNaN)
    ∧ (∀ s, ¬bad → s ∈ infs → z = acc.signed s acc.infCode)
    ∧ (¬bad → infs = [] →
      (fmt = 0 → z = ps.foldl (fun e p => (opFma .f64 .rne false p.1 p.2 e).1) c)
      ∧ (fmt ≠ 0 →
        let terms := ps.map (fun p => (Claim.value f p.1).getD 0 * (Claim.value f p.2).getD 0)
          ++ [(Claim.value acc c).getD 0 * 2 ^ 1074]
        let top := terms.foldl (fun m (t : Int) => max m t.natAbs.log2) 0
        let cut := fun (t : Int) => if fmt ≤ 3 then t.tdiv (2 ^ (top - 63)) * 2 ^ (top - 63) else t
        let sum := (terms.map cut).foldl (· + ·) 0
        (sum ≠ 0 → ∃ fl, Claim.Rounds .f32 .rne false sum (2 ^ 1074) (z, fl))
        ∧ (sum = 0 → z = if decide (4 ≤ fmt) && terms.all (· == 0) && ps.all sign && c == 2 ^ 31 then 2 ^ 31 else 0)))

/-- All of: CompareRules, ArithmeticValues, ConversionValues, MatrixElementValues. -/
def Obligations.FloatingPointValues : Prop :=
  Claim.CompareRules ∧ Claim.ArithmeticValues ∧ Claim.ConversionValues ∧ Claim.MatrixElementValues

/-- PACKED-A and PACKED-B (R187): elements of 8 to 64 bits, no flags; sat cuts sums, differences and products to the signed
range of the element, without it they wrap. -/
def Sys2Proof.Claim.PackedResults : Prop :=
  ∀ (p : Option Pfx) (rd ra rb : Reg) (fea feb : Bool) (width : BitVec 2) (s : State) (h : Here),
    RunsHere s p [rd.toNat, ra.toNat, rb.toNat] [ra, rb, rd] h →
    let b := 8 * 2 ^ width.toNat
    let u := fun m => elem (h.t.readX ra) m b
    let v := fun m => elem (h.t.readX rb) m b
    let su := fun m => (BitVec.ofNat b (u m)).toInt
    let sv := fun m => (BitVec.ofNat b (v m)).toInt
    let cut := fun (x : Int) =>
      let y : Int := if pfxSat p then max (-2 ^ (b - 1)) (min (2 ^ (b - 1) - 1) x) else x
      (BitVec.ofInt b y).toNat
    let each := fun (i : Instr) (r : Nat → Nat) => ElementWise i s h p rd b (64 / b) fun m => (r m, 0)
    each (.padd p rd ra rb fea feb width) (fun m => cut (su m + sv m))
    ∧ each (.psub p rd ra rb fea feb width) (fun m => cut (su m - sv m))
    ∧ each (.pmul p rd ra rb fea feb width) (fun m => cut (su m * sv m))
    ∧ each (.pmin p rd ra rb fea feb width) (fun m => if su m ≤ sv m then u m else v m)
    ∧ each (.pmax p rd ra rb fea feb width) (fun m => if su m ≤ sv m then v m else u m)
    ∧ each (.pavg p rd ra rb fea feb width) (fun m => (u m + v m + 1) / 2)
    ∧ each (.pcmpeq p rd ra rb fea feb width) (fun m => if u m = v m then 2 ^ b - 1 else 0)
    ∧ each (.pcmplt p rd ra rb fea feb width) (fun m => if su m < sv m then 2 ^ b - 1 else 0)

/-- PPACK and PUNPK (R198): PPACK narrows the wide elements of ra into half h of rd and leaves the other half, PUNPK widens half
h of ra by sign or zero extension. Widths of 8, 16 and 32 bits. -/
def Sys2Proof.Claim.PackAndUnpack : Prop :=
  ∀ (p : Option Pfx) (rd ra : Reg) (mode width : BitVec 2) (half zx fea : Bool) (s : State) (h : Here),
    RunsHere s p [rd.toNat, ra.toNat] [ra, rd] h → width.toNat < 3 →
    let b := 8 * 2 ^ width.toNat
    let n := 32 / b
    let old := fun m => elem (h.t.readX rd) m b
    (∃ v : Word, exec (.ppack p rd ra mode half width fea) s = .next (moved h (h.t.writeX rd v))
      ∧ ∀ m < 2 * n, elem v m b =
          if m / n = (if half then 1 else 0) then
            if elemOn (enableMask p h.t) m b then narrow mode.toNat b (elem (h.t.readX ra) (m % n) (2 * b))
            else if pfxZero p then 0 else old m
          else old m)
    ∧ ElementWise (.punpk p rd ra zx half width fea) s h p rd (2 * b) n fun m =>
        let u := elem (h.t.readX ra) (m + if half then n else 0) b
        (if zx then u else (BitVec.ofInt (2 * b) (BitVec.ofNat b u).toInt).toNat, 0)

/-- All of: PackedResults, PackAndUnpack. -/
def Obligations.PackedMode : Prop := Claim.PackedResults ∧ Claim.PackAndUnpack

/-! ## Sets, groups, the rendezvous (chapter 08) -/

/-- R188, R24: a thread that arrives at a set operation over its team or a group it is in leaves an arrival with the values it
supplies and waits; once every member has arrived the operation completes for all of them. PSHUF, SEGRED and RAGLD are over the
team. -/
def Obligations.SetArrival : Prop :=
  ∀ (p : Option Pfx) (rd ra rb : Reg) (fea feb mk : Bool) (m2 : BitVec 2) (imm : BitVec 5) (op : BitVec 3) (typ : BitVec 4)
    (s : State) (h : Here),
    RunsHere s p [rd.toNat, ra.toNat, rb.toNat] [ra, rb, rd] h → (h.b.arrivals.any fun a => a.tid == h.t.tid) = false →
    let arrives := fun (i : Instr) (key : Option Word) (mask : Byte) =>
      ∃ a : Arrival, a.tid = h.t.tid ∧ a.instr = i ∧ a.key = key ∧ a.rdVal = h.t.readX rd ∧ a.raVal = h.t.readX ra
        ∧ a.mask = mask ∧ RM.ofCode a.rm = effRM p h.t
        ∧ exec i s = .next (trySet ((h.put s { h.t with wait := .setOp }).onBlock h.b.bid fun b =>
            { b with arrivals := b.arrivals ++ [a] }) h.b.bid h.t.slot key)
    let key := if ra = 0 then none else some (h.t.readX ra)
    let k := enableMask p h.t
    ((ra = 0 ∨ ∃ g ∈ h.b.groups, g.key = h.t.readX ra ∧ h.t.tid ∈ g.members) →
      arrives (.shfl p rd ra rb fea feb) key k ∧ arrives (.shfli p rd ra m2 imm fea) key k
      ∧ arrives (.bcast p rd ra rb fea feb) key k ∧ arrives (.gred p rd ra op typ fea) key k
      ∧ arrives (.gscan p rd ra op typ fea) key k ∧ arrives (.vote p rd ra m2 fea) key k
      ∧ arrives (.matchKeys p rd ra mk typ fea) key k)
    ∧ arrives (.pshuf p rd ra m2 fea) none k
    ∧ arrives (.segred p rd ra op typ fea) none (segMarks p h.t)
    ∧ arrives (.ragld p rd ra m2 fea) none 0xFF

/-- R24, R188: when every member of the set has arrived at set operations other than RAGLD, each member has one result; its rd takes
it, its sr.fpst its flags, and it moves on; the members' arrivals are gone, the others stay. -/
def Sys2Proof.Claim.SetCompletes : Prop :=
  ∀ (s : State) (bid slot : Nat) (key : Option Word) (b : Block) (ms : List Member),
    s.block? bid = some b → gathered b slot key = some ms →
    (∀ m ∈ ms, (setSig m.a.instr).isSome = true ∧ ∀ p rd ra w f, m.a.instr ≠ .ragld p rd ra w f) →
    trySet s bid slot key = s.onBlock bid (fun x => finishSet x ms (setResults ms))
    ∧ (setResults ms).map (·.tid) = ms.map (·.a.tid)
    ∧ (∀ a, a ∈ (finishSet b ms (setResults ms)).arrivals ↔ a ∈ b.arrivals ∧ ∀ m ∈ ms, m.a.tid ≠ a.tid)
    ∧ ∀ m ∈ ms, ∀ t ∈ b.threads, t.tid = m.a.tid → (ms.map (·.a.tid)).Nodup →
      ∀ r ∈ setResults ms, r.tid = t.tid →
      ∃ t' ∈ (finishSet b ms (setResults ms)).threads,
        t' = ({ t.writeX (setRd m.a.instr) r.val with fpst := t.fpst ||| r.flags }).advance (pfxLen m.a.instr.pfx)

/-- R24: operations that do not agree give every member zero, and raise no flag. -/
def Sys2Proof.Claim.SetMismatch : Prop :=
  ∀ (ms : List Member) (m n : Member), m ∈ ms → n ∈ ms → setSig m.a.instr ≠ setSig n.a.instr →
    (setResults ms).map (·.tid) = ms.map (·.a.tid) ∧ ∀ r ∈ setResults ms, r.val = 0 ∧ r.flags = 0

/-- All of: SetCompletes, SetMismatch. -/
def Obligations.SetOperationOutcome : Prop := Claim.SetCompletes ∧ Claim.SetMismatch

/-- The results of a set operation over its members (R188, R134): an active one gets v, and raises fl; one that is not enabled keeps
its rd, or has it zeroed, and raises nothing. -/
def Sys2Proof.Claim.Given (ms : List Member) (v : Member → Word) (fl : Member → Flags) : List SetResult :=
  ms.map fun m => if m.active then { tid := m.a.tid, val := v m, flags := fl m }
    else { tid := m.a.tid, val := if m.zero then 0 else m.a.rdVal, flags := 0 }

/-- R191, R192: GRED ADD on 64-bit integers gives every active member the sum of the active members' values, which wraps; VOTE
counts, and ANDs and ORs, the active members whose value is not zero, and its ballot has the bit of every rank below 32 that
voted. Some member active. -/
def Sys2Proof.Claim.ReductionAndVote : Prop :=
  ∀ (ms : List Member), ms.length ≤ 1024 → (ms.map (·.rank)).Nodup →
    let act := ms.filter (·.active)
    let yes := fun (m : Member) => m.a.rdVal != 0
    let gives := fun (rs : List SetResult) (v : Word) => rs = Claim.Given ms (fun _ => v) (fun _ => 0)
    act ≠ [] →
    gives (reduceSet ms 0 11) ((act.map fun m => m.a.rdVal).foldl (· + ·) 0)
    ∧ gives (voteSet ms 0) (if act.any yes then 1 else 0) ∧ gives (voteSet ms 1) (if act.all yes then 1 else 0)
    ∧ gives (voteSet ms 3) (BitVec.ofNat 64 (act.filter yes).length)
    ∧ ∃ v, gives (voteSet ms 2) v ∧ ∀ q < 64, v.getLsbD q = (decide (q < 32) && act.any fun m => m.rank == q && yes m)

/-- R190: SHFL, SHFLI and BCAST give each active member the rd of the active member of its source rank; its own where no member
below rank 32 (for BCAST: below the member count) has it, where that member is not enabled, and in SHFL and SHFLI to a member of
rank 32 or more. -/
def Sys2Proof.Claim.Exchanges : Prop :=
  ∀ (ms : List Member) (mode : BitVec 2) (n : BitVec 5), (ms.map (·.rank)).Pairwise (· < ·) →
    let takes := fun (rs : List SetResult) (bound : Int) (src : Member → Int) (readers : Member → Prop) =>
      ∃ v, rs = Claim.Given ms v (fun _ => 0) ∧ ∀ m ∈ ms,
        (∀ x ∈ ms, x.active = true → readers m → (x.rank : Int) = src m → src m < bound → v m = x.a.rdVal)
        ∧ ((¬readers m ∨ bound ≤ src m ∨ ∀ x ∈ ms, x.active = true → (x.rank : Int) ≠ src m) → v m = m.a.rdVal)
    let low := fun (m : Member) => m.rank < 32
    takes (exchange ms fun m => m.a.rbVal.toNat) 32 (fun m => m.a.rbVal.toNat) low
    ∧ takes (exchange ms fun m => shfliRank mode.toNat n.toNat m.rank) 32
        (fun m => match mode.toNat with
          | 0 => n.toNat
          | 1 => (m.rank : Int) - n.toNat
          | 2 => m.rank + n.toNat
          | _ => (m.rank ^^^ n.toNat : Nat)) low
    ∧ ∀ first, (ms.filter (·.active)).head? = some first →
      takes (broadcast ms) ms.length (fun _ => (first.a.rbVal.toNat % 1024 : Nat)) (fun _ => True)

/-- R191: GSCAN gives the active member of position k the left fold of the values of positions 0 to k, in ascending rank; under op
6 that of the positions before it, which is 0 at position 0. The mode is the first active member's; integers raise no flag. -/
def Sys2Proof.Claim.Scans : Prop :=
  ∀ (ms : List Member) (op code : Nat), op < 7 → code < 16 → (ms.map (·.rank)).Pairwise (· < ·) →
    let b := codeWidth code
    let act := ms.filter (·.active)
    let rm := ((act.head?).map (·.rmode)).getD .rne
    ∃ v fl, scanSet ms op code = Claim.Given ms v fl ∧ (8 ≤ code → ∀ m ∈ ms, fl m = 0)
      ∧ ∀ k m, act[k]? = some m → ∀ j < 64 / b,
        let fold := fun (o : Nat) (vs : List Nat) =>
          (vs.drop 1).foldl (fun x y => (combine o code rm x y).1) (vs.headD 0) % 2 ^ b
        let col := act.map fun x => elem x.a.rdVal j b
        elem (v m) j b = if op = 6 then fold 0 (col.take k) else fold op (col.take (k + 1))

/-- R193: MATCH gives each active member the mask of the active ranks below 32 whose key equals its own: as bits, or with .f as
values, where the zeros are equal and a NaN matches its own holder alone. That a key that is a signalling NaN raises NV is log
69. -/
def Sys2Proof.Claim.Matches : Prop :=
  ∀ (ms : List Member) (byValue : Bool) (code : Nat), (ms.map (·.rank)).Nodup →
    let f := Fmt.ofCode code
    let key := fun (m : Member) => elem m.a.rdVal 0 (codeWidth code)
    let same := fun (m x : Member) =>
      if byValue = true then (∃ r, Claim.rank f (key m) = some r ∧ Claim.rank f (key x) = some r)
        ∨ (Claim.rank f (key m) = none ∧ x.rank = m.rank)
      else key x = key m
    ∃ v, matchSet ms byValue code = Claim.Given ms v (fun m => flIf (byValue && (decodeNum f (key m)).isSNaN) flNV)
      ∧ ∀ m ∈ ms, ∀ q < 64, (v m).getLsbD q = true ↔ q < 32 ∧ ∃ x ∈ ms, x.active = true ∧ x.rank = q ∧ same m x

/-- R196: PSHUF gives element i of each lane, where its mask has the element, the element of the team's vector that its index
names, or 0 where that lane is not live or its own mask lacks the element; elsewhere rd's element stays or is zeroed. -/
def Sys2Proof.Claim.Permutes : Prop :=
  ∀ (ms : List Member) (width : Nat), width < 4 → (ms.map (·.rank)).Pairwise (· < ·) →
    let b := 8 * 2 ^ width
    let n := 64 / b
    (pshufSet ms width).map (·.tid) = ms.map (·.a.tid)
    ∧ ∀ (k : Nat) (m : Member) (r : SetResult), ms[k]? = some m → (pshufSet ms width)[k]? = some r → r.flags = 0 ∧ ∀ i < n,
      let j := elem m.a.raVal i b % (32 * n)
      (elemOn m.a.mask i b = false → elem r.val i b = if m.zero then 0 else elem m.a.rdVal i b)
      ∧ (elemOn m.a.mask i b = true →
        (∀ x ∈ ms, x.rank = j / n → elem r.val i b = if elemOn x.a.mask (j % n) b then elem x.a.rdVal (j % n) b else 0)
        ∧ ((∀ x ∈ ms, x.rank ≠ j / n) → elem r.val i b = 0))

/-- R197: SEGRED gives each element of a live lane the left fold, in ascending index, of the elements of live lanes in its segment:
those between which and it no live lane's marks start a segment. The mode is the lowest live lane's; integers raise no flag. -/
def Sys2Proof.Claim.SegmentReductions : Prop :=
  ∀ (ms : List Member) (op code : Nat), op < 6 → code < 16 → (ms.map (·.rank)).Pairwise (· < ·) → (∀ m ∈ ms, m.rank < 32) →
    let b := codeWidth code
    let n := 64 / b
    let rm := ((ms.head?).map (·.rmode)).getD .rne
    let index := ms.flatMap fun m => (List.range n).map fun i => (m, i)
    let starts := index.filter fun x => elemOn x.1.a.mask x.2 b
    let place := fun (x : Member × Nat) => x.1.rank * n + x.2
    let together := fun (e e' : Nat) => starts.all fun x => !(decide (min e e' < place x) && decide (place x ≤ max e e'))
    (segredSet ms op code).map (·.tid) = ms.map (·.a.tid)
    ∧ ∀ (k : Nat) (m : Member) (r : SetResult), ms[k]? = some m → (segredSet ms op code)[k]? = some r →
      (8 ≤ code → r.flags = 0) ∧ ∀ i < n,
        let vs := (index.filter fun x => together (place x) (m.rank * n + i)).map fun x => elem x.1.a.raVal x.2 b
        elem r.val i b = (vs.drop 1).foldl (fun x y => (combine op code rm x y).1) (vs.headD 0) % 2 ^ b

/-- R188: a thread that is no member of the group it names waits for no one: its rd keeps its value, or is 0 for VOTE and MATCH. -/
def Sys2Proof.Claim.NotAMember : Prop :=
  ∀ (p : Option Pfx) (rd ra rb : Reg) (fea feb mk : Bool) (m2 : BitVec 2) (imm : BitVec 5) (op : BitVec 3) (typ : BitVec 4)
    (s : State) (h : Here), RunsHere s p [rd.toNat, ra.toNat, rb.toNat] [ra, rb, rd] h → ra ≠ 0 →
    (∀ g ∈ h.b.groups, g.key = h.t.readX ra → h.t.tid ∉ g.members) →
    let leaves := fun (i : Instr) (v : Word) => exec i s = .next (wholeResult h p rd v [])
    let own := h.t.readX rd
    leaves (.shfl p rd ra rb fea feb) own ∧ leaves (.shfli p rd ra m2 imm fea) own ∧ leaves (.bcast p rd ra rb fea feb) own
    ∧ leaves (.gred p rd ra op typ fea) own ∧ leaves (.gscan p rd ra op typ fea) own ∧ leaves (.vote p rd ra m2 fea) 0
    ∧ leaves (.matchKeys p rd ra mk typ fea) 0

/-- All of: ReductionAndVote, Exchanges, Scans, Matches, Permutes, SegmentReductions, NotAMember. -/
def Obligations.SetOperationValues : Prop :=
  Claim.ReductionAndVote ∧ Claim.Exchanges ∧ Claim.Scans ∧ Claim.Matches ∧ Claim.Permutes ∧ Claim.SegmentReductions
  ∧ Claim.NotAMember

/-- RAGLD's completion (R85, R86, R207): with the descriptor in the block's own scratchpad and 32 lanes of elements walked without a
fault, the walk's four fields are written back; each member's rd takes the elements of its lane and its mark register their marks,
each by the bit that governs the element, and it moves on. Members who have all arrived at RAGLDs of one width complete so. -/
def Obligations.RagldCompletes : Prop :=
  (∀ (s : State) (b : Block) (m0 : Member) (ms : List Member) (t0 : Thread) (width off : Nat) (es : List (Nat × Bool)) (w : Walk)
    (s' : State), width < 4 → b.thread? false m0.a.tid = some t0 → m0.a.raVal.toNat % 8 = 0 →
    ownScratch b m0.a.raVal.toNat 24 = some off → uncommitted b = false →
    let bits := 8 * 2 ^ width
    let n := 64 / bits
    walkElems s b (bits / 8) (32 * n) 0 false
      { data := cellsRead b.scratch off 8, lenp := cellsRead b.scratch (off + 8) 8,
        off := cellsRead b.scratch (off + 16) 4, rows := cellsRead b.scratch (off + 20) 4 } = .inl (es, w, s') →
    ∃ f : Block → Block, completeRagld s b (m0 :: ms) width = s'.onBlock b.bid f
      ∧ ∀ x, Memory.wf x.scratch = true → cellsRead (f x).scratch off 8 = w.data % 2 ^ 64 ∧ cellsRead (f x).scratch (off + 8) 8 = w.lenp % 2 ^ 64
        ∧ cellsRead (f x).scratch (off + 16) 4 = w.off % 2 ^ 32 ∧ cellsRead (f x).scratch (off + 20) 4 = w.rows % 2 ^ 32
        ∧ (∀ a, a < off ∨ off + 24 ≤ a → cellsGet (f x).scratch a = cellsGet x.scratch a)
        ∧ (((m0 :: ms).map (·.a.tid)).Nodup → ∀ m ∈ m0 :: ms, ∀ t ∈ x.threads, t.tid = m.a.tid →
          ∃ t' ∈ (f x).threads, ∃ (v : Word) (k : Byte),
            t' = ((t.writeX (setRd m.a.instr) v).advance (pfxLen m.a.instr.pfx)).writeK (markReg m.a.instr) k
            ∧ (∀ i < n, elem v i bits = (es.getD (m.rank * n + i) (0, false)).1 % 2 ^ bits)
            ∧ ∀ q < 8, k.getLsbD q = true ↔ q % (bits / 8) = 0 ∧ (es.getD (m.rank * n + q / (bits / 8)) (0, false)).2 = true))
  ∧ ∀ (s : State) (bid slot : Nat) (key : Option Word) (b : Block) (m0 : Member) (ms : List Member) (width : BitVec 2),
    s.block? bid = some b → gathered b slot key = some (m0 :: ms) →
    (∀ m ∈ m0 :: ms, ∃ p rd ra fe, m.a.instr = .ragld p rd ra width fe) →
    trySet s bid slot key = completeRagld s b (m0 :: ms) width.toNat

/-- JOIN, LEAVE and GRANK (R194, R23). That a member's JOIN returns 1 while a set operation of the group has arrivals is the
model's choice (log 83). -/
def Sys2Proof.Claim.GroupMembership : Prop :=
  ∀ (rd ra : Reg) (fea : Bool) (s : State) (h : Here), RunsHere s none [rd.toNat, ra.toNat] [ra, rd] h →
    let key := h.t.readX ra
    let tid := h.t.tid
    let found := h.b.groups.find? fun g => g.key == key
    let status := fun (s' : State) (v : Word) => (Host.Outcome.next (h.put s' ((h.t.writeX rd v).advance h.len)) : Out)
    (∀ g, found = some g → tid ∈ g.members → exec (.join rd ra fea) s = status s 1)
    ∧ (∀ g, found = some g → tid ∉ g.members → (∀ a ∈ h.b.arrivals, a.key ≠ some key) →
      exec (.join rd ra fea) s = status (s.onBlock h.b.bid fun b =>
        { b with groups := b.groups.map fun x =>
            if x.key = key then { x with members := insertTid tid x.members } else x }) 1)
    ∧ (found = none → h.b.groups.length < 64 →
      exec (.join rd ra fea) s = status (s.onBlock h.b.bid fun b =>
        { b with groups := b.groups ++ [{ key := key, members := [tid] }] }) 1)
    ∧ (found = none → 64 ≤ h.b.groups.length → exec (.join rd ra fea) s = status s 0)
    ∧ exec (.leave ra fea) s = .next (h.put (s.onBlock h.b.bid fun b =>
        { b with
          groups := (b.groups.map fun x =>
            if x.key = key then { x with members := x.members.filter (· != tid) } else x).filter
              fun x => !x.members.isEmpty }) (h.t.advance h.len))
    ∧ (∀ ms, setMembers h.b h.t.slot (if ra = 0 then none else some key) = some ms → tid ∈ ms →
      exec (.grank rd ra fea) s = status s (BitVec.ofNat 64
        ((if ra = 0 then h.t.lane else (ms.takeWhile (· != tid)).length) + 2 ^ 32 * ms.length)))

/-- XSEND and XRECV (R195): a value sent to a live lane fills its claim, or its empty cell; a sender whose cell is full, or
awaited by one that issued before, waits in its place; a send to a lane that is not live is discarded; a receive empties the
cell into its claim, which is complete, or leaves the claim open. -/
def Sys2Proof.Claim.Rendezvous : Prop :=
  ∀ (rd ra rb : Reg) (slot : BitVec 4) (fea feb : Bool) (s : State) (h : Here) (tm own : Team),
    RunsHere s none [rd.toNat, ra.toNat, rb.toNat] [ra, rb, rd] h →
    let dest := (h.t.readX rb).toNat
    let cell := 32 * slot.toNat + dest / 32 % 32
    let mine := 32 * slot.toNat + h.t.lane
    h.b.team? (dest % 32) = some tm → h.b.team? h.t.slot = some own →
    let live := (h.b.live (dest % 32)).any fun x => x.lane == dest / 32 % 32
    let turn := ∀ u, tm.senders.find? (fun x => x.1 == cell) = some u → u.2 = h.t.tid
    let send := Instr.xsend slot ra rb fea feb
    (live = false → exec send s = .next (moved h h.t))
    ∧ (∀ c, live = true → tm.claims.find? (fun c => c.1 == cell) = some c → turn →
      exec send s = .next (h.put { s.onBlock h.b.bid (fun b =>
          b.setTeam { tm with
            claims := tm.claims.filter fun x => x.1 != cell, senders := tm.senders.filter fun x => x != (cell, h.t.tid) }) with
        prods := s.prods.map fun p =>
          if p.id = c.2 then { p with val := h.t.readX ra, ready := true, due := s.cycle } else p } (h.t.advance h.len)))
    ∧ (live = true → tm.claims.find? (fun c => c.1 == cell) = none → (tm.cells.any fun x => x.1 == cell) = false → turn →
      exec send s = .next (h.put (s.onBlock h.b.bid fun b =>
        b.setTeam { tm with
          cells := tm.cells ++ [(cell, h.t.readX ra)],
          senders := tm.senders.filter fun x => x != (cell, h.t.tid) }) (h.t.advance h.len)))
    ∧ (live = true →
      ((∀ c ∈ tm.claims, c.1 ≠ cell) ∧ (tm.cells.any fun x => x.1 == cell) = true) ∨ ¬turn →
      exec send s = .next ((h.put s { h.t with wait := .dep }).onBlock h.b.bid fun b => b.setTeam { tm with
        senders := if (cell, h.t.tid) ∈ tm.senders then tm.senders else tm.senders ++ [(cell, h.t.tid)] }))
    ∧ ((own.claims.any fun c => c.1 == mine) = false → ∃ q : Prod,
      exec (.xrecv rd slot) s = .next (h.put ((started s q).onBlock h.b.bid fun b => b.setTeam
        (match own.cells.find? fun x => x.1 == mine with
          | some _ => { own with cells := own.cells.filter fun x => x.1 != mine }
          | none => { own with claims := own.claims ++ [(mine, s.nextId)] })) ((h.t.emptyX rd).advance h.len))
      ∧ q.id = s.nextId ∧ q.tid = h.t.tid ∧ q.y = (if rd = 0 then none else some (h.t.yOf rd))
      ∧ (∀ v, own.cells.find? (fun x => x.1 == mine) = some v → q.ready = true ∧ q.val = v.2)
      ∧ (own.cells.find? (fun x => x.1 == mine) = none → q.ready = false))

/-- All of: GroupMembership, Rendezvous. -/
def Obligations.GroupsAndRendezvous : Prop := Claim.GroupMembership ∧ Claim.Rendezvous

/-! ## Memory accesses (chapter 09) -/

/-- LD, LDZ, LDR and LDA (R200, R202): the bytes at the address are read, little-endian, and a producer will put them into rd,
sign-extended or zero-extended; the offset of LD and LDZ is scaled by the size. Blocks without held stores. -/
def Sys2Proof.Claim.LoadResults : Prop :=
  ∀ (p : Option Pfx) (rd ra : Reg) (size : BitVec 2) (fe zx : Bool) (imm : BitVec 10) (scope : BitVec 3) (s s' : State)
    (h : Here) (x : Nat),
    let n := 2 ^ size.toNat
    let signed := BitVec.ofInt 64 (BitVec.ofNat (8 * n) x).toInt
    (RunsHere s p [rd.toNat, ra.toNat] (ra :: waitsFor p h rd) h → h.b.held = [] → active p h.t = true →
      loadAt s h.b.view (h.t.readX ra + BitVec.ofInt 64 (imm.toInt * n)).toNat n = .inl (x, s') →
      LoadStarts (.ld p rd ra size fe imm) s' h rd signed ∧ LoadStarts (.ldz p rd ra size fe imm) s' h rd (BitVec.ofNat 64 x))
    ∧ (RunsHere s none [rd.toNat, ra.toNat] [ra, rd] h → h.b.held = [] → (h.t.readX ra).toNat % n = 0 →
      loadAt s h.b.view (h.t.readX ra).toNat n = .inl (x, s') →
      LoadStarts (.ldr rd ra zx size scope fe) s' h rd (if zx then BitVec.ofNat 64 x else signed)
      ∧ LoadStarts (.lda rd ra zx size scope fe) s' h rd (if zx then BitVec.ofNat 64 x else signed))

/-- ST, STR and STL (R201, R202): the low bytes of the data register are stored at the located bytes and at no other, A and D
are set on the way, and the thread moves on. A store outside scratchpad, or a release at cluster scope or wider, is followed by
an interval boundary (R31). For a block that is no twin, outside a restart region. -/
def Obligations.StoreResults : Prop :=
  ∀ (p : Option Pfx) (rd ra rb : Reg) (size : BitVec 2) (fe fea feb : Bool) (imm : BitVec 10) (scope : BitVec 3) (s : State)
    (h : Here) (ls : List Located),
    let n := 2 ^ size.toNat
    let stores := fun (i : Instr) (v : Word) (wide : Bool) =>
      exec i s = .next (irrevocable (outside ls || wide) h (h.put (putAt s ls v.toNat) (h.t.advance h.len)))
      ∧ OnlyAt ls s (irrevocable (outside ls || wide) h (h.put (putAt s ls v.toNat) (h.t.advance h.len)))
    let there := fun (va : Nat) =>
      windowFault s h.b.view va n = none ∧ locateAll s h.b.view needW (addrs va n) = .inl ls
    twinned h.b = false → uncommitted h.b = false →
    (RunsHere s p [rd.toNat, ra.toNat] [rd, ra] h → active p h.t = true →
      there (h.t.readX ra + BitVec.ofInt 64 (imm.toInt * n)).toNat → stores (.st p rd ra size fe imm) (h.t.readX rd) false)
    ∧ (RunsHere s none [ra.toNat, rb.toNat] [ra, rb] h → (h.t.readX ra).toNat % n = 0 → there (h.t.readX ra).toNat →
      stores (.str size scope ra rb fea feb) (h.t.readX rb) false
      ∧ stores (.stl size scope ra rb fea feb) (h.t.readX rb) (decide (1 ≤ scope.toNat ∧ scope.toNat ≤ 3)))

/-- An inactive thread loads and stores nothing (R134): ST only moves on, LD and LDZ merge or zero rd. -/
def Sys2Proof.Claim.InactiveAccess : Prop :=
  ∀ (p : Option Pfx) (rd ra : Reg) (size : BitVec 2) (fe : Bool) (imm : BitVec 10) (s : State) (h : Here),
    RunsHere s p [rd.toNat, ra.toNat] [rd, ra] h → active p h.t = false →
    let kept := (Host.Outcome.next (moved h (if pfxZero p then h.t.writeX rd 0 else h.t)) : Out)
    exec (.st p rd ra size fe imm) s = .next (moved h h.t)
    ∧ exec (.ld p rd ra size fe imm) s = kept ∧ exec (.ldz p rd ra size fe imm) s = kept

/-- All of: LoadResults, InactiveAccess. -/
def Obligations.LoadsAndMaskedAccesses : Prop := Claim.LoadResults ∧ Claim.InactiveAccess

/-- R4, R83: n bytes stored in the block's own scratchpad read back as the number stored, little-endian, at the same address;
a byte that no store wrote reads as before. -/
def Sys2Proof.Claim.ScratchStoreThenLoad : Prop :=
  ∀ (s s' : State) (b : Block) (off n x : Nat), s.block? b.bid = some b → Memory.wf b.scratch = true →
    off + n ≤ b.kernel.scratch → b.kernel.scratch ≤ 2 ^ 24 →
    storeAt s b.view (0xFFFFFF0000000000 + off) n x = .inl s' →
    (∃ s'', loadAt s' b.view (0xFFFFFF0000000000 + off) n = .inl (x % 2 ^ (8 * n), s''))
    ∧ SameBytes s s'
    ∧ ∀ o, o < off ∨ off + n ≤ o → placeGet s' (.scratch b.bid o) = placeGet s (.scratch b.bid o)

/-- R4, R90, R316: a load of bytes that the windows assign and the page tables map, and that hold no poison, gives the bytes at
their places, little-endian, and changes nothing but entries on the way; an atomic gives the old bytes so, and leaves at those
places the bytes of the new number and at no others, or where it writes none changes entries alone. -/
def Sys2Proof.Claim.PhysicalAccess : Prop :=
  ∀ (s : State) (v : View) (va n : Nat) (ls : List Located), windowFault s v va n = none →
    (∀ l ∈ ls, placePoisoned s l.place = false) →
    let reads := fun (x : Nat) => x < 2 ^ (8 * n) ∧ ∀ i < n, ∀ l, ls[i]? = some l → x / 2 ^ (8 * i) % 256 = (placeGet s l.place).toNat
    (locateAll s v needR (addrs va n) = .inl ls →
      ∃ x s', loadAt s v va n = .inl (x, s') ∧ ls.length = n ∧ reads x ∧ OnlyEntries ls s s')
    ∧ ∀ new : Nat → Option Nat, locateAll s v needRW (addrs va n) = .inl ls →
      ∃ x s', atomicAt s v va n new = .inl (x, s') ∧ ls.length = n ∧ reads x
        ∧ (new x = none → OnlyEntries ls s s')
        ∧ ∀ y, new x = some y → OnlyAt ls s s'
          ∧ (MemoriesWf s → (ls.map (·.place)).Nodup →
            ∀ i < n, ∀ l, ls[i]? = some l → placeGet s' l.place = BitVec.ofNat 8 (y / 2 ^ (8 * i)))

/-- The transfers of R209 and R211 to R213. Inside the own scratchpad a COPY moves its bytes as if all were read before any is
written; a TILELD lays its rows there, or its elements transposed, and a GATHER the elements its list names; a TILEST lays rows of
the scratchpad in the atelier window. A COPY of up to 16,376 bytes and a tile of one row of up to 16,320 are one burst anywhere:
the source read, then written. The token's value is the number of bytes. A source whose bytes are located, free of poison and
accessed before, so that no A bit is set on the way. -/
def Sys2Proof.Claim.EngineTransfers : Prop :=
  ∀ (s : State) (b : Block), s.block? b.bid = some b → MemoriesWf s → b.kernel.scratch ≤ 2 ^ 24 →
    let size := b.kernel.scratch
    let here := fun (o : Nat) => BitVec.ofNat 64 (0xFFFFFF0000000000 + o)
    let old := fun (o : Nat) => cellsGet b.scratch o
    let now := fun (t : State) (o : Nat) => placeGet t (.scratch b.bid o)
    let read := fun (a : Nat) (x : Byte) => ∃ l, locate s b.view needR (a % 2 ^ 64) = .ok l ∧ placePoisoned s l.place = false
      ∧ (∀ c o, l.place ≠ .scratch c o) ∧ (∀ f, l.leaf = some f → f.entry.getLsbD 8 = true) ∧ placeGet s l.place = x
    let ended := fun (t : State) (n : Nat) => (t, EngEnd.ended (BitVec.ofNat 64 n))
    (∀ so d len, so + len ≤ size → d + len ≤ size →
      ∃ t, transfer s b.view (.copy (here so) (here d) len) 0 false = ended t len ∧ SameBytes s t
        ∧ (∀ i < len, now t (d + i) = old (so + i)) ∧ ∀ o, (o < d ∨ d + len ≤ o) → now t o = now s o)
    ∧ (∀ (src dst : Word) len bs s1 s2, 0 < len → loadBytes s b.view src.toNat len = .inl (bs, s1) →
        storeBytes s1 b.view dst.toNat bs = (s2, none) →
        (len ≤ 16376 → transfer s b.view (.copy src dst len) 0 false = ended s2 len)
        ∧ (len ≤ 16320 → ∀ ss ds, transfer s b.view (.tileld src dst ss ds len 1 0) 0 false = ended s2 len
          ∧ transfer s b.view (.tilest src dst ss ds len 1) 0 false = ended s2 len))
    ∧ (∀ (src : Word) d ss ds len h (x : Nat → Nat → Byte), 0 < len → 0 < h → (h = 1 ∨ len ≤ ds) → d + (h - 1) * ds + len ≤ size →
        (∀ i < h, ∀ j < len, read (src.toNat + i * ss + j) (x i j)) →
        ∃ t, transfer s b.view (.tileld src (here d) ss ds len h 0) 0 false = ended t (len * h) ∧ SameBytes s t
          ∧ (∀ i < h, ∀ j < len, now t (d + i * ds + j) = x i j)
          ∧ ∀ o, (∀ i < h, o < d + i * ds ∨ d + i * ds + len ≤ o) → now t o = now s o)
    ∧ (∀ (src : Word) d ss ds cols h e (x : Nat → Nat → Nat → Byte), 0 < cols → 0 < h → (e = 1 ∨ e = 2) →
        (cols = 1 ∨ h * e ≤ ds) → d + (cols - 1) * ds + h * e ≤ size →
        (∀ r < h, ∀ c < cols, ∀ k < e, read (src.toNat + r * ss + c * e + k) (x r c k)) →
        ∃ t, transfer s b.view (.tileld src (here d) ss ds (cols * e) h e) 0 false = ended t (cols * e * h) ∧ SameBytes s t
          ∧ (∀ r < h, ∀ c < cols, ∀ k < e, now t (d + c * ds + r * e + k) = x r c k)
          ∧ ∀ o, (∀ c < cols, o < d + c * ds ∨ d + c * ds + h * e ≤ o) → now t o = now s o)
    ∧ (∀ so (dst : Word) ss ds len h (at' : Nat → Nat → Nat), 0 < len → 0 < h → so + (h - 1) * ss + len ≤ size →
        (∀ i < h, ∀ j < len, locate s b.view needW ((dst.toNat + i * ds + j) % 2 ^ 64)
          = .ok { place := .atelier (at' i j), leaf := none }) →
        (∀ i < h, ∀ j < len, ∀ i' < h, ∀ j' < len, at' i j = at' i' j' → i = i' ∧ j = j') →
        ∃ t, transfer s b.view (.tilest (here so) dst ss ds len h) 0 false = ended t (len * h)
          ∧ (∀ i < h, ∀ j < len, cellsGet t.atelier (at' i j) = old (so + i * ss + j))
          ∧ (∀ a, (∀ i < h, ∀ j < len, a ≠ at' i j) → cellsGet t.atelier a = cellsGet s.atelier a)
          ∧ (∀ a, cellsGet t.mem a = cellsGet s.mem a) ∧ ∀ o, now t o = now s o)
    ∧ (∀ lo bo d count e, (e = 1 ∨ e = 2 ∨ e = 4 ∨ e = 8) → lo + 4 * count ≤ size → d + count * e ≤ size →
        let index := fun (i : Nat) => cellsRead b.scratch (lo + 4 * i) 4
        (lo + 4 * count ≤ d ∨ d + count * e ≤ lo) →
        (∀ i < count, bo + index i * e + e ≤ size ∧ (bo + index i * e + e ≤ d ∨ d + count * e ≤ bo + index i * e)) →
        ∃ t, transfer s b.view (.gather (here lo) (here bo) (here d) count e) 0 false = ended t (count * e) ∧ SameBytes s t
          ∧ (∀ i < count, ∀ k < e, now t (d + i * e + k) = old (bo + index i * e + k))
          ∧ ∀ o, (o < d ∨ d + count * e ≤ o) → now t o = now s o)

/-- All of: ScratchStoreThenLoad, PhysicalAccess, EngineTransfers. -/
def Obligations.MemoryAccessValues : Prop := Claim.ScratchStoreThenLoad ∧ Claim.PhysicalAccess ∧ Claim.EngineTransfers

/-- R202, R216, R418 step 4: a strong access or an atomic at an address that is no multiple of its width raises an alignment
fault (code 5) at that address, before anything else of it. -/
def Sys2Proof.Claim.AlignmentFaults : Prop :=
  ∀ (rd ra rb : Reg) (size : BitVec 2) (zx fea feb : Bool) (scope : BitVec 3) (aop : BitVec 2) (s : State) (h : Here),
    RunsHere s none [rd.toNat, ra.toNat, rb.toNat] [ra, rb, rd] h →
    let a := h.t.readX ra
    let bad := fun (cls n : Nat) => (Host.Outcome.next (accessFault s h.b h.t false
      { kind := .program 5, addr := a } h.t.pc cls n) : Out)
    (a.toNat % 2 ^ size.toNat ≠ 0 →
      exec (.ldr rd ra zx size scope fea) s = bad 1 (2 ^ size.toNat)
      ∧ exec (.lda rd ra zx size scope fea) s = bad 1 (2 ^ size.toNat)
      ∧ exec (.str size scope ra rb fea feb) s = bad 2 (2 ^ size.toNat)
      ∧ exec (.stl size scope ra rb fea feb) s = bad 2 (2 ^ size.toNat))
    ∧ (a.toNat % 8 ≠ 0 → exec (.aadd none rd ra rb aop) s = bad 3 8 ∧ exec (.acas none rd ra rb aop) s = bad 3 8)
    ∧ (a.toNat % 4 ≠ 0 → exec (.aaddW32 none rd ra rb aop) s = bad 3 4 ∧ exec (.afaddW32 none rd ra rb aop) s = bad 3 4)

/-- R322, R282: a program fault outside a commission in a context that is ACTIVE writes sr.tpc and sr.tval, makes the context
FAULTED, ends its blocks and stops its queues, and posts a record; a context that a RESUME under way is making ACTIVE is faulted
likewise, which is the model's choice (log 23). The error the fault consumed is counted (R366). -/
def Obligations.ProgramFaultEffect : Prop :=
  ∀ (s : State) (b : Block) (t : Thread) (code cls size : Nat) (pc addr : Word) (c : Ctx),
    b.commission = none → s.ctx? b.ctx = some c → c.state = .active ∨ resuming s c = true →
    let f : AccFault := { kind := .program code, addr := addr }
    let s1 := (consume s b.view f).setThread b.bid false { t with tpc := pc, tval := addr }
    let s2 := contextFault s1 b.ctx
    (∃ rcd, rcd.length = 64 ∧ accessFault s b t false f pc cls size = postRecord s2 b.part rcd)
    ∧ (∀ c' ∈ s2.ctxs, c'.id = b.ctx → c'.state = .faulted)
    ∧ (∀ x ∈ s2.blocks, x.ctx = b.ctx → x.state = .ended)
    ∧ ∀ q, q < 64 → ((s2.part c.part).queue q).ctx = b.ctx →
        ((s2.part c.part).queue q).state ≠ .mapped ∧ ((s2.part c.part).queue q).state ≠ .unmapped

/-- R323: a fault that can be served suspends the block, with its cluster, and asks for service; a capture that was wanted stays
wanted (R348), and no context faults. -/
def Obligations.ServiceableFaultSuspends : Prop :=
  ∀ (s : State) (b : Block) (t : Thread) (level cls size : Nat) (entry pc addr : Word), b ∈ s.blocks →
    let s' := accessFault s b t false { kind := .serviceable level entry, addr := addr } pc cls size
    (∀ x ∈ s'.blocks, x.bid = b.bid → x.issues = false)
    ∧ (∀ host a, b.state = .asked host a → { b with state := .suspended true none, wanted := true } ∈ s'.blocks)
    ∧ (b.state = .running → { b with state := .suspended true none, wanted := false } ∈ s'.blocks)
    ∧ (∃ f ∈ s'.faults, f.ctx = b.ctx ∧ f.va.toNat / 4096 = addr.toNat / 4096 ∧ f.asker = .block b.bid)
    ∧ s'.ctxs = s.ctxs ∧ SameBytes s s'

/-- FENCE (R204) at team or block scope only moves on, at a wider scope it is followed by an interval boundary, and inside a
restart region a wide one raises RESTART_REGION; the hints (R205, R206) change nothing but what IPREF asks to be fetched. -/
def Obligations.FenceAndHints : Prop :=
  ∀ (uo : Bool) (scope : BitVec 3) (ra : Reg) (fea : Bool) (s : State) (h : Here), RunsHere s none [ra.toNat] [ra] h →
    twinned h.b = false →
    let wide := decide (1 ≤ scope.toNat ∧ scope.toNat ≤ 3)
    (wide = false ∨ uncommitted h.b = false → exec (.fence uo scope) s = .next (irrevocable wide h (moved h h.t)))
    ∧ (wide = true → uncommitted h.b = true →
      exec (.fence uo scope) s = .next (trapEntry s h.b.bid h.t.tid h.t.pc 5 h.t.pc 4))
    ∧ exec (.pref ra fea) s = .next (moved h h.t) ∧ exec (.cwb ra fea) s = .next (moved h h.t)
    ∧ exec (.cinv ra fea) s = .next (moved h h.t)
    ∧ exec (.ipref ra fea) s = .next (h.put (prefetchLine s h.b (h.t.readX ra).toNat) (h.t.advance h.len))

/-- R32, R326: inside a restart region a store that is not to declared staging (1), an atomic (2), such an STL or one at a wider scope
(3), a wide fence (4), an engine operation that writes outside the staging (6), an EXIT (7) and a TLAUNCH (8) raise
RESTART_REGION, cause 5, with the value that names the action, and have no effect. That an operation that writes in the
scratchpad outside the staging shows 6 is log 91. -/
def Sys2Proof.Claim.RestartRegionTraps : Prop :=
  ∀ (rd ra rb : Reg) (fe feb uo : Bool) (imm : BitVec 10) (scope : BitVec 2) (sc : BitVec 3) (s : State) (h : Here),
    RunsHere s none [rd.toNat, ra.toNat, rb.toNat] [rd, ra, rb] h → uncommitted h.b = true →
    let raises := fun (v : Word) => (Host.Outcome.next (trapEntry s h.b.bid h.t.tid h.t.pc 5 h.t.pc v) : Out)
    let va := (h.t.readX ra + BitVec.ofInt 64 (imm.toInt * 8)).toNat
    let at' := (h.t.readX ra).toNat
    let wide := 1 ≤ sc.toNat ∧ sc.toNat ≤ 3
    (windowFault s h.b.view va 8 = none → regionStoreOk h.b va 8 = false → exec (.st none rd ra 3 fe imm) s = raises 1)
    ∧ (at' % 8 = 0 → windowFault s h.b.view at' 8 = none → exec (.aadd none rd ra rb scope) s = raises 2)
    ∧ (at' % 8 = 0 → windowFault s h.b.view at' 8 = none → wide ∨ regionStoreOk h.b at' 8 = false →
      exec (.stl 3 sc ra rb fe feb) s = raises 3)
    ∧ (wide → exec (.fence uo sc) s = raises 4)
    ∧ (∀ tm, h.b.team? h.t.slot = some tm → tm.count 0 < 255 → (∀ j < 3, regOk h (ra.toNat + j) = true) →
      (∀ j < 3, h.t.nFull (ra.toNat + j) = true) →
      let dst := h.t.readN (ra.toNat + 1)
      let len := (h.t.readN (ra.toNat + 2)).toNat
      1 ≤ len → len ≤ 2 ^ 40 → regionStoreOk h.b dst.toNat len = false → exec (.copy none rd ra) s = raises 6)
    ∧ exec .exit s = raises 7
    ∧ (at' % 64 = 0 → windowFault s h.b.view at' 64 = none → exec (.tlaunch rd ra fe) s = raises 8)

/-- All of: AlignmentFaults, RestartRegionTraps. -/
def Obligations.AlignmentAndRestartRegion : Prop := Claim.AlignmentFaults ∧ Claim.RestartRegionTraps

/-- The atomics (R216, R217), 8 and 4 bytes wide: the old value is what the place holds, the new one the row's, and the old
value goes to rd by a producer unless rd is x0. AINCW wraps at its operand, ACAS writes only where the old value is rd's, and
the floating-point rows work in binary64 or binary32 to nearest even. For a block that is no twin, outside a restart region. -/
def Sys2Proof.Claim.AtomicValues : Prop :=
  ∀ (p : Option Pfx) (rd ra rb : Reg) (scope : BitVec 2) (s s' : State) (h : Here) (n old : Nat),
    RunsHere s p [rd.toNat, ra.toNat, rb.toNat] [rd, ra, rb] h → active p h.t = true →
    twinned h.b = false → uncommitted h.b = false → (n = 8 ∨ n = 4) →
    let va := (h.t.readX ra).toNat
    let w := 8 * n
    let v := (h.t.readX rb).toNat % 2 ^ w
    let q := (h.t.readX rd).toNat % 2 ^ w
    let sg := fun (x : Nat) => (BitVec.ofNat w x).toInt
    let f : Fmt := if n = 8 then .f64 else .f32
    va % n = 0 →
    let does := fun (i64 i32 : Instr) (new : Nat → Option Nat) =>
      atomicAt s h.b.view va n new = .inl (old, s') →
      let i := if n = 8 then i64 else i32
      (rd = 0 → exec i s = .next (irrevocable true h (h.put s' (h.t.advance h.len))))
      ∧ (rd ≠ 0 → ∃ k : Prod,
        exec i s = .next (irrevocable true h (h.put (started s' k) ((h.t.emptyX rd).advance h.len)))
        ∧ k.id = s'.nextId ∧ k.tid = h.t.tid ∧ k.y = some (h.t.yOf rd) ∧ k.val = BitVec.ofNat 64 old ∧ k.ready = true)
    does (.aadd p rd ra rb scope) (.aaddW32 p rd ra rb scope) (fun o => some ((o + v) % 2 ^ w))
    ∧ (old < 2 ^ w → does (.amin p rd ra rb scope) (.aminW32 p rd ra rb scope)
        (fun o => some (if sg o ≤ sg v then o % 2 ^ w else v)))
    ∧ (old < 2 ^ w → does (.amax p rd ra rb scope) (.amaxW32 p rd ra rb scope)
        (fun o => some (if sg o ≤ sg v then v else o % 2 ^ w)))
    ∧ does (.aminn p rd ra rb scope) (.aminnW32 p rd ra rb scope) (fun o => some (min o v))
    ∧ does (.amaxn p rd ra rb scope) (.amaxnW32 p rd ra rb scope) (fun o => some (max o v))
    ∧ does (.aand p rd ra rb scope) (.aandW32 p rd ra rb scope) (fun o => some (o &&& v))
    ∧ does (.aor p rd ra rb scope) (.aorW32 p rd ra rb scope) (fun o => some (o ||| v))
    ∧ does (.axor p rd ra rb scope) (.axorW32 p rd ra rb scope) (fun o => some (o ^^^ v))
    ∧ does (.axchg p rd ra rb scope) (.axchgW32 p rd ra rb scope) (fun _ => some v)
    ∧ does (.acas p rd ra rb scope) (.acasW32 p rd ra rb scope) (fun o => if o = q then some v else none)
    ∧ does (.aincw p rd ra rb scope) (.aincwW32 p rd ra rb scope) (fun o => some (if v ≤ o then 0 else o + 1))
    ∧ does (.afadd p rd ra rb scope) (.afaddW32 p rd ra rb scope) (fun o => some (opFadd f .rne false o v).1)
    ∧ does (.afmin p rd ra rb scope) (.afminW32 p rd ra rb scope) (fun o => some (opFmin f o v).1)
    ∧ does (.afmax p rd ra rb scope) (.afmaxW32 p rd ra rb scope) (fun o => some (opFmax f o v).1)

/-- The atomics in a thread that is not enabled (R134, R216): no access is made; rd stays or is zeroed. -/
def Sys2Proof.Claim.AtomicMasked : Prop :=
  ∀ (p : Option Pfx) (rd ra rb : Reg) (c : BitVec 2) (s : State) (h : Here),
    RunsHere s p [rd.toNat, ra.toNat, rb.toNat] [rd, ra, rb] h → active p h.t = false →
    let masked := fun (i : Instr) => exec i s = .next (maskedOut h p rd)
    masked (.aadd p rd ra rb c) ∧ masked (.amin p rd ra rb c) ∧ masked (.amax p rd ra rb c) ∧ masked (.aminn p rd ra rb c)
    ∧ masked (.amaxn p rd ra rb c) ∧ masked (.aand p rd ra rb c) ∧ masked (.aor p rd ra rb c) ∧ masked (.axor p rd ra rb c)
    ∧ masked (.axchg p rd ra rb c) ∧ masked (.acas p rd ra rb c) ∧ masked (.aincw p rd ra rb c)
    ∧ masked (.afadd p rd ra rb c) ∧ masked (.afmin p rd ra rb c) ∧ masked (.afmax p rd ra rb c)
    ∧ masked (.aaddW32 p rd ra rb c) ∧ masked (.aminW32 p rd ra rb c) ∧ masked (.amaxW32 p rd ra rb c)
    ∧ masked (.aminnW32 p rd ra rb c) ∧ masked (.amaxnW32 p rd ra rb c) ∧ masked (.aandW32 p rd ra rb c)
    ∧ masked (.aorW32 p rd ra rb c) ∧ masked (.axorW32 p rd ra rb c) ∧ masked (.axchgW32 p rd ra rb c)
    ∧ masked (.acasW32 p rd ra rb c) ∧ masked (.aincwW32 p rd ra rb c) ∧ masked (.afaddW32 p rd ra rb c)
    ∧ masked (.afminW32 p rd ra rb c) ∧ masked (.afmaxW32 p rd ra rb c)

/-- All of: AtomicValues, AtomicMasked. -/
def Obligations.AtomicResults : Prop := Claim.AtomicValues ∧ Claim.AtomicMasked

/-- ACASK (R220, R111): an invalid descriptor raises CMSN_INVALID (cause 6) with the descriptor in sr.tval. With a valid one the
new value is written only where the compare succeeds and the slice's launch queue has room; then a commission is reserved. The
status in the mask register has bit 0 clear only where the compare succeeded without room, bits [7:1] zero. -/
def Obligations.CommissionedSwap : Prop :=
  ∀ (p : Pfx) (rd ra rb : Reg) (scope : BitVec 2) (s s' : State) (h : Here) (n old : Nat),
    RunsHere s (some p) [rd.toNat, ra.toNat, rb.toNat, p.rc.toNat] [rd, ra, rb, p.rc] h → (n = 8 ∨ n = 4) →
    let i := if n = 8 then Instr.acask p rd ra rb scope else .acaskW32 p rd ra rb scope
    let va := (h.t.readX ra).toNat
    let desc := h.t.readX p.rc
    let q := (h.t.readX rd).toNat % 2 ^ (8 * n)
    let v := (h.t.readX rb).toNat % 2 ^ (8 * n)
    let room := sliceLoad s (sliceOf s h.b va) < 16
    (cmsnCheck h va desc = .invalid →
      exec i s = .next (trapEntry (h.put s { h.t with cmsn := none }) h.b.bid h.t.tid h.t.pc 6 h.t.pc desc))
    ∧ (cmsnCheck h va desc = .valid → h.t.cmsn = none → twinned h.b = false → uncommitted h.b = false → va % n = 0 →
      atomicAt s h.b.view va n (fun o => if o = q ∧ room then some v else none) = .inl (old, s') →
      let t := h.t.writeK p.mask (if old = q ∧ ¬room then 0 else 1)
      ∃ c : Commission, c.part = h.b.part ∧ c.ctx = h.b.ctx ∧ (c.die, c.slice) = sliceOf s h.b va
        ∧ c.old = BitVec.ofNat 64 old ∧ c.info = { addr := h.t.readX ra, desc := desc, grid := h.b.grid, blk := h.b.idx }
        ∧ c.scope = scope.toNat ∧ c.id = s'.nextId ∧ (∀ k, cmsnEntry s h.b desc = .inl (some k) → c.kpb = k)
        ∧ let s1 := if old = q ∧ room then { s' with nextId := s'.nextId + 1, commissions := s'.commissions ++ [c] } else s'
          (rd = 0 → exec i s = .next (irrevocable true h (h.put s1 (t.advance h.len))))
          ∧ (rd ≠ 0 → ∃ k : Prod,
            exec i s = .next (irrevocable true h (h.put (started s1 k) ((t.emptyX rd).advance h.len)))
            ∧ k.id = s1.nextId ∧ k.tid = h.t.tid ∧ k.y = some (h.t.yOf rd) ∧ k.val = BitVec.ofNat 64 old ∧ k.ready = true))

/-! ## Feed queues (chapter 10) -/

/-- FQPUSH and FQPOP (R244): a push of an access thread appends its value to its lane's column, a pop of an execute thread takes
the oldest cell of its lane; a full or an empty column makes the thread wait. Poisoned cells apart. -/
def Sys2Proof.Claim.FeedQueues : Prop :=
  ∀ (q : BitVec 2) (rd ra : Reg) (s : State) (h : Here) (tm : Team), h.b.team? h.t.slot = some tm →
    (Runs s none [ra.toNat] [ra] [] h → h.acc = true → tm.drop[column q h.t.lane] = 0 →
      (tm.fq[column q h.t.lane].length < 16 → ∃ c : FqCell,
        exec (.fqpush q ra false) s = .next (h.put (s.onBlock h.b.bid fun b => b.setTeam { tm with
          fq := tm.fq.set (column q h.t.lane) (tm.fq[column q h.t.lane] ++ [c]) }) ({ h.t with touched := [] }.advance h.len))
        ∧ c.val = h.t.readX ra ∧ c.poison = firstPoison h [ra] ∧ c.touched = h.t.touched)
      ∧ (16 ≤ tm.fq[column q h.t.lane].length →
        exec (.fqpush q ra false) s = .next (h.put s { h.t with wait := .dep })))
    ∧ (RunsHere s none [rd.toNat] [rd] h → h.b.kernel.access.isSome = true →
      (∀ c rest, tm.fq[column q h.t.lane] = c :: rest → c.poison = none →
        exec (.fqpop rd q) s = .next (h.put ((confirmPaths s h.b.view c.touched).onBlock h.b.bid fun b => b.setTeam { tm with
          fq := tm.fq.set (column q h.t.lane) rest,
          pops := tm.pops.set (column q h.t.lane) (tm.pops[column q h.t.lane] + 1) })
          ((h.t.writeX rd c.val).advance h.len)))
      ∧ (tm.fq[column q h.t.lane] = [] → (∀ t ∈ h.b.access, t.halted = none) →
        exec (.fqpop rd q) s = .next (h.put s { h.t with wait := .dep })))

/-- Access-slice code (R243, R245): BR, LOOP and the arithmetic run as in the execute slice on operands without poison (what
LOOP does there LoopInstructions says); a poisoned operand of BR or LOOP halts the thread with the descriptor, and one of an
arithmetic instruction poisons its result. BR's condition 8 may stand there, 6 and 7 are illegal. SRD reads numbers 0 to 10, of
which 0 is the tid of the execute thread of its lane, and no other. -/
def Sys2Proof.Claim.AccessSlice : Prop :=
  ∀ (rd ra rb : Reg) (cond : BitVec 4) (disp : BitVec 16) (lc : BitVec 2) (d18 : BitVec 18) (n : BitVec 5) (s : State) (h : Here),
    Runs s none [rd.toNat, ra.toNat, rb.toNat] [rd, ra, rb] [] h → h.acc = true →
    let stops := fun (i : Instr) (d : Poison) => exec i s = .next (s.setThread h.b.bid true
      { h.t with life := .exited, halted := some d, wait := .ready })
    let target := h.t.pc + BitVec.ofInt 64 (disp.toInt * 4)
    let reads := fun (v : Word) => ∃ t' : Thread, exec (.srd rd n) s = .next (h.put s (t'.advance h.len))
      ∧ (rd ≠ 0 → t'.y (h.t.yOf rd) = v ∧ t'.poison.find? (fun x => x.1 == h.t.yOf rd) = none)
    (∀ d, firstPoison h [ra] = some d → (cond.toNat < 6 → stops (.br ra cond disp) d) ∧ stops (.loop lc ra d18) d)
    ∧ (firstPoison h [ra] = none → cond.toNat < 6 →
      (condHolds cond.toNat (h.t.readX ra) = false → exec (.br ra cond disp) s = .next (moved h h.t))
      ∧ (condHolds cond.toNat (h.t.readX ra) = true → exec (.br ra cond disp) s = .next (jumped h target)))
    ∧ (cond = 8 → exec (.br ra cond disp) s = .next (jumped h target))
    ∧ (cond = 6 ∨ cond = 7 → exec (.br ra cond disp) s = .next (illegalAt s h.b h.t))
    ∧ (rd ≠ 0 → ∃ t' : Thread, exec (.add none rd ra rb false false) s = .next (h.put s (t'.advance h.len))
        ∧ t'.y (h.t.yOf rd) = h.t.readX ra + h.t.readX rb
        ∧ (t'.poison.find? fun x => x.1 == h.t.yOf rd) = (firstPoison h [ra, rb]).map fun d => (h.t.yOf rd, d))
    ∧ (n = 0 → ∀ x ∈ h.b.threads, x.slot = h.t.slot → x.lane = h.t.lane → x.life = .running →
        (∀ y ∈ h.b.threads, y.slot = h.t.slot → y.lane = h.t.lane → y.life = .running → y.tid = x.tid) →
        reads (BitVec.ofNat 64 x.tid))
    ∧ (n = 1 → reads (BitVec.ofNat 64 h.t.lane)) ∧ (n = 2 → reads (BitVec.ofNat 64 h.t.slot))
    ∧ (n = 3 → reads (BitVec.ofNat 64 (h.b.kernel.n + h.b.kernel.s))) ∧ (n = 4 → reads (BitVec.ofNat 64 h.b.idx))
    ∧ (n = 5 → reads (BitVec.ofNat 64 h.b.nblk)) ∧ (n = 6 → reads (BitVec.ofNat 64 h.b.crank))
    ∧ (n = 7 → reads (BitVec.ofNat 64 h.b.csize)) ∧ (n = 8 → reads (h.b.grid.zeroExtend 64))
    ∧ (n = 9 → reads (if h.b.kind = .sCore then 1 else 0)) ∧ (n = 10 → reads (BitVec.ofNat 64 h.b.cfg))
    ∧ (11 ≤ n.toNat → exec (.srd rd n) s = .next (illegalAt s h.b h.t))

/-- LD and LDZ in access-slice code (R245, R106, R93): a good load leaves a producer with the extended bytes, sets no A bit and
keeps the pages it read for their confirmation; one that meets a fault, or an SO page, poisons its destination with the address,
the size and the fault; a poisoned address passes its poison on. Blocks without held stores. -/
def Sys2Proof.Claim.AccessSliceLoads : Prop :=
  ∀ (rd ra : Reg) (size : BitVec 2) (imm : BitVec 10) (s : State) (h : Here),
    Runs s none [rd.toNat, ra.toNat] [rd, ra] [] h → h.acc = true → h.b.held = [] →
    let n : Nat := 2 ^ size.toNat
    let va := (h.t.readX ra + BitVec.ofInt 64 (imm.toInt * n)).toNat
    let ld := Instr.ld none rd ra size false imm
    let ldz := Instr.ldz none rd ra size false imm
    let starts := fun (i : Instr) (t : Thread) (v : Word) (d : Option Poison) =>
      ∃ q : Prod, exec i s = .next (h.put (Sys2Proof.started s q) ((t.emptyX rd).advance h.len))
        ∧ q.id = s.nextId ∧ q.bid = h.b.bid ∧ q.tid = h.t.tid ∧ q.acc = true ∧ q.kind = .load ∧ q.ready = true
        ∧ q.y = (if rd = 0 then none else some (h.t.yOf rd)) ∧ q.flags = 0 ∧ q.poison = d ∧ (d = none → q.val = v)
    let spoils := fun (f : AccFault) =>
      let d := fun (zx : Bool) => ({ addr := BitVec.ofNat 64 va, size := n, zx := zx, fault := f } : Poison)
      starts ld h.t 0 (some (d false)) ∧ starts ldz h.t 0 (some (d true))
    (firstPoison h [ra] = none →
      (∀ f, windowFault s h.b.view va n = some f → spoils f)
      ∧ (windowFault s h.b.view va n = none →
        (∀ f, locateAll s h.b.view needR (addrs va n) = .inr f → spoils f)
        ∧ ∀ ls, locateAll s h.b.view needR (addrs va n) = .inl ls →
          (onSO ls = true → spoils { kind := .program 2, addr := BitVec.ofNat 64 va })
          ∧ (onSO ls = false →
            (∀ f, dataFault s ls va = some f → spoils f)
            ∧ (dataFault s ls va = none →
              let t := { h.t with touched := (h.t.touched ++ pathsOf s h.b.view (addrs va n)).eraseDups }
              let x := readPlaces s ls
              starts ld t (BitVec.ofInt 64 (BitVec.ofNat (8 * n) x).toInt) none ∧ starts ldz t (BitVec.ofNat 64 x) none))))
    ∧ ∀ d, rd ≠ 0 → firstPoison h [ra] = some d → ∃ t' : Thread, exec ld s = .next (h.put s (t'.advance h.len))
      ∧ exec ldz s = .next (h.put s (t'.advance h.len))
      ∧ (t'.poison.find? fun x => x.1 == h.t.yOf rd) = some (h.t.yOf rd, d)

/-- All of: FeedQueues, AccessSlice, AccessSliceLoads. -/
def Obligations.FeedAndAccessSlice : Prop := Claim.FeedQueues ∧ Claim.AccessSlice ∧ Claim.AccessSliceLoads

/-! ## Engines (chapters 04, 05, 09) -/

/-- TILELD, TILEST, COPY and GATHER (R209 to R213): with operands inside the limits the operation joins its class's queue, the
team's counter rises by one and the token register is marked empty; one whose window check fails has token value −2 at once. An
operation that writes outside scratchpad is followed by an interval boundary. For a block that is no twin, outside a restart
region. -/
def Sys2Proof.Claim.EngineIssue : Prop :=
  ∀ (p : Option Pfx) (rd ra : Reg) (typ width : BitVec 2) (s : State) (h : Here) (tm : Team) (k : EngKind) (cls n : Nat) (i : Instr),
    let r := fun (j : Nat) => h.t.readN (ra.toNat + j)
    ((∃ e, tileLimits (lo32 (r 3)) (hi32 (r 3)) (lo32 (r 2)) (hi32 (r 2)) e = true ∧ cls = 0 ∧ n = 4
        ∧ ((i = .tileld p rd ra typ ∧ e = typ.toNat
            ∧ k = .tileld (r 0) (r 1) (lo32 (r 2)) (hi32 (r 2)) (lo32 (r 3)) (hi32 (r 3)) typ.toNat)
          ∨ (i = .tilest p rd ra ∧ e = 0
            ∧ k = .tilest (r 0) (r 1) (lo32 (r 2)) (hi32 (r 2)) (lo32 (r 3)) (hi32 (r 3)))))
      ∨ (i = .copy p rd ra ∧ (r 2).toNat ≤ 2 ^ 40 ∧ k = .copy (r 0) (r 1) (r 2).toNat ∧ cls = 0 ∧ n = 3)
      ∨ (i = .gather p rd ra width ∧ (r 0).toNat % 4 = 0 ∧ (r 3).toNat ≤ 16777216
          ∧ k = .gather (r 0) (r 1) (r 2) (r 3).toNat (2 ^ width.toNat) ∧ cls = 2 ∧ n = 4)) →
    RunsHere s p (rd.toNat :: (List.range n).map (ra.toNat + ·)) [rd] h → (∀ j < n, h.t.nFull (ra.toNat + j) = true) →
    h.b.team? h.t.slot = some tm → tm.count cls < 255 → twinned h.b = false → uncommitted h.b = false →
    ∃ op : EngOp, exec i s = .next (irrevocable (engOk s h.b.view k && writesOut k) h
        (h.put ({ s with nextId := s.nextId + 1, ops := s.ops ++ [op] }.onBlock h.b.bid fun b =>
          b.setTeam (tm.setCount cls (tm.count cls + 1))) ((h.t.emptyX rd).advance h.len)))
      ∧ op.id = s.nextId ∧ op.bid = h.b.bid ∧ op.slot = h.t.slot ∧ op.tid = h.t.tid ∧ op.cls = cls ∧ op.kind = k
      ∧ op.tok = (if rd = 0 then none else some (h.t.yOf rd)) ∧ op.binding = bindGuard tm p ∧ op.progress = 0
      ∧ op.result = if engOk s h.b.view k then none else some (-2)

/-- COLL (R214, R376): with a descriptor inside the limits, in a group of the partition, the operation joins the COLL queue. -/
def Sys2Proof.Claim.CollectiveIssue : Prop :=
  ∀ (p : Option Pfx) (rd ra : Reg) (s s' : State) (h : Here) (tm : Team) (d : List Byte) (g : FabricGroup),
    RunsHere s p [rd.toNat, ra.toNat] [rd, ra] h → h.b.team? h.t.slot = some tm → tm.count 3 < 255 →
    twinned h.b = false → uncommitted h.b = false →
    let a := (h.t.readX ra).toNat
    a % 64 = 0 → windowFault s h.b.view a 64 = none → loadBytes s h.b.view a 64 = .inl (d, s') →
    fabricGroup s h.b.part (parseColl d).group = some g → collOk (parseColl d) g = true →
    let c := parseColl d
    let ok := (c.sources g ++ c.dests g).all fun r => spanOk s h.b.view r.1 r.2
    ∃ op : EngOp, exec (.coll p rd ra) s = .next (irrevocable (ok && c.writesOut g) h
        (h.put ({ s' with nextId := s'.nextId + 1, ops := s'.ops ++ [op] }.onBlock h.b.bid fun b =>
          b.setTeam (tm.setCount 3 (tm.count 3 + 1))) ((h.t.emptyX rd).advance h.len)))
      ∧ op.cls = 3 ∧ op.kind = .coll d ∧ op.tok = (if rd = 0 then none else some (h.t.yOf rd))
      ∧ op.result = if ok then none else some (-2)

/-- All of: EngineIssue, CollectiveIssue. -/
def Obligations.EngineAndCollectiveIssue : Prop := Claim.EngineIssue ∧ Claim.CollectiveIssue

/-- WAITC (R215): the thread moves on when the counter is at most n, and waits, nothing else changing, while it is above. -/
def Sys2Proof.Claim.WaitForCounter : Prop :=
  ∀ (nlo : Reg) (nhi : Bool) (cls : BitVec 2) (s : State) (h : Here) (tm : Team), RunsHere s none [] [] h →
    h.b.team? h.t.slot = some tm →
    let n := nlo.toNat + if nhi then 128 else 0
    (tm.count cls.toNat ≤ n → exec (.waitc nlo nhi cls) s = .next (moved h h.t))
    ∧ (n < tm.count cls.toNat → exec (.waitc nlo nhi cls) s = .next (h.put s { h.t with wait := .engine }))

/-- ENGINE_COMPLETE (R104, R47): an operation whose turn has come and whose token value is known completes: it leaves, its token's
register takes the value and is full, and its teams' counter of its class falls by one, the others staying. One whose value is
not known is performed first: with guard FALSE its value is −1 (R210), a transfer's is what the transfer ends with, and the matrix
unit's work signals 0. For an operation of a block that is no twin. -/
def Sys2Proof.Claim.EngineSignals : Prop :=
  ∀ (s : State) (o : EngOp) (b : Block), s.ops.find? (fun x => x.id == o.id) = some o → s.block? o.bid = some b →
    opReady s b o = true → twinned b = false →
    let completes := fun (u : State) (v : Word) => exec (.engineComplete o.id) s = .next (completeOp u o v)
    (∀ v, o.result = some v → completes s v)
    ∧ (o.result = none →
      (o.binding = .discard → completes s (BitVec.ofInt 64 (-1)))
      ∧ (o.binding ≠ .discard →
        (o.isMatrix = false → (o.cls = 0 ∨ o.cls = 2) → (∀ n, o.kind ≠ .twin n) → (∀ d, o.kind ≠ .coll d) →
          ∀ u v, transfer s b.view o.kind o.progress false = (u, .ended v) → completes (keepWrites u b o (2 ^ 64)) v)
        ∧ (o.isMatrix = true → (∀ n, o.kind ≠ .twin n) → (∀ d, o.kind ≠ .coll d) →
          ∀ u, performMatrix s b o = (u, .done) → completes u 0)))
    ∧ ∀ (u : State) (v : Word) (c : Block), u.block? o.bid = some c →
      (∀ x ∈ (completeOp u o v).ops, x.id ≠ o.id)
      ∧ ∃ d, (completeOp u o v).block? o.bid = some d
        ∧ (o.cls < 4 → ∀ y, o.tok = some y → o.orphan = false → ∀ t ∈ d.threads, t.tid = o.tid → t.y y = v ∧ t.yFull y = true)
        ∧ (o.cls < 4 → ∀ tm ∈ c.teams, tm.slot ∈ opSlots o →
            ∃ tm' ∈ d.teams, tm'.slot = tm.slot ∧ tm'.count o.cls = tm.count o.cls - 1
              ∧ ∀ k < 4, k ≠ o.cls → tm'.count k = tm.count k)

/-- LONG_LATENCY_COMPLETE (R38, R40): the producer leaves, the y register it named takes its value and is full, its flags join
sr.fpst (at this moment: log 65), and no other register of the thread changes, whatever its window base is by then. -/
def Sys2Proof.Claim.ProducerDelivers : Prop :=
  ∀ (s : State) (p : Prod) (b : Block) (t : Thread), s.prods.find? (fun x => x.id == p.id && x.ready) = some p →
    s.block? p.bid = some b → b.thread? p.acc p.tid = some t →
    let t' := deliver p t
    exec (.longLatencyComplete p.id) s = .next ({ s with prods := s.prods.filter fun x => x.id != p.id }.onBlock p.bid fun x =>
        match x.thread? p.acc p.tid with
        | some t => x.setThread p.acc (deliver p t)
        | none => x)
      ∧ (∀ y, p.y = some y → t'.y y = p.val ∧ t'.yFull y = true)
      ∧ (∀ n < 256, (∀ y, p.y = some y → n ≠ y % 256) → t'.y n = t.y n ∧ t'.yFull n = t.yFull n)
      ∧ t'.fpst = t.fpst ||| p.flags ∧ t'.pc = t.pc ∧ t'.wb = t.wb ∧ t'.wait = t.wait

/-- All of: WaitForCounter, EngineSignals, ProducerDelivers. -/
def Obligations.CountersAndSignals : Prop := Claim.WaitForCounter ∧ Claim.EngineSignals ∧ Claim.ProducerDelivers

/-! ## The matrix unit (chapter 10) -/

/-- CVDECL, ACALLOC and ACFREE (R229, R235) on an M-core: the declaration of a convergence register without an open round; an
unmapped handle becomes a mapped tile of zeros while the reservation has one, else ACC_OVERFLOW (cause 7); a handle without
work or shadows is unmapped. -/
def Obligations.HandleManagement : Prop :=
  ∀ (n : BitVec 4) (m : BitVec 6) (ra : Reg) (fea : Bool) (s : State) (h : Here), RunsHere s none [ra.toNat] [ra] h →
    h.b.kind = .mCore →
    let x := h.b.handle m.toNat
    (h.b.rounds.any (fun r => r.cv == n.toNat) = false →
      ∃ f : Block → Block, exec (.cvdecl n ra fea) s = .next (h.put (s.onBlock h.b.bid f) (h.t.advance h.len))
        ∧ (f h.b).conv[n.toNat]'n.isLt = if ra = 0 then .team else .group (h.t.readX ra))
    ∧ (x.map ≠ 2 → exec (.acalloc m) s = .next (moved h h.t))
    ∧ (x.map = 2 → h.b.kernel.acc ≤ tilesUsed h.b →
      exec (.acalloc m) s = .next (trapEntry s h.b.bid h.t.tid h.t.pc 7 h.t.pc (m.zeroExtend 64)))
    ∧ (x.map = 2 → tilesUsed h.b < h.b.kernel.acc →
      exec (.acalloc m) s = .next (h.put ((voidHandle s h.b m.toNat).onBlock h.b.bid fun b =>
        b.setHandle m.toNat { map := 0, unc := true, skp := false, tile := List.replicate 128 0 }) (h.t.advance h.len)))
    ∧ (x.map ≠ 2 → pendingOn s h.b.bid m.toNat = [] → (∀ w ∈ h.b.shadows, w.handle ≠ m.toNat) →
      ∃ y : Handle, y.map = 2 ∧ y.skp = false ∧ exec (.acfree m) s = .next (h.put (s.onBlock h.b.bid fun b =>
        b.setHandle m.toNat y) (h.t.advance h.len)))

/-- AZERO, SCACC and AMOVR (R227, R236 to R238): the work reaches the unit as an operation of the block that no counter counts,
and is performed as far as handle order lets it: the only such operation of its block is performed and leaves, or stays. Performed
on a mapped handle, AZERO leaves zeros, uncommitted; AMOVR's producer takes the selected dword, or the handle's state word. -/
def Sys2Proof.Claim.UncountedMatrixWork : Prop :=
  ∀ (rd ra rb : Reg) (n part : BitVec 6) (feb : Bool) (s : State) (h : Here), h.b.kind = .mCore →
    let reaches := fun (i : Instr) (k : EngKind) (q : List Prod) (t : Thread) => ∃ op : EngOp,
      exec i s = .next (drainMatrix (h.put { s with
        nextId := s.nextId + q.length + 1, prods := s.prods ++ q, ops := s.ops ++ [op] } (t.advance h.len)) h.b.bid)
      ∧ op.kind = k ∧ op.cls = 4 ∧ op.bid = h.b.bid ∧ op.id = s.nextId + q.length
    (RunsHere s none [] [] h → reaches (.azero n) (.azero n.toNat) [] h.t)
    ∧ (RunsHere s none [ra.toNat, ra.toNat + 1] [ra] h → h.t.nFull (ra.toNat + 1) = true →
      let sa := h.t.readX ra
      let sb := h.t.readN (ra.toNat + 1)
      sa.toNat % 4 = 0 → sb.toNat % 4 = 0 → windowFault s h.b.view sa.toNat 64 = none →
      windowFault s h.b.view sb.toNat 64 = none →
      reaches (.scacc n ra part) (.scacc n.toNat part.toNat sa sb) [] h.t)
    ∧ (RunsHere s none [rd.toNat, rb.toNat] [rb, rd] h → ∃ q : Prod, q.kind = .amovr ∧ q.ready = false ∧ q.tid = h.t.tid
      ∧ q.y = (if rd = 0 then none else some (h.t.yOf rd))
      ∧ reaches (.amovr rd n rb feb) (.amovr n.toNat (h.t.readX rb) s.nextId) [q] (h.t.emptyX rd))
    ∧ (∀ (u : State) (b : Block) (o : EngOp), u.block? o.bid = some b → u.ops.find? (fun x => x.id == o.id) = some o →
      (u.ops.filter fun x => x.bid == o.bid && x.cls == 4) = [o] →
      (mayPerform u b o = false → drainMatrix u o.bid = u)
      ∧ ∀ v, mayPerform u b o = true → performMatrix u b o = (v, .done) →
        drainMatrix u o.bid = { v with ops := v.ops.filter fun x => x.id != o.id })
    ∧ ∀ (b : Block) (o : EngOp), o.binding = .go → o.void = false →
      (o.kind = .azero n.toNat → (b.handle n.toNat).map ≠ 2 → performMatrix s b o = (s.onBlock b.bid fun b =>
        b.setHandle n.toNat { b.handle n.toNat with tile := List.replicate 128 0, map := 0, unc := true }, .done))
      ∧ (∀ sel pid, o.kind = .amovr n.toNat sel pid → ∀ p ∈ (performMatrix s b o).1.prods, p.id = pid →
        p.ready = true ∧ p.val = if sel.getLsbD 8 then handleWord (b.handle n.toNat)
          else if (b.handle n.toNat).map ≠ 0 then 0 else (b.handle n.toNat).tile.getD (sel.toNat % 128) 0)

/-- An MMA performed (R232, R233): with operands that can be read, on a mapped handle, every element of the tile takes its new value
from its row of A, its column of B and its old value, and the tile is uncommitted. The element's own value is stated in
FloatingPointValues. -/
def Sys2Proof.Claim.MatrixProduct : Prop :=
  ∀ (s : State) (b : Block) (o : EngOp) (acc fmt first : Nat) (pairs : List Word) (slots : List Nat) (A B : Nat → Nat → Nat),
    fmt < 8 → o.kind = .mma acc fmt pairs first slots → o.binding = .go → o.void = false → o.progress = 0 → o.xlat = [] →
    (b.handle acc).map = 0 → (b.handle acc).tile.length = 128 →
    let (m, n, k, size) : Nat × Nat × Nat × Nat := match fmt with
      | 0 => (8, 8, 8, 8)
      | 1 => (16, 16, 4, 4)
      | 2 => (16, 16, 16, 2)
      | 3 => (16, 16, 16, 2)
      | _ => (16, 16, 32, 1)
    let place := fun (q r c : Nat) =>
      let p := (pairs.getD q 0).toNat
      let w := pairs.getD (q + 1) 0
      let x := if w.getLsbD 63 then (c, r) else (r, c)
      (p + x.1 * (w.toNat % 2 ^ 32) + x.2 * size) % 2 ^ 64
    let reads := fun (a x : Nat) => loadAt s b.view a size = .inl (x, s)
    (∀ i < m, ∀ t < k, reads (place 0 i t) (A i t)) → (∀ t < k, ∀ j < n, reads (place 2 t j) (B t j)) →
    let bits := if fmt = 0 then 64 else 32
    let at' := fun (t : List Word) (i j : Nat) =>
      if fmt = 0 then (t.getD (8 * i + j) 0).toNat else (t.getD (8 * i + j / 2) 0).toNat / 2 ^ (32 * (j % 2)) % 2 ^ 32
    ∃ t : List Word, performMatrix s b o = (s.onBlock b.bid fun b =>
        b.setHandle acc { b.handle acc with tile := t, map := 0, unc := true }, .done)
      ∧ ∀ i < m, ∀ j < n, at' t i j = mmaElem fmt ((List.range k).map (A i)) ((List.range k).map fun t => B t j)
          (at' (b.handle acc).tile i j) % 2 ^ bits

/-- ALOAD and ASTORE at issue (R236): with address and stride inside the limits the operation joins the MATRIX queue and the
team's counter rises; a misaligned operand or a stride below a row faults with code 5. That the fault shows the address operand
and 64 bytes, also for a bad stride, is the model's choice (log 33). -/
def Sys2Proof.Claim.TileMoves : Prop :=
  ∀ (p : Option Pfx) (f64 : Bool) (n : BitVec 6) (ra rb : Reg) (fea feb : Bool) (s : State) (h : Here) (tm : Team),
    RunsHere s p [ra.toNat, rb.toNat] [ra, rb] h → h.b.kind = .mCore → h.b.team? h.t.slot = some tm → tm.count 1 < 255 →
    let addr := h.t.readX ra
    let stride := h.t.readX rb
    let a := if f64 then 8 else 4
    let good := addr.toNat % a = 0 ∧ stride.toNat % a = 0 ∧ 64 ≤ stride.toNat ∧ stride.toNat < 2 ^ 32
    let joins := fun (i : Instr) (k : EngKind) (out : Bool) => ∃ op : EngOp,
      exec i s = .next (irrevocable out h (h.put ({ s with nextId := s.nextId + 1, ops := s.ops ++ [op] }.onBlock h.b.bid fun b =>
        b.setTeam (tm.setCount 1 (tm.count 1 + 1))) (h.t.advance h.len)))
      ∧ op.cls = 1 ∧ op.kind = k ∧ op.tok = none ∧ op.result = none ∧ op.binding = bindGuard tm p
    let bad := (Host.Outcome.next (accessFault s h.b h.t false { kind := .program 5, addr := addr } h.t.pc 4 64) : Out)
    (good → joins (.aload p f64 n ra rb fea feb) (.aload n.toNat f64 addr stride) false)
    ∧ (good → twinned h.b = false → uncommitted h.b = false →
      joins (.astore p f64 n ra rb fea feb) (.astore n.toNat f64 addr stride) (writesOut (.astore n.toNat f64 addr stride)))
    ∧ (¬good → exec (.aload p f64 n ra rb fea feb) s = bad ∧ exec (.astore p f64 n ra rb fea feb) s = bad)

/-- All of: UncountedMatrixWork, MatrixProduct, TileMoves. -/
def Obligations.MatrixQueueIssue : Prop := Claim.UncountedMatrixWork ∧ Claim.MatrixProduct ∧ Claim.TileMoves

/-- MMA (R231, R233): the first signer of a round opens it with its fields and pair values, a later one whose base word and
prefix agree adds its signature, and the round issues as soon as every member has signed; the last signer of a sketch that
needs a tile of the reservation which is not there raises ACC_OVERFLOW (cause 7, R242). A disagreeing signer, and a thread
outside the declared group, raise MMA_MISMATCH (cause 4) without signing; on an undeclared convergence register the thread waits
(R229). -/
def Sys2Proof.Claim.MmaSigning : Prop :=
  ∀ (p : Option Pfx) (acc : BitVec 6) (cv : BitVec 4) (ra rb : Reg) (fmt : BitVec 3) (s : State) (h : Here),
    RunsHere s p [ra.toNat, rb.toNat, ra.toNat + 1, rb.toNat + 1] [ra, rb] h → h.b.kind = .mCore →
    h.t.nFull (ra.toNat + 1) = true → h.t.nFull (rb.toNat + 1) = true →
    let i := Instr.mma p acc cv ra rb fmt
    let base := mmaWord acc cv ra rb fmt
    let decl := h.b.conv[cv.toNat]'cv.isLt
    let tval := fun (w : BitVec 32) (tid : Nat) (out : Nat) => BitVec.ofNat 64 (w.toNat + tid % 1024 * 2 ^ 32 + out * 2 ^ 42)
    let signs := fun (slot : Option Nat) (r : Round) => exec i s = .next (tryRound
      ((h.put s { h.t with wait := .sign }).onBlock h.b.bid fun b =>
        { b with rounds := (b.rounds.filter fun x => !(x.cv == r.cv && x.slot == r.slot)) ++ [r] }) h.b.bid cv.toNat slot)
    (convSet h.b h.t decl = none → decl ≠ .undeclared →
      exec i s = .next (trapEntry s h.b.bid h.t.tid h.t.pc 4 h.t.pc (tval base h.t.tid 1)))
    ∧ (decl = .undeclared → exec i s = .next (h.put s { h.t with wait := .sign }))
    ∧ ∀ slot ms, convSet h.b h.t decl = some (slot, ms) →
      let open' := h.b.rounds.find? fun r => r.cv == cv.toNat && r.slot == slot
      let first : Round :=
        { cv := cv.toNat, slot := slot, first := h.t.tid, pfx := p, base := base, acc := acc.toNat, fmt := fmt.toNat,
          pairs := [h.t.readX ra, h.t.readN (ra.toNat + 1), h.t.readX rb, h.t.readN (rb.toNat + 1)],
          signers := [h.t.tid] }
      let lacks := fun (r : Round) => sketchOver s h.b r = true ∧ ∀ m ∈ ms, m ∈ r.signers
      let noTile := (Host.Outcome.next (trapEntry s h.b.bid h.t.tid h.t.pc 7 h.t.pc (acc.zeroExtend 64)) : Out)
      (open' = none → (¬lacks first → signs slot first) ∧ (lacks first → exec i s = noTile))
      ∧ (∀ r, open' = some r → h.t.tid ∉ r.signers → r.base = base → r.pfx = p →
        let r' := { r with signers := r.signers ++ [h.t.tid] }
        (¬lacks r' → signs slot r') ∧ (lacks r' → exec i s = noTile))
      ∧ (∀ r, open' = some r → h.t.tid ∉ r.signers → (r.base ≠ base ∨ r.pfx ≠ p) →
        exec i s = .next (trapEntry s h.b.bid h.t.tid h.t.pc 4 h.t.pc (tval r.base r.first 0)))

/-- R231 item 5, R233: a round whose members have all signed, with no full counter, tiles enough and operands inside the limits,
issues one operation with the first signer's fields and pairs; the round closes, every signer moves on and the MATRIX counter
of each signing team rises by one. -/
def Sys2Proof.Claim.RoundIssues : Prop :=
  ∀ (s : State) (b : Block) (r : Round), s.block? b.bid = some b →
    (b.rounds.find? fun x => x.cv == r.cv && x.slot == r.slot) = some r →
    (∀ m ∈ roundMembers b r, m ∈ r.signers) → sketchOver s b r = false → mmaCheck s b r = none →
    let slots := ((b.threads.filter fun t => r.signers.contains t.tid).map (·.slot)).eraseDups
    (∀ tm ∈ b.teams, tm.slot ∈ slots → tm.count 1 < 255) →
    ∃ (op : EngOp) (f : Block → Block), tryRound s b.bid r.cv r.slot
        = { s with nextId := s.nextId + 1, ops := s.ops ++ [op] }.onBlock b.bid f
      ∧ op.kind = .mma r.acc r.fmt r.pairs r.first slots ∧ op.cls = 1 ∧ op.bid = b.bid ∧ op.result = none
      ∧ (∀ x ∈ (f b).rounds, ¬(x.cv = r.cv ∧ x.slot = r.slot))
      ∧ (f b).threads = b.threads.map (fun t => if r.signers.contains t.tid then t.advance (pfxLen r.pfx) else t)
      ∧ (f b).teams = b.teams.map fun tm => if slots.contains tm.slot then tm.setCount 1 (tm.count 1 + 1) else tm

/-- All of: MmaSigning, RoundIssues. -/
def Obligations.MmaRounds : Prop := Claim.MmaSigning ∧ Claim.RoundIssues

/-- ACOMMIT (R239): a thread whose restart-live registers are full arrives at the commit barrier with its ra value and waits; in a
handler it is illegal. -/
def Sys2Proof.Claim.CommitArrives : Prop :=
  ∀ (ra : Reg) (fea : Bool) (s : State) (h : Here), RunsHere s none [ra.toNat] [ra] h → h.b.kind = .mCore →
    (h.t.inHandler = false → h.t.barsWait = false →
      liveFull h.t h.b.kernel.restartFirst h.b.kernel.restartCount = true →
      exec (.acommit ra fea) s = .next (afterArrival (arrive ((h.put s { h.t with barsWait := true, wait := .commit }).onBlock
        h.b.bid fun b => { b with commitVals := b.commitVals ++ [(h.t.tid, h.t.readX ra)] }) h.b.bid h.t.tid .commit)
        h.b.bid h.t.tid .commit h.len))
    ∧ (h.t.inHandler = true → exec (.acommit ra fea) s = .next (illegalAt s h.b h.t))

/-- R239: on the last arrival, with no matrix work left and every arrival's label operand known, the phase completes: the barrier
counts anew in its next phase, no thread's arrival is outstanding, and the block is as commitDone leaves it. A block that is no
twin. -/
def Sys2Proof.Claim.LastArrivalCommits : Prop :=
  ∀ (s : State) (b : Block) (tid : Nat) (x : Bar), s.block? b.bid = some b →
    (b.bars.find? fun y => y.id == .commit) = some x → x.expected ≤ x.arrived + 1 → matrixBusy s b.bid = false →
    twinned b = false →
    (∀ t ∈ b.threads, .commit ∈ t.outst ∨ t.tid = tid → ∃ v ∈ b.commitVals, v.1 = t.tid) →
    ∃ c d : Block, (arrive s b.bid tid .commit).block? b.bid = some c ∧ c = { commitDone d with errorBanks := c.errorBanks }
      ∧ d.commitVals = b.commitVals ∧ d.label = b.label ∧ (∀ n, d.handle n = b.handle n) ∧ d.cursor = b.cursor
      ∧ c.bars = b.bars.map (fun y => if y.id = .commit then { x with arrived := 0, phase := !x.phase } else y)
      ∧ c.threads = b.threads.map fun t =>
          { t with outst := (if t.tid = tid then t.outst ++ [.commit] else t.outst).filter (· != .commit) }

/-- R239, R240: what the phase leaves: the label is the lowest arriving thread's value with bits [1:0] cleared, UNC falls for every
handle, and a snapshot is taken. -/
def Sys2Proof.Claim.CommitEffect : Prop :=
  ∀ (b : Block) (v : Nat × Word), v ∈ b.commitVals → (∀ w ∈ b.commitVals, w.1 = v.1 → w = v) →
    (∀ w ∈ b.commitVals, v.1 ≤ w.1) →
    (commitDone b).label = v.2 &&& 0xFFFFFFFFFFFFFFFC ∧ (commitDone b).commitVals = []
    ∧ (∀ n, ((commitDone b).handle n).unc = false ∧ ((commitDone b).handle n).map = (b.handle n).map
        ∧ ((commitDone b).handle n).tile = (b.handle n).tile)
    ∧ ∃ sn, (commitDone b).snap = some sn ∧ sn.handles = (commitDone b).handles ∧ sn.bars = b.bars ∧ sn.cursor = b.cursor

/-- All of: CommitArrives, LastArrivalCommits, CommitEffect. -/
def Obligations.CommitBarrier : Prop := Claim.CommitArrives ∧ Claim.LastArrivalCommits ∧ Claim.CommitEffect

/-- GSET and GRES (R241, R210): GSET begins an episode on a slot that is not pending and does nothing to a pending one; GRES sets
the slot by its value, and on a pending slot the operations of the episode, and no others, proceed or are discarded. -/
def Obligations.Guards : Prop :=
  ∀ (n : BitVec 4) (ra : Reg) (fea : Bool) (s : State) (h : Here) (tm : Team), RunsHere s none [ra.toNat] [ra] h →
    h.b.team? h.t.slot = some tm →
    let g := tm.guards[n.toNat]'n.isLt
    let set := fun (x : Guard) => s.onBlock h.b.bid fun b => b.setTeam { tm with guards := tm.guards.set n.toNat x n.isLt }
    let yes := decide (h.t.readX ra ≠ 0)
    let now := set { g with state := if yes then .true else .false }
    (g.state = .pending → exec (.gset n) s = .next (moved h h.t))
    ∧ (g.state ≠ .pending → exec (.gset n) s
        = .next (h.put (set { state := .pending, episode := g.episode + 1 }) (h.t.advance h.len)))
    ∧ (g.state ≠ .pending → exec (.gres ra n fea) s = .next (drainMatrix (h.put now (h.t.advance h.len)) h.b.bid))
    ∧ (g.state = .pending → exec (.gres ra n fea) s = .next (drainMatrix
        (h.put (resolveEpisode now h.b.bid h.t.slot n.toNat g.episode yes) (h.t.advance h.len)) h.b.bid)
      ∧ (resolveEpisode now h.b.bid h.t.slot n.toNat g.episode yes).ops = s.ops.map fun o =>
          if o.bid = h.b.bid ∧ o.slot = h.t.slot ∧ o.binding = .episode n.toNat g.episode then
            { o with binding := if yes then .go else .discard } else o)

/-! ## Barriers, task graphs (chapters 09, 10) -/

/-- The barrier instructions (R222): an arrival half counts the thread and lets it go on, after its outstanding arrival at the
barrier is over; a wait half goes on without one and waits with one; an undeclared barrier is illegal; cluster and grid
arrivals are irrevocable (R31), and inside a restart region raise RESTART_REGION. Blocks that are no twins. -/
def Sys2Proof.Claim.BarrierInstructions : Prop :=
  ∀ (n : BitVec 6) (c : BitVec 4) (g : BitVec 3) (s : State) (h : Here), RunsHere s none [] [] h → twinned h.b = false →
    let arrives := fun (id : BarId) (irrev : Bool) =>
      (Host.Outcome.next (irrevocable irrev h (arrive (moved h h.t) h.b.bid h.t.tid id)) : Out)
    let half := fun (i w : Instr) (id : BarId) (irrev : Bool) =>
      (barLegal id h = false → exec i s = .next (illegalAt s h.b h.t) ∧ exec w s = .next (illegalAt s h.b h.t))
      ∧ (barLegal id h = true →
        (id ∈ h.t.outst → exec i s = .next (h.put s { h.t with wait := .barrier })
          ∧ exec w s = .next (h.put s { h.t with wait := .barrier }))
        ∧ (id ∉ h.t.outst → (irrev = false ∨ uncommitted h.b = false) → exec i s = arrives id irrev)
        ∧ (id ∉ h.t.outst → irrev = true → uncommitted h.b = true →
          exec i s = .next (trapEntry s h.b.bid h.t.tid h.t.pc 5 h.t.pc 5))
        ∧ (id ∉ h.t.outst → exec w s = .next (moved h h.t)))
    half (.bara n) (.barw n) (.block n.toNat) false
    ∧ half (.cbara c) (.cbarw c) (.cluster c.toNat) true
    ∧ half (.gbara g) (.gbarw g) (.grid g.toNat) true
    ∧ (barLegal (.block n.toNat) h = true → .block n.toNat ∉ h.t.outst → h.t.barsWait = false →
      exec (.bars n) s = .next (afterArrival (arrive (h.put s { h.t with barsWait := true, wait := .barrier })
        h.b.bid h.t.tid (.block n.toNat)) h.b.bid h.t.tid (.block n.toNat) h.len))
    ∧ (barLegal (.block n.toNat) h = true → .block n.toNat ∉ h.t.outst → h.t.barsWait = true →
      exec (.bars n) s = .next (moved h { h.t with barsWait := false }))

/-- CompletePhase (R222): the arrival that makes the arrived count reach the expected one sets it to 0, inverts the phase, and no
thread of the block has an outstanding arrival at the barrier any more; an earlier arrival only counts. For a block barrier of
a block that is no twin. -/
def Sys2Proof.Claim.BarrierPhase : Prop :=
  ∀ (s : State) (b : Block) (t : Thread) (x : Bar) (n : Nat), s.block? b.bid = some b → t ∈ b.threads →
    (b.bars.map (·.id)).Nodup → x ∈ b.bars → x.id = .block n → twinned b = false →
    ∃ b', (arrive s b.bid t.tid (.block n)).block? b.bid = some b'
      ∧ (x.arrived + 1 < x.expected →
        b'.bars.find? (fun y => y.id == .block n) = some { x with arrived := x.arrived + 1 }
        ∧ ∃ t' ∈ b'.threads, t'.tid = t.tid ∧ .block n ∈ t'.outst)
      ∧ (x.expected ≤ x.arrived + 1 →
        b'.bars.find? (fun y => y.id == .block n) = some { x with arrived := 0, phase := !x.phase }
        ∧ ∀ t' ∈ b'.threads, .block n ∉ t'.outst)

/-- All of: BarrierInstructions, BarrierPhase. -/
def Obligations.BarrierRules : Prop := Claim.BarrierInstructions ∧ Claim.BarrierPhase

/-- TLAUNCH (R247): a descriptor that is 64-byte aligned and readable, while the pool has room, is accepted with status 0 or
refused with status 1, the status in rd; it is irrevocable. Outside a restart region, for a block that is no twin. -/
def Sys2Proof.Claim.TaskLaunch : Prop :=
  ∀ (rd ra : Reg) (fea : Bool) (s s' : State) (h : Here) (c : Ctx) (d : List Byte),
    RunsHere s none [rd.toNat, ra.toNat] [ra, rd] h → twinned h.b = false → uncommitted h.b = false →
    let va := (h.t.readX ra).toNat
    s.ctx? h.b.ctx = some c → poolUsed s h.b.ctx < c.lcap → va % 64 = 0 → windowFault s h.b.view va 64 = none →
    loadBytes s h.b.view va 64 = .inl (d, s') → kernelPoisoned s' h.b.ctx (field d 0 8) = false →
    let gives := fun (t : State) (v : Word) =>
      (Host.Outcome.next (irrevocable true h (h.put t ((h.t.writeX rd v).advance h.len))) : Out)
    (nodeOk s' h.b.part h.b.ctx d = false → exec (.tlaunch rd ra fea) s = gives s' 1)
    ∧ (nodeOk s' h.b.part h.b.ctx d = true → ∃ pid,
      exec (.tlaunch rd ra fea) s = gives (acceptNode s' h.b.part h.b.ctx va d h.b.launch pid) 0
      ∧ ∃ nd ∈ (acceptNode s' h.b.part h.b.ctx va d h.b.launch pid).nodes,
          nd.ctx = h.b.ctx ∧ nd.addr = h.t.readX ra ∧ nd.desc = d ∧ nd.launch = h.b.launch ∧ nd.remaining ≤ field d 24 2)

/-- TNEXT (R248): without a distribution both registers read 0; otherwise the block's cursor moves on to the end of the next
range, which begins where the cursor stood and ends at the end of the block's share or of the tile it begins in, whichever comes
first; at the end of the share rd reads the total and the other register 0. FIX says that the range starts inside its tile, COMBINE
that it starts a tile it does not end, and then the top field counts the other blocks whose shares, none of them empty, begin inside
that tile behind the range's start, 65,535 at most. -/
def Sys2Proof.Claim.NextRange : Prop :=
  (∀ (rd : Reg) (s : State) (h : Here), RunsHere s none [rd.toNat, rd.toNat + 1] [rd] h → h.t.nFull (rd.toNat + 1) = true →
    let r := nextRange h.b.distT h.b.distG h.b.idx h.b.nblk h.b.cursor
    let put := fun (x y : Nat) => (h.t.writeX rd (BitVec.ofNat 64 x)).writeN (rd.toNat + 1) (BitVec.ofNat 64 y)
    (h.b.distT = 0 → exec (.tnext rd) s = .next (moved h (put 0 0)))
    ∧ (h.b.distT ≠ 0 → exec (.tnext rd) s = .next (h.put (s.onBlock h.b.bid fun b => { b with cursor := r.2.2 })
        ((put r.1 r.2.1).advance h.len))))
  ∧ ∀ (total tile blk nblk cursor : Nat), 0 < tile → tile < 2 ^ 32 → blk < nblk →
    let hi := (blk + 1) * total / nblk
    let tend := min total ((cursor / tile + 1) * tile)
    let r := nextRange total tile blk nblk cursor
    let parts := ((List.range nblk).filter fun b => b != blk && decide (cursor < b * total / nblk)
      && decide (b * total / nblk < tend) && decide (b * total / nblk < (b + 1) * total / nblk)).length
    (hi ≤ cursor → r = (total, 0, cursor))
    ∧ (cursor < hi → r.1 = cursor ∧ r.2.2 = min hi tend ∧ cursor < r.2.2 ∧ r.2.1 % 2 ^ 32 = r.2.2 - cursor
      ∧ (r.2.1.testBit 32 = true ↔ cursor % tile ≠ 0) ∧ (r.2.1.testBit 33 = true ↔ cursor % tile = 0 ∧ r.2.2 < tend)
      ∧ r.2.1 / 2 ^ 34 % 2 ^ 14 = 0
      ∧ r.2.1 / 2 ^ 48 = if cursor % tile = 0 ∧ r.2.2 < tend then min parts 0xFFFF else 0)

/-- All of: TaskLaunch, NextRange. -/
def Obligations.TaskGraphInstructions : Prop := Claim.TaskLaunch ∧ Claim.NextRange


/-! ## Encodings (chapter 06) -/

/-- Words that the spec's own examples give (06 R124, chapters 07 to 10), with the instructions they stand for. -/
def Obligations.ExampleWordsDecode : Prop :=
  decode 0x3060B006 0 = .ok (.ld none 6 5 2 false 6, 4)
  ∧ decode 0xDAF12000 0x6070C21D = .ok (.fma
      (some { mask := 2, rm := 7, zero := true, rc := 9, fec := false, sat := false, sk := false, guard := 0 })
      7 6 8 false true 1, 8)
  ∧ decode 0x10000000 0 = .ok (.addi none 0 0 false 0, 4)
  ∧ decode 0xE0412346 0 = .ok (.lih 4 0x12346, 4)
  ∧ decode 0xF0100010 0 = .ok (.call 1 16, 4)
  ∧ decode 0x50100003 0 = .ok (.loop 0 4 3, 4)
  ∧ decode 0x589284A3 0 = .ok (.brspawn 9 20 1 10 3, 4)
  ∧ decode 0x7870D04C 0 = .ok (.fcvt none 7 6 4 1 false, 4)
  ∧ decode 0x90500043 0 = .ok (.gred none 5 0 0 1 false, 4)
  ∧ decode 0x4070ABFD 0 = .ok (.st none 7 5 1 false 0x3FD, 4)
  ∧ decode 0x98308682 0 = .ok (.lda 3 4 false 3 2 false, 4)
  ∧ decode 0xA1418040 0 = .ok (.tileld none 20 12 1, 4)
  ∧ decode 0xA8010260 0 = .ok (.aadd none 0 8 9 2, 4)
  ∧ decode 0xB8622864 0 = .ok (.mma none 3 1 10 12 4, 4)
  ∧ decode 0xC000E004 0 = .ok (.acommit 7 false, 4)
  ∧ decode 0xC80000C3 0 = .ok (.cbara 3, 4)
  ∧ decode 0xD0C00345 0 = .ok (.reconv 12 0 13 false false, 4)
  ∧ decode 0xD00F0008 0 = .ok (.rte 120 false, 4)

/-- Every well-formed instruction comes back from its words, whatever follows them. -/
def Obligations.DecodeOfEncode : Prop :=
  ∀ i : Instr, i.isEvent = false → i.wf = true →
    (i.pfx = none → ∃ w, encode i = [w] ∧ ∀ x, decode w x = .ok (i, 4))
    ∧ (i.pfx ≠ none → ∃ p w, encode i = [p, w] ∧ decode p w = .ok (i, 8))

/-- What decodes is a well-formed instruction, no event, and its encoding is the very words that were read: every bit of them
counts (06 R126, R136). -/
def Obligations.EncodeOfDecode : Prop :=
  ∀ (w0 w1 : BitVec 32) (i : Instr) (n : Nat), decode w0 w1 = .ok (i, n) →
    i.wf = true ∧ i.isEvent = false ∧ ((n = 4 ∧ encode i = [w0]) ∨ (n = 8 ∧ encode i = [w0, w1]))

/-! ## Steps -/

/-- No input, no register producer whose time has come and no stopped device stands before the thread at the head of the issue
group. -/
def Sys2Proof.Claim.HeadIssues (s : State) (c : Cur) (rest : List Cur) (b : Block) (t : Thread) : Prop :=
  s.powered = true ∧ s.halt = false ∧ 7 ≤ s.stage ∧ s.inbox = [] ∧ s.todo = c :: rest ∧ s.block? c.bid = some b
  ∧ b.thread? c.acc c.tid = some t ∧ b.issuesIn c.acc = true ∧ t.running = true ∧ t.wait = .ready ∧ dueProds s = []

/-- A step runs the decoded instruction (07 R156): the thread at the head of the issue group fetches the word at its PC, and the
word after it where the first is a prefix; where they decode to i the step is that of exec on i with what follows every action;
where they decode to nothing it is the illegal-instruction response (06 R136), and what follows every instruction follows. The
launch counts as begun (14 R292). -/
def Obligations.StepRunsDecodedInstruction : Prop :=
  ∀ (s s1 s2 : State) (c : Cur) (rest : List Cur) (b : Block) (t : Thread) (w1 w2 : BitVec 32),
    Claim.HeadIssues s c rest b t →
    fetchWord { s with todo := rest, cur := some c } b t c.acc t.pc t.pc = .word w1 s1 →
    (if w1.toNat / 2 ^ 27 = 0x1B then fetchWord s1 b t c.acc t.pc (t.pc + 4) = .word w2 s2 else s2 = s1 ∧ w2 = 0) →
    (∀ i n, decode w1 w2 = .ok (i, n) → step s = runOn i (noteFirst s2 b))
    ∧ (∀ e, decode w1 w2 = .error e → step s = .next (afterRun true s (illegalAt s2 b t)))

/-- A device that is up takes the oldest input first; between the threads of an issue group a register producer whose time has come
delivers (02 R40); with no input and no thread left in the issue group it runs the first event that is due; otherwise the next
group is picked, or, where this cycle's has been, the cycle goes by (the order is the model's choice, log 3). -/
def Sys2Proof.Claim.StepOrder : Prop :=
  ∀ s : State, s.powered = true → s.halt = false → 7 ≤ s.stage →
    (∀ e rest, s.inbox = e :: rest → step s = runOn e { s with inbox := rest })
    ∧ (s.inbox = [] → s.todo ≠ [] → ∀ e rest, dueProds s = e :: rest → step s = runOn e s)
    ∧ (s.inbox = [] → s.todo = [] →
      (∀ e, firstDue s dueSources = some e → step s = runOn e s)
      ∧ (firstDue s dueSources = none → step s = .next (if s.picked then tick s else pickGroup s)))

/-- The picker (01 R17): the threads it takes, 32 at most, are ready, of one quadrant of one core, of one context and slice,
and at one PC: that of a thread that is ready longest and, among those, at the lowest PC; it takes none only when none is
ready. -/
def Sys2Proof.Claim.PickerTakesLongestReady : Prop :=
  ∀ s : State, (readyThreads s = [] → (pickGroup s).todo = [])
    ∧ (readyThreads s ≠ [] → ∃ x ∈ readyThreads s,
      (∀ y ∈ readyThreads s, x.since < y.since ∨ (x.since = y.since ∧ x.pc.toNat ≤ y.pc.toNat))
      ∧ (pickGroup s).todo ≠ [] ∧ (pickGroup s).todo.length ≤ 32
      ∧ ∀ c ∈ (pickGroup s).todo, ∃ y ∈ readyThreads s, y.who = c ∧ y.pc = x.pc ∧ y.spot = x.spot)

/-- All of: StepOrder, PickerTakesLongestReady. -/
def Obligations.StepOrderAndPicker : Prop := Claim.StepOrder ∧ Claim.PickerTakesLongestReady

/-- A word of the opcode table that decodes is what the step after withFetchWord runs, on a state whose current thread exists. -/
def Obligations.PlacedWordRuns : Prop :=
  ∀ (nbits w : Nat) (i : Instr), nbits ≤ 64 → decodeTableWord nbits w = some i →
    ∃ s, (∃ h, current s (pfxLen i.pfx) = some h ∧ h.t.pc = 0x4000) ∧ step (State.reset.withFetchWord nbits w) = runOn i s

/-- No step stops the machine: with nothing but events in its inbox every state has a next state, and only events stand in that
one's inbox. -/
def Obligations.NoStepStops : Prop :=
  ∀ s : State, InputsOnly s → SafeStep s ∧ ∀ t, step s = .next t → InputsOnly t

/-- Every step keeps the canonical form of memory and of the atelier: addresses rising, no blank byte listed. -/
def Obligations.StepKeepsCanonicalMemory : Prop :=
  ∀ s t : State, Memory.wf s.mem = true → Memory.wf s.atelier = true → step s = .next t →
    Memory.wf t.mem = true ∧ Memory.wf t.atelier = true

/-- What reset leaves where the spec gives it (13 R276, R286, 19 R401, 02 R44 to R48): no partition but 0 is there, nothing runs,
every link is down, no queue is enabled; and the invariants hold there. Partition 0 holds the whole device and is ACTIVE, the
others are OFF and hold nothing (R277); each has 4 units of atelier slices a die and the duty split and its timeout as R279 has
them. That ISR and the positions of the rings read 0 is the model's choice (log 5). -/
def Obligations.ResetState : Prop :=
  let s := State.reset
  Memory.wf s.mem = true ∧ Memory.wf s.atelier = true ∧ InputsOnly s
  ∧ s.blocks = [] ∧ s.ctxs = [] ∧ s.insts = [] ∧ s.packets = [] ∧ s.launches = [] ∧ s.halt = false ∧ s.stage = 0
  ∧ (∀ p < 8, (s.part p).isr = 0 ∧ (s.part p).imask = 0 ∧ (s.part p).frhead = 0 ∧ (s.part p).frtail = 0
      ∧ (s.part p).frlost = 0 ∧ (∀ q < 64, ((s.part p).queue q).en = false ∧ ((s.part p).queue q).state = .disabled))
  ∧ (s.part 0).state = .active ∧ (s.part 0).pcfg0 = 0x804004FF ∧ (s.part 0).pcfg1 = 0x10000000
  ∧ (s.part 0).cfg = { dies := 0xFF, atl := 4, nq := 64, far := 128, cfirst := 0, ccount := 4096 }
  ∧ (∀ p, 1 ≤ p → p < 8 → (s.part p).state = .off ∧ (s.part p).pcfg0 = 0x400 ∧ (s.part p).pcfg1 = 0
      ∧ (s.part p).cfg = { dies := 0, atl := 4, nq := 0, far := 0, cfirst := 0, ccount := 0 })
  ∧ (∀ p < 8, (s.part p).cfgerr = 0 ∧ (s.part p).aret = 0 ∧ (s.part p).dsplit = 0 ∧ (s.part p).atmo = 2000)
  ∧ (∀ l < 16, (s.link l).en = false ∧ (s.link l).state = stateDown)
  ∧ ∀ f < 64, (s.filter f).en = false

/-! ## Frames -/

/-- i ran as an instruction that writes at most its rd: nothing but the issuing thread changes, and of that only rd with its full
bit and poison mark, its PC, loop levels and readiness. -/
def Sys2Proof.Claim.WritesOnlyRd (s : State) (h : Here) (rd : Reg) (i : Instr) : Prop :=
  ∀ t, exec i s = .next t → ∃ u, t = h.put s u ∧ SameBytes s t ∧ SameButRegs h.t u ∧ u.fpst = h.t.fpst ∧ OnlyRd rd h.t u
    ∧ (rd = 0 → u.regs = h.t.regs)

/-- The frame of the integer and packed instructions of one step: rd alone changes, with x0 nothing. -/
def Obligations.RegisterOnlyFrame : Prop :=
  (∀ (p : Option Pfx) (rd ra rb : Reg) (fea feb : Bool) (s : State) (h : Here),
    Runs s p [rd.toNat, ra.toNat, rb.toNat] ([ra, rb] ++ waitsFor p h rd) [fea, feb] h →
    ∀ i ∈ [Instr.add p rd ra rb fea feb, .sub p rd ra rb fea feb, .and p rd ra rb fea feb, .or p rd ra rb fea feb,
      .xor p rd ra rb fea feb, .andn p rd ra rb fea feb, .shl p rd ra rb fea feb, .shr p rd ra rb fea feb,
      .sra p rd ra rb fea feb, .rot p rd ra rb fea feb, .min p rd ra rb fea feb, .max p rd ra rb fea feb,
      .minn p rd ra rb fea feb, .maxn p rd ra rb fea feb, .slt p rd ra rb fea feb, .mul p rd ra rb fea feb,
      .mulh p rd ra rb fea feb, .mulhn p rd ra rb fea feb, .sltn p rd ra rb fea feb],
    Claim.WritesOnlyRd s h rd i)
  ∧ (∀ (p : Option Pfx) (rd ra : Reg) (fea : Bool) (n : BitVec 6) (imm : BitVec 12) (s : State) (h : Here),
    Runs s p [rd.toNat, ra.toNat] (ra :: waitsFor p h rd) [fea] h →
    ∀ i ∈ [Instr.clz p rd ra fea, .ctz p rd ra fea, .popc p rd ra fea, .brev p rd ra fea, .shli p rd ra n fea,
      .shri p rd ra n fea, .srai p rd ra n fea, .addi p rd ra fea imm, .andi p rd ra fea imm, .slti p rd ra fea imm,
      .sltni p rd ra fea imm],
    Claim.WritesOnlyRd s h rd i)
  ∧ ∀ (p : Option Pfx) (rd ra rb : Reg) (fea feb : Bool) (w : BitVec 2) (s : State) (h : Here),
    RunsHere s p [rd.toNat, ra.toNat, rb.toNat] [ra, rb, rd] h →
    ∀ i ∈ [Instr.sel p rd ra rb fea feb, .padd p rd ra rb fea feb w, .psub p rd ra rb fea feb w, .pmul p rd ra rb fea feb w,
      .pmin p rd ra rb fea feb w, .pmax p rd ra rb fea feb w, .pavg p rd ra rb fea feb w, .pcmpeq p rd ra rb fea feb w,
      .pcmplt p rd ra rb fea feb w],
    Claim.WritesOnlyRd s h rd i

/-! ## Events of blocks: teams, images, canvases, errors (01 R28, R29, chapters 12, 16, 17) -/

/-- Team formation (01 R28): once its slot is free, a pending target of 32 entries, or of some while no thread of the block can
but wait, or with an entry that has waited 512 cycles, becomes a team of the slot: each of its threads
runs at the target in that slot, marked as spawned, with its captured registers back in place, and its lane is the number of the
team's threads with a lower sr.tid; the entries leave the spawn area. -/
def Sys2Proof.Claim.TeamFormation : Prop :=
  (∀ (s : State) (blk slot : Nat) (b : Block), s.block? blk = some b →
    slotFree b slot = true →
    ((entriesFor b slot).length = 32 ∨ (entriesFor b slot ≠ [] ∧ ∀ t ∈ b.threads, t.running = true → formWait t.wait = true) →
      exec (.teamFormation blk slot) s = .next (s.onBlock blk (formTeam s.cycle slot)))
    ∧ ((∃ e ∈ entriesFor b slot, e.parked + 512 ≤ b.clk s) →
      exec (.teamFormTimeout blk slot) s = .next (s.onBlock blk (formTeam s.cycle slot))))
  ∧ ∀ (b : Block) (since slot : Nat) (e : SpawnEntry) (t : Thread),
    let es := entriesFor b slot
    (es.map (·.tid)).Nodup → e ∈ es → t ∈ b.threads → t.tid = e.tid →
    (∀ x ∈ (formTeam since slot b).spawn, x.tid ≠ e.tid)
    ∧ ∃ u ∈ (formTeam since slot b).threads, u.tid = t.tid ∧ u.life = .running ∧ u.slot = slot ∧ u.spawned = true
      ∧ u.pc = e.target ∧ u.lane = (es.filter fun x => decide (x.tid < e.tid)).length
      ∧ ∀ i : Fin 256, t.wb + e.first ≤ i.val → i.val < t.wb + e.first + e.count →
          u.regs[i] = e.regs.getD (i.val - t.wb - e.first) 0

/-- The limit of RECONV (01 R29): a running member whose limit has expired leaves with 0 in its rd, behind the instruction. -/
def Sys2Proof.Claim.ReconvLimit : Prop :=
  ∀ (s : State) (blk tid : Nat) (b : Block) (t : Thread) (r : ReconvWait), s.block? blk = some b →
    b.thread? false tid = some t → t.running = true → t.reconv = some r → r.issued + r.limit ≤ b.clk s →
    exec (.reconvTimeout blk tid) s
      = .next (s.setThread blk false { (t.writeX r.rd 0).advance 4 with reconv := none })

/-- A filled instruction line (12 R260) is the newest of its set, of which four are kept; other sets stay. -/
def Sys2Proof.Claim.LineFill : Prop :=
  ∀ (s : State) (die core ctx line : Nat),
    let l : ICLine := { die := die, core := core, ctx := ctx, line := line }
    let same := fun (x : ICLine) => x.die == die && x.core == core && x.line % 128 == line % 128
    (∃ f ∈ s.fills, f.line = l) → s.icache.Nodup →
    ∃ c, exec (.icacheFillComplete die core ctx line) s = .next { s with fills := s.fills.filter (·.line != l), icache := c }
      ∧ c.head? = some l ∧ (c.filter same).length ≤ 4
      ∧ (∀ x ∈ s.icache, same x = false → x ∈ c) ∧ ∀ x ∈ c, x = l ∨ x ∈ s.icache

/-- An image that was being written is complete, and it alone stays (17 R355). -/
def Sys2Proof.Claim.ImageComplete : Prop :=
  ∀ (s : State) (blk : Nat) (p : Pentimento), (s.pents.filter fun x => x.bid == blk).getLast? = some p →
    exec (.pentimentoComplete blk) s
      = .next { s with pents := (s.pents.filter fun x => x.bid != blk) ++ [{ p with complete := true }] }

/-- A capture begins (16 R345, R346, R348): each block of the unit goes its own way, unless all stand in one image already, which
then is their canvas. A running block with uncommitted tiles gets a commit window, another stops at once; a suspended one is to
stand as its image. A window closes with the block stopped, going back to its label if tiles are still uncommitted; the stopped
block then waits to be written, unless its current matrix row met a fault: then the fault's image is to stand as its canvas. -/
def Sys2Proof.Claim.CaptureBegins : Prop :=
  (∀ (s : State) (b : Block), s.block? b.bid = some b →
    (imageOf b = none → exec (.easelCapture b.bid) s = .next ((unitOf s b).foldl captureOne s))
    ∧ ∀ a, imageOf b = some a →
      ((∀ x ∈ unitOf s b, imageOf x = some a) → exec (.easelCapture b.bid) s = .next (toCaptured s (unitOf s b) a))
      ∧ ((∃ x ∈ unitOf s b, imageOf x ≠ some a) → exec (.easelCapture b.bid) s = .next ((unitOf s b).foldl captureOne s)))
  ∧ (∀ (s : State) (b : Block) (a : Word), (b.state = .running ∧ a = 0) ∨ (∃ e, b.state = .asked e a) →
    (uncommitted b = true → captureOne s b = s.onBlock b.bid fun x => { x with state := .window s.time a, issued := [] })
    ∧ (uncommitted b = false → captureOne s b = haltBlock s b.bid a false false))
  ∧ (∀ (s : State) (b : Block) (r : Bool), b.state = .suspended r none →
    captureOne s b = s.onBlock b.bid fun x => { x with wanted := true })
  ∧ (∀ (s : State) (b : Block) (since : Nat) (a : Word), s.block? b.bid = some b → b.state = .window since a →
    exec (.commitWindowClose b.bid) s = .next (haltBlock s b.bid a (uncommitted b) false))
  ∧ ∀ (s t : State) (b : Block) (a : Word) (rew keep : Bool), haltBlock s b.bid a rew keep = t →
    ∀ x, t.block? b.bid = some x → (faultStopped x = true ∧ x.wanted = true)
      ∨ ((∃ r, x.state = .writing a r) ∧ x.arrivals = [] ∧ ∀ y ∈ x.threads, y.wait = .ready ∧ y.reconv = none)

/-- A unit whose blocks have stopped is written as a canvas where one fits and leaves the core (16 R345): of KIND 2 where a block
still has uncommitted tiles, else of KIND 1; where none fits it is relaunched if its core is too small for it, else it runs on. A
canvas of which every unit of one grid fits is placed and freed; one that cannot be read or fails its checks ends what waits for
it (16 R349, R350). -/
def Sys2Proof.Claim.CanvasWrittenAndRestored : Prop :=
  (∀ (s : State) (b : Block) (rest : List Block), s.block? b.bid = some b →
    unitOf s b = b :: rest → suspending s b.ctx = false → (b :: rest).all (stopped s) = true → b.state ≠ .ended →
    let bytes := encCanvas s (if (b :: rest).any uncommitted then 2 else 1) b.ctx (recorded (b :: rest)) false
    let wish := (((b :: rest).map wishOf).find? (· != 0)).getD 0
    (∀ spot, canvasSpot s b.ctx bytes.length wish = some spot →
      exec (.canvasWriteComplete b.bid) s = .next (toCaptured (putCanvas s b.ctx spot bytes) (b :: rest) spot.1))
    ∧ (canvasSpot s b.ctx bytes.length wish = none → exec (.canvasWriteComplete b.bid) s = .next
      (if (b :: rest).any fun x => overfull s x.die x.core then relaunchBlocks s (b :: rest)
       else (b :: rest).foldl (fun s x => if x.state = .ended then s else resumeBlock s x.bid) s)))
  ∧ (∀ (s : State) (b : Block) (c : Ctx), s.block? b.bid = some b → suspending s b.ctx = true → s.ctx? b.ctx = some c →
    exec (.canvasWriteComplete b.bid) s = .next (trySuspend s c none))
  ∧ ∀ (s : State) (c : Captured),
    (s.captured.filter fun x => x.part == c.part && x.ctx == c.ctx && x.addr == c.addr) = [c] →
    (c.blocks.any (·.fresh) = true → exec (.canvasRestore c.part c.ctx c.addr) s = .next (plantFresh s c))
    ∧ (c.blocks.any (·.fresh) = false →
      (∀ f, canvasOf s c = .inr f → exec (.canvasRestore c.part c.ctx c.addr) s = .next (failRestore s c [] 8))
      ∧ ∀ bs s0, canvasOf s c = .inl (bs, s0) →
        let ims := (canvasImages s c.part c.ctx bs c.blocks).getD []
        (∀ st, restoreErr s c.part c.ctx bs c.blocks = some st →
          exec (.canvasRestore c.part c.ctx c.addr) s = .next (failRestore s c ims st))
        ∧ (restoreErr s c.part c.ctx bs c.blocks = none →
          let us := waitingUnits c ims
          let s1 := writeSections s0 c bs
          ∀ l : Launch, (us.map (·.2.1)).eraseDups = [l.lid] → (s1.launches.find? fun x => x.lid == l.lid) = some l →
          let got := plantLaunch s1 bs l (us.filter fun u => u.2.1 == l.lid)
          let left : Captured := { takeBlocks c got.2 with sections := false, graph := none }
          (got.2 = [] → exec (.canvasRestore c.part c.ctx c.addr) s = .next s)
          ∧ (got.2 ≠ [] → exec (.canvasRestore c.part c.ctx c.addr) s = .next (doneCanvas (setCaptured got.1 left) left))))

/-- The compare of twins (17 R363, R364): equal signatures let the covered stores go and the blocks on, once the faults that the
stores would meet are served; the first difference at a point rolls both back, the next one there faults the context, with
REDUND and a record of cause 12. -/
def Sys2Proof.Claim.TwinsCompare : Prop :=
  ∀ (s : State) (p q : Block) (n key : Nat) (cs : List (Nat × Nat)), s.block? p.bid = some p → p.twin = some n →
    s.block? n = some q → comparable p q = some (key, cs) →
    let run := exec (.redundantCompare p.bid) s
    let ws := covered p.held cs
    (blockSig p cs = blockSig q cs → ws = [] →
      run = .next ((s.onBlock p.bid (matched key cs)).onBlock q.bid (matched key cs)))
    ∧ (blockSig p cs = blockSig q cs → ws ≠ [] → heldWait s p ws = none →
      run = .next (clusterBoundary (clusterBoundary
        (((releaseStores s p ws).onBlock p.bid (matched key cs)).onBlock q.bid (matched key cs)) p) q))
    ∧ (blockSig p cs = blockSig q cs → ∀ f, heldWait s p ws = some f →
      run = .next (askService s p.part p.ctx (.work p.bid) 2 f))
    ∧ (blockSig p cs ≠ blockSig q cs → comparePoint p key ∉ p.mismatched →
      run = .next (rollback (rollback ((s.onBlock p.bid (differed key)).onBlock q.bid (differed key)) p.bid true) q.bid true))
    ∧ (blockSig p cs ≠ blockSig q cs → comparePoint p key ∈ p.mismatched → ∃ rcd,
      run = .next (postRecord (stick (contextFault s p.ctx) p.ctx stickRedund) p.part rcd) ∧ rcd.take 4 = leBytes 4 12)

/-- A bank to be retired drains, once the device decides it (17 R366, R367), or its retirement is put to the host, once; at
cut-over it counts among the retired ones and in the REPSTAT of the partition that holds its die, and the blocks that no longer fit
leave the core, none where all fit; a slice leaves service. -/
def Sys2Proof.Claim.BankRetirement : Prop :=
  ∀ (s : State) (arr : BankArray) (die core bank : Nat),
    let d : Drain := { arr := arr, die := die, core := core, bank := bank }
    let run := exec (.bankRetire arr die core bank) s
    let s0 : State := { s with repairs := s.repairs.filter (· != d) }
    d.exists' = true → retiredBank s d = false →
    (s.drains.contains d = false → repairDuty s die (repairRef d) = false → run = .next { s0 with drains := s.drains ++ [d] })
    ∧ (s.drains.contains d = false → ∀ p, partOfDie s die = some p →
      (askedHost s p 3 (repairRef d) = true → run = .next s0)
      ∧ (hostAssisted s p 3 = true → askedHost s p 3 (repairRef d) = false →
        ∃ args, run = .next (postAssist s0 p 3 0 (repairRef d) args).1
          ∧ (core < 65536 → args = leBytes 1 (arrayCode arr) ++ leBytes 1 die ++ leBytes 2 core ++ leBytes 2 bank)))
    ∧ (s.drains.contains d = true →
      let s1 : State := { s0 with drains := s.drains.filter (· != d) }
      (arr = .slice → exec (.bankCutover arr die core bank) s = .next (retireSlice s1 die bank))
      ∧ (arr ≠ .slice →
        let s2 := setCoreStat s1 ((coreStat s die core).lose bank arr)
        let s3 := match partOfDie s die with
          | some p => s2.setPart p ((s.part p).countBank arr)
          | none => s2
        exec (.bankCutover arr die core bank) s = .next (shed die core s.blocks.length s3)
        ∧ (tooFull s3 die core = false → exec (.bankCutover arr die core bank) s = .next s3)))

/-- Errors (17 R353, R356, R366): an uncorrectable one in memory or in an atelier slice poisons bytes of its 8-byte unit, one in a
page-table entry the entry; one in a clean line and one in an image lose no data, one in a block's own storage rolls it back. The
scrubber counts a corrected error of a bank, and marks an uncorrectable one. -/
def Sys2Proof.Claim.ErrorsCaught : Prop :=
  ∀ (s : State),
    (∀ pa len bank, pa < hostStart →
      let new := newlyPoisoned s.poison pa len
      let t : State := { s with poison := s.poison ++ new, marks := s.marks.filter fun m => m.atelier || !new.contains m.addr }
      exec (.uncorrectableError (.memory pa len bank)) s = .next (wantRepair t bank)
      ∧ exec (.scrubberPass (.memory pa len bank) false) s = .next (mark t false pa len bank)
      ∧ ∀ x, pa ≤ x → x < pa + len → x / 8 = pa / 8 →
          { atelier := false, addr := x, bank := bank : Mark } ∈ (mark t false pa len bank).marks)
    ∧ (∀ l pa len x, x ∈ newlyPoisoned l pa len ↔ pa ≤ x ∧ x < pa + len ∧ x / 8 = pa / 8 ∧ x ∉ l)
    ∧ (∀ idx len, s.atlSlices.contains (idx / 65536 / 1024, idx / 65536 % 1024) = true →
      let new := newlyPoisoned s.atelierPoison idx len
      let t : State := { s with
        atelierPoison := s.atelierPoison ++ new, marks := s.marks.filter fun m => !(m.atelier && new.contains m.addr) }
      exec (.uncorrectableError (.atelier idx len)) s = .next (wantRepair t (sliceBank idx))
      ∧ exec (.scrubberPass (.atelier idx len) false) s = .next (mark t true idx len (sliceBank idx)))
    ∧ (∀ pa, pa / 8 * 8 < hostStart →
      let new := newlyPoisoned s.poison (pa / 8 * 8) 8
      let t : State := { s with poison := s.poison ++ new, marks := s.marks.filter fun m => m.atelier || !new.contains m.addr }
      exec (.uncorrectableError (.pageTable pa)) s = .next t ∧ exec (.scrubberPass (.pageTable pa) false) s = .next t)
    ∧ (∀ die core n, exec (.uncorrectableError (.cleanLine die core none)) s = .next s
      ∧ exec (.uncorrectableError (.cleanLine die core (some n))) s
        = .next (wantRetire s { arr := .l1, die := die, core := core, bank := n }))
    ∧ (∀ blk, exec (.uncorrectableError (.pentimento blk)) s
        = .next { s with pents := s.pents.filter fun p => !(p.bid == blk && p.complete) })
    ∧ (∀ b arr bank, s.block? b.bid = some b → b.state ≠ .ended → resident b = true →
      (privateArray arr = true → exec (.uncorrectableError (.block b.bid arr bank)) s = .next (errorInBlock s b arr bank))
      ∧ exec (.uncorrectableError (.ownStore b.bid)) s = .next (rollbackFor s b))
    ∧ ∀ site, (siteBank s site = none → exec (.scrubberPass site true) s = .next s)
      ∧ ∀ d, siteBank s site = some d → exec (.scrubberPass site true) s = .next (countCorrected s d)

/-- The repair that a consumed error asks for (17 R366, R369): a bank of a cache, a slice or a core's own storage is to be retired,
a bank of near DRAM to be removed; a fault at bytes that the scrubber marked asks for each of their banks and takes the marks. -/
def Sys2Proof.Claim.RepairsAsked : Prop :=
  (∀ (s : State) (m : MemBank),
    (∀ die bank, m = .near die bank → (die, bank) ∈ (wantRepair s m).dramWant)
    ∧ ∀ d, bankDrain m = some d → d.exists' = true → retiredBank s d = false → s.drains.contains d = false →
      d ∈ (wantRepair s m).repairs)
  ∧ ∀ (s : State) (v : View) (f : AccFault) (m : Mark), m ∈ consumed s v f →
    m ∉ (consume s v f).marks
    ∧ (∀ die bank, m.bank = .near die bank → (die, bank) ∈ (consume s v f).dramWant)
    ∧ ∀ d, bankDrain m.bank = some d → d.exists' = true → retiredBank s d = false → s.drains.contains d = false →
      d ∈ (consume s v f).repairs

/-- A lost core (17 R359): it is marked, its instruction lines are gone and the partition that holds its die counts it; then each
cluster with a member on it goes back to its image and leaves. A core that is no core, or was lost before, changes nothing. -/
def Sys2Proof.Claim.CoreGoesDark : Prop :=
  ∀ (s : State) (die core : Nat),
    (Config.dies ≤ die ∨ 96 ≤ core ∨ lostCore s die core = true → exec (.coreLost die core) s = .next s)
    ∧ (die < Config.dies → core < 96 → lostCore s die core = false →
      let there := ((s.blocks.filter fun b => b.die == die && b.core == core && resident b && b.state != .ended).map
        (·.cluster)).eraseDups
      ∃ t, exec (.coreLost die core) s = .next (there.foldl loseCluster t) ∧ lostCore t die core = true
        ∧ (∀ l, l ∈ t.icache ↔ l ∈ s.icache ∧ ¬(l.die = die ∧ l.core = core)) ∧ t.blocks = s.blocks ∧ t.mem = s.mem
        ∧ (∀ p, partOfDie s die = some p → (t.part p).coresLost = min 255 ((s.part p).coresLost + 1))
        ∧ ∀ p < 8, partOfDie s die ≠ some p → t.part p = s.part p)

/-- A near-DRAM bank is removed once the REPAIR function decides it (17 R369): the top 768 MiB of what the die still backed are
emptied and no longer there, the REPSTAT of the die's partition counts the bank and re-striping begins at watermark 0; each region
moved advances the watermark, until all are done (R370), and poisons what of the bank could not be read of it. While a re-striping
of the partition is under way a removal waits (the model's choice, log 22). -/
def Sys2Proof.Claim.DramShrinks : Prop :=
  (∀ (s : State) (die bank p : Nat), die < Config.dies → bank < 64 → s.deadDram.contains (die, bank) = false →
    partOfDie s die = some p →
    let wanted : State := { s with dramWant := s.dramWant.filter (· != (die, bank)) }
    ((s.part p).mig = true → exec (.dramBankRemove die bank) s = .next (wantDram s die bank))
    ∧ ((s.part p).mig = false → hostAssisted s p 3 = true → askedHost s p 3 (dramRef die bank) = false → ∃ args,
      exec (.dramBankRemove die bank) s = .next (postAssist wanted p 3 0 (dramRef die bank) args).1)
    ∧ ((s.part p).mig = false → hostDuty s p 3 (dramRef die bank) = false →
      let lo := (die + 1) * Config.nearBytes - unbacked s die - 805306368
      let hi := (die + 1) * Config.nearBytes - unbacked s die
      ∃ t, exec (.dramBankRemove die bank) s = .next t ∧ t.deadDram = s.deadDram ++ [(die, bank)]
        ∧ unbacked t die = unbacked s die + 805306368
        ∧ (t.part p).mig = true ∧ (t.part p).migWm = 0 ∧ (t.part p).migDie = die
        ∧ (t.part p).dramb = min 255 ((s.part p).dramb + 1)
        ∧ (∀ a, lo ≤ a → a < hi → cellsGet t.mem a = Config.blankByte) ∧ ∀ a ∈ t.poison, a < lo ∨ hi ≤ a))
  ∧ (∀ (s : State) (die p : Nat), let x := s.part p
    partOfDie s die = some p → x.mig = true → x.migDie = die →
    let dead := s.deadDram.filter fun d => d.1 == die
    let at' := die * Config.nearBytes + 65536 * x.migWm
    let s1 := poisonLost s die ((dead.getLast?.map (·.2)).getD 0) (dead.length - 1) at' (at' + 65536)
    (x.migWm + 1 < regionsOf s die → exec (.regionMigrate die) s
      = .next (s1.setPart p { x with migWm := x.migWm + 1, migAt := s.time }))
    ∧ (regionsOf s die ≤ x.migWm + 1 → exec (.regionMigrate die) s
      = .next (s1.setPart p { x with mig := false, migWm := x.migWm + 1 })))
  ∧ ∀ (s : State) (die bank hash lo hi : Nat), let t := poisonLost s die bank hash lo hi
    t.mem = s.mem ∧ t.parts = s.parts
    ∧ ∀ a, a ∈ t.poison ↔ a ∈ s.poison ∨ (a ∈ Config.unreadable s.freeCount ∧ lo ≤ a ∧ a < hi ∧ a < hostStart
        ∧ Config.dramBank die hash (a % Config.nearBytes / 65536) % 64 = bank)

/-- Every event completes: whatever the state, it answers a next state (an event that finds nothing to do answers the state as it
is). -/
def Sys2Proof.Claim.EventsComplete : Prop :=
  ∀ (i : Instr) (s : State), i.isEvent = true → ∃ t, exec i s = .next t

/-- Events of teams, images, canvases, twins, errors and repairs. On the state and operands each part names, exec answers the
next state it gives: teamFormation and teamFormTimeout (01 R28), reconvTimeout (01 R29), icacheFillComplete (12 R260),
pentimentoComplete (17 R355), easelCapture and commitWindowClose (16 R345, R346), canvasWriteComplete and canvasRestore (16
R345, R349), redundantCompare (17 R363), bankRetire and bankCutover (17 R366, R367), uncorrectableError and scrubberPass (17
R353, R356), coreLost (17 R359), dramBankRemove and regionMigrate (17 R369, R370). And every event, of these and of all
others, completes on every state. The model's own choices in them: the numbers of banks and the REPAIR requests (log 22), the
images of twins (log 16), what a canvas does not record (log 18), and what a compare covers (logs 82, 86, 87). -/
def Obligations.BlockAndReliabilityEvents : Prop :=
  Claim.TeamFormation ∧ Claim.ReconvLimit ∧ Claim.LineFill ∧ Claim.ImageComplete ∧ Claim.CaptureBegins
  ∧ Claim.CanvasWrittenAndRestored ∧ Claim.TwinsCompare ∧ Claim.BankRetirement ∧ Claim.ErrorsCaught ∧ Claim.RepairsAsked
  ∧ Claim.CoreGoesDark ∧ Claim.DramShrinks ∧ Claim.EventsComplete

/-! ## Events of faults, assists and commissions (13 R279, R280, 15 R319 to R324, 14 R308) -/

/-- What a walk meets at an entry that is not present (15 R314): above level 1 what DSPLIT.PF says of it; at level 1, by SRC, a
page that can be supplied, no supplier, or a reserved form. -/
def Sys2Proof.Claim.NonPresentEntry : Prop :=
  ∀ (pf : Bool) (level : Nat) (e : Word),
    let src := e.toNat / 2 % 8
    let zeroForm := e.toNat / 2 ^ 9 = 0 ∧ e.toNat / 2 ^ 7 % 4 ≠ 3
    (level ≠ 1 → absent pf level e = if pf then .serviceable level e else .program codeUnmapped)
    ∧ (src = 0 → absent pf 1 e = if pf then .serviceable 1 e else .program codeUnmapped)
    ∧ (src = 1 ∨ src = 2 ∨ (src = 3 ∧ zeroForm) → absent pf 1 e = .serviceable 1 e)
    ∧ (4 ≤ src ∨ (src = 3 ∧ ¬zeroForm) → absent pf 1 e = .program codeAttribute)

/-- Service of translation faults (15 R314, R318, R321, R324): at an entry of level 1 that is as it was, a zero page (SRC 3) is
supplied from the pool and the fault served, a canvas's page (SRC 2) and an object's (SRC 1) from where they lie; where the pool has
no page left the fault is refused (the model's choice, log 19); where a walk no longer meets the entry the asker walks again; where
faults are the host's, it is asked. -/
def Sys2Proof.Claim.FaultService : Prop :=
  ∀ (s : State) (req : Nat) (f : FaultReq), (s.faults.find? fun x => x.id == req && !x.served && !x.refused) = some f →
    let src := f.entry.toNat / 2 % 8
    let run := exec (.pageFaultService req) s
    (f.host = false → stillMissing s f = false → run = .next (servedFault s f))
    ∧ (f.host = false → stillMissing s f = true → f.level = 1 → src = 3 →
        f.entry.toNat / 2 ^ 9 = 0 → f.entry.toNat / 2 ^ 7 % 4 ≠ 3 →
      (takePage s f.part = none → run = .next (refusedFault s f false))
      ∧ ∀ pa t, takePage s f.part = some (pa, t) →
        run = .next (servedFault (writeEntry (fillPage t pa []) f.ctx (f.va.toNat / 4096 * 4096)
          (3 + f.entry.toNat / 2 ^ 4 % 8 * 2 ^ 2 + f.entry.toNat / 2 ^ 7 % 4 * 2 ^ 6 + pa)) f))
    ∧ (f.host = false → stillMissing s f = true → f.level = 1 → src = 2 → run = .next (supplyCopy s f))
    ∧ (f.host = false → stillMissing s f = true → f.level = 1 → src = 1 → run = .next ((supplyCode s f).getD s))
    ∧ (f.host = true → f.posted = false →
      let t := (postAssist s f.part 0 f.ctx f.id
        (leBytes 8 f.va.toNat ++ leBytes 1 f.access ++ leBytes 1 f.level ++ zeros 6 ++ leBytes 8 f.entry.toNat)).1
      run = .next { t with faults := t.faults.map fun x => if x.id = req then { x with posted := true } else x })

/-- A raised request (13 R279, R280): it is decided by the host and has the time to answer of now; it stands in the ring at the head,
with its function, context, number and arguments, and ISR.ASSIST is set, unless the ring is full: then it waits, and enters when the
host has taken one. -/
def Sys2Proof.Claim.RequestRaised : Prop :=
  ∀ (s : State) (part fn ctx ref : Nat) (args : List Byte),
    let p := s.part part
    let r := postAssist s part fn ctx ref args
    let a : Assist := { seq := p.asSeq, fn := fn, ctx := ctx, args := args, ref := ref, posted := s.time,
                        limit := micros (max 1 p.atmo), waiting := true }
    r.2 = p.asSeq ∧ (r.1.part part).asSeq = (p.asSeq + 1) % 2 ^ 32
    ∧ ((p.asReqHead - p.asReqTail).toNat = 4096 → (r.1.part part).assists = p.assists ++ [a] ∧ r.1.mem = s.mem)
    ∧ ((p.asReqHead - p.asReqTail).toNat ≠ 4096 → (∀ x ∈ p.assists, x.waiting = false ∧ x.seq ≠ p.asSeq) →
      (r.1.part part).assists = p.assists ++ [{ a with waiting := false }] ∧ (r.1.part part).asReqHead = p.asReqHead + 1
      ∧ (r.1.part part).isr.getLsbD 1 = true
      ∧ r.1.mem = cellsPut s.mem (p.asbase.toNat + 64 * (p.asReqHead.toNat % 4096))
          (leBytes 2 fn ++ leBytes 2 ctx ++ leBytes 4 p.asSeq ++ (args ++ List.replicate 56 0).take 56))

/-- A suspended block with its cluster (15 R323): once the faults are served its blocks run on where they stand, and the requests
and an image are gone; where the reservation was released, the image returns to the dispatch order, and a twin with its pair, which
is captured now (the model's choice, log 16); a capture that waited for it begins. After 50 µs of service the reservation is released, if the image is written (16 R344). -/
def Sys2Proof.Claim.SuspensionEnds : Prop :=
  ∀ (s : State) (b : Block), s.block? b.bid = some b →
    let s1 : State := { s with faults := s.faults.filter fun f => !((unitFaults s b).map (·.id)).contains f.id }
    let runOn := fun (s : State) => (faultUnit s1 b).foldl (fun s x => resumeBlock s x.bid) s
    let still := (unitFaults s b).all (·.served) = true ∧ ∀ x ∈ faultUnit s b, ∃ r i, x.state = .suspended r i
    (∀ a, still → b.state = .suspended false (some a) →
      (b.twin = none → exec (.faultServiceResume b.bid) s = .next (toCaptured s1 (faultUnit s b) a))
      ∧ (b.twin ≠ none → exec (.faultServiceResume b.bid) s = .next (beginCapture s1 b)))
    ∧ (∀ r, still → b.state = .suspended r none → (∀ x ∈ faultUnit s b, x.wanted = false) →
      exec (.faultServiceResume b.bid) s = .next (runOn s1))
    ∧ (∀ a, still → b.state = .suspended true (some a) → a ≠ 0 → (∀ x ∈ faultUnit s b, x.wanted = false) →
      exec (.faultServiceResume b.bid) s = .next (runOn (freeCanvas s1 b.ctx a)))
    ∧ (∀ r, still → b.state = .suspended r none → (∃ x ∈ faultUnit s b, x.wanted = true) →
      ∀ y, (runOn s1).block? b.bid = some y → exec (.faultServiceResume b.bid) s = .next (beginCapture (runOn s1) y))
    ∧ (∀ r a, a ≠ 0 → b.state = .suspended r (some a) → serviceLong s b = true →
      exec (.faultReservationTimeout b.bid) s = .next ((faultUnit s b).foldl (fun s x => s.onBlock x.bid fun y =>
        match y.state with
        | .suspended _ i => { y with state := .suspended false i }
        | _ => y) s))

/-- TINVC (15 R319, R320): a write while a shoot-down is under way is ignored; scope 3 and a context outside the partition are
rejected; without GO only the fields change; any other shoot-down is under way until what used the old entries has completed, and
the notify dwords of the partition are then looked up anew. While the partition is RESETTING or OFF nothing is written (13 R287,
18 R372). -/
def Sys2Proof.Claim.ShootDowns : Prop :=
  ∀ (s : State) (part : Nat) (v : Word),
    let p := s.part part
    let q : Part := { p with
      tinvCtx := v.toNat % 2 ^ 12, tinvScope := v.toNat / 2 ^ 12 % 4, tinvSize := v.toNat / 2 ^ 14 % 4 }
    (p.tinvDone = false ∨ barOpen s part = false → exec (.shootdown part v) s = .next s)
    ∧ (p.tinvDone = true → barOpen s part = true → v.getLsbD 16 = false →
      exec (.shootdown part v) s = .next (s.setPart part q))
    ∧ (p.tinvDone = true → barOpen s part = true → v.getLsbD 16 = true →
      (q.tinvScope = 3 ∨ inPartition s part q.tinvCtx = false →
        exec (.shootdown part v) s = .next (s.setPart part { q with tinvRej := true }))
      ∧ (q.tinvScope ≠ 3 → inPartition s part q.tinvCtx = true →
        exec (.shootdown part v) s = .next (s.setPart part { q with tinvRej := false, tinvDone := false })))
    ∧ (p.tinvDone = false → drained s part = true →
      exec (.shootdownComplete part) s = .next { s.setPart part { p with tinvDone := true } with
        watch := s.watch.filter fun w => w.part != part,
        unarmed := s.unarmed ++ (s.watch.filter fun w => w.part == part).map fun w => (w.part, w.q) })

/-- Assists (13 R279, R280): a response is taken from the ring, where the host wrote it, and answers its request, if that is open
(where a response holds its number is the model's choice, log 93); a request without one in the time it was given is answered as refused, with ISR.ASSIST and, but for REPAIR, the context's ASSIST
bit. -/
def Sys2Proof.Claim.AssistAnswers : Prop :=
  (∀ (s : State) (part seq : Nat) (accept : Bool) (addr : Word), barOpen s part = true →
    ((s.part part).asRespTail ≠ (s.part part).asRespHead →
      exec (.assistResponse part seq accept addr) s = .next (takeAnswer s part))
    ∧ ((s.part part).asRespTail = (s.part part).asRespHead →
      exec (.assistResponse part seq accept addr) s = .next (takeAnswer (putResponse s part seq accept addr) part)
      ∧ (Memory.wf s.mem = true → seq < 2 ^ 32 →
        responseAt (putResponse s part seq accept addr) part = (seq, accept, addr))))
  ∧ (∀ (s : State) (part : Nat), let r := responseAt s part
    let s1 := s.setPart part { s.part part with asRespTail := (s.part part).asRespTail + 1 }
    ((s.part part).assists.find? (fun x => x.seq == r.1 && !x.waiting) = none → takeAnswer s part = s1)
    ∧ ∀ a, (s.part part).assists.find? (fun x => x.seq == r.1 && !x.waiting) = some a →
      takeAnswer s part = answerAssist (dropAssist s1 part r.1) part a r.2.1 r.2.2)
  ∧ ∀ (s : State) (part seq : Nat) (a : Assist), (s.part part).assists.find? (fun x => x.seq == seq) = some a →
    a.waiting = false → a.posted + a.limit ≤ s.time →
    let s1 := isrSet (dropAssist s part seq) part 1
    exec (.assistTimeout part seq) s
      = .next (answerAssist (if a.fn = 3 then s1 else stick s1 a.ctx stickAssist) part a false 0)

/-- The commission a slice hands out next is placed (14 R308). -/
def Sys2Proof.Claim.CommissionPlaced : Prop :=
  ∀ (s t : State) (die slice : Nat) (c : Commission), sliceHead s die slice = some c → placeCommission s c = some t →
    exec (.commissionLaunch die slice) s = .next t

/-- Events of faults, shoot-downs, assists and commissions. On the state and operands each part names, exec answers the next
state it gives: pageFaultService (15 R324), faultServiceResume and faultReservationTimeout (15 R323), shootdown and
shootdownComplete (15 R319, R320), assistResponse and assistTimeout (13 R280), commissionLaunch (14 R308). -/
def Obligations.FaultAndAssistEvents : Prop :=
  Claim.NonPresentEntry ∧ Claim.FaultService ∧ Claim.RequestRaised ∧ Claim.SuspensionEnds ∧ Claim.ShootDowns
  ∧ Claim.AssistAnswers ∧ Claim.CommissionPlaced

/-! ## Events of queues and packets (chapter 14) -/

/-- Queue controls (14 R288 to R290): a notify write shows its tail to the device, and settles whether the host decides about the
queue's mapping (13 R279); an enabled queue starts empty and unmapped, with a handle for its ring (19 R399; which handle is the
model's choice, log 23), a DEADLINE queue mapped at once, one of a context that is FREE or FAULTED stopped with ERR 4, and the 17th
DEADLINE queue is turned away with ERR 1; a queue is mapped while fewer than 32 are, or the host is asked, once; EN 0 disables; a
stopped queue restarts where it stood; skip passes the packet that stopped it, completing it with ABORTED or INVALID. -/
def Sys2Proof.Claim.QueueControls : Prop :=
  ∀ (s : State) (part q : Nat) (v : Word),
    let x := (s.part part).queue q
    let x1 := writeQctl s part x v.toNat
    let there := queueThere s part q = true ∧ barOpen s part = true
    (x.en = true → ∃ m, exec (.notifyWrite part q v) s = .next (noteTail m part q (v.toNat % 65536))
        ∧ m = (if s.snooped.contains (part, q) = true ∧ notifyDword s part q = some v then s
            else (storeBytes s (ctxView part x.ctx) x.naddr.toNat (leBytes 8 v.toNat)).1)
        ∧ let y := ((noteTail m part q (v.toNat % 65536)).part part).queue q
          y.notified = true ∧ y.byHost = (if x.notified then x.byHost else hostAssisted s part 1) ∧ y.tail = v.toNat % 65536 % x.ring ∧ y.head = x.head)
    ∧ (there → x.en = true → exec (.queueEnable part q v) s = .next (setQueue s part q x1))
    ∧ (there → x.en = false → s.closing.contains (part, q) = false →
      let full := 16 ≤ ((s.part part).queues.toList.filter fun y => y.en && y.cls == 0).length
      (x1.cls = 0 → full → exec (.queueEnable part q v) s = .next (setQueue s part q { x1 with err := 1 }))
      ∧ (¬(x1.cls = 0 ∧ full) →
        let dead := (s.ctx? x1.ctx).all fun c => c.state == .faulted
        let y : Queue := { x1 with
          en := true, err := if dead then 4 else 0, head := 0, tail := 0, notified := x1.cls == 0, byHost := false, marks := [], spent := 0,
          state := if dead then .stopped else .unmapped }
        let r := openRing s part q y
        let s1 : State := { setQueue r.1 part q r.2 with unarmed := s.unarmed ++ [(part, q)] }
        exec (.queueEnable part q v) s = .next (if x1.cls = 0 ∧ dead = false then mapQueue s1 part q else s1)))
    ∧ (there → x.en = false → s.closing.contains (part, q) = true →
      exec (.queueEnable part q v) s = .next (setQueue s part q { x with weight := x1.weight }))
    ∧ (∀ y : Queue, let r := openRing s part q y
      ∃ g, r.2 = { y with gen := g } ∧ { r.1 with caps := s.caps } = s
        ∧ ∀ off ctx, capOk r.1 (ringCap part q, g) off 64 needR ctx = (decide (off + 64 ≤ 64 * y.ring) && y.ctx == ctx))
    ∧ ((mappedQueues s part).length < 32 → mapQueue s part q = setQueue s part q { x with state := .mapped, byHost := false })
    ∧ (x.state = .unmapped → x.notified = true → ctxRuns s x.ctx = true →
      (x.byHost = false → exec (.queueMap part q) s = .next (mapQueue s part q))
      ∧ (x.byHost = true → askedHost s part 1 (queueRef part q) = true → exec (.queueMap part q) s = .next s)
      ∧ (x.byHost = true → askedHost s part 1 (queueRef part q) = false →
        exec (.queueMap part q) s = .next (postAssist s part 1 x.ctx (queueRef part q) (leBytes 2 q)).1))
    ∧ (there → x.en = true → exec (.queueDisable part q v) s
      = .next (disableQueue (setQueue s part q { x1 with err := 0 }) part q))
    ∧ (there → x.en = false → exec (.queueDisable part q v) s = .next (setQueue s part q { x1 with err := 0 }))
    ∧ (restartable s part q = true → ∃ t, exec (.queueRestart part q) s = .next t
      ∧ (x.cls ≠ 0 → ((t.part part).queue q).state = .unmapped)
      ∧ (x.cls = 0 → (mappedQueues s part).length < 32 → ((t.part part).queue q).state = .mapped)
      ∧ ((t.part part).queue q).err = 0
      ∧ ((t.part part).queue q).head = x.head ∧ ((t.part part).queue q).tail = x.tail)
    ∧ (restartable s part q = true →
      (nextSlot s part q = none → exec (.queueSkip part q) s = .next (restartQueue s part q))
      ∧ ∀ a par, nextSlot s part q = some (a, par) →
        (∀ b, peek s (ctxView part x.ctx) a 64 = .inl b →
          exec (.queueSkip part q) s = .next (restartQueue (passSlot (finishSlot s
            { part := part, q := q, ctx := x.ctx, addr := a, inBuffer := false, bytes := b }
            (if x.err = 3 then 8 else 7) false) part q) part q))
        ∧ ∀ f, peek s (ctxView part x.ctx) a 64 = .inr f →
          exec (.queueSkip part q) s = .next (restartQueue (passSlot s part q) part q))

/-- A queue whose EN is cleared (14 R288) is off and empty; with no packet in progress it is DISABLED at once, otherwise when the
last of them is over. -/
def Sys2Proof.Claim.DisabledQueue : Prop :=
  ∀ (s : State) (part q : Nat), let t := disableQueue s part q
    let x := (t.part part).queue q
    x.en = false ∧ x.head = 0 ∧ x.tail = 0 ∧ x.notified = false
    ∧ (queueBusy s part q = false → x.state = .disabled) ∧ (queueBusy s part q = true → (part, q) ∈ t.closing)
    ∧ ∀ c : Nat × Nat, queueBusy s c.1 c.2 = false →
      endClosing s c = { setQueue s c.1 c.2 { (s.part c.1).queue c.2 with state := .disabled } with
        closing := s.closing.filter (· != c) }

/-- Parsing and dispatch (14 R294, R295, R299): the packet whose checks pass is committed and waits to start, INVALID ones and
capability faults stop the queue with ERR 3 and 2, a packet that its ring's or buffer's handle does not admit among these (19 R399),
a fault that can be served is; of a partition's work in order, which none of the rest stands before, the first piece that can be done
is: a packet that is ready starts, a launch goes on; a ready node is placed. -/
def Sys2Proof.Claim.ParseAndDispatch : Prop :=
  (∀ (s : State) (part q a : Nat) (par : Option Packet), mayParse s part q = true → nextSlot s part q = some (a, par) →
    let ctx := ((s.part part).queue q).ctx
    let sl := fun (bs : List Byte) =>
      ({ part := part, q := q, ctx := ctx, addr := a, inBuffer := par.isSome, bytes := bs } : Slot)
    let aw := BitVec.ofNat 64 a
    let found := capRange s (sl []) needR a 64 aw 0xFF
    let handle := slotCap s part q par
    let admits := handle.1.any fun x => capOk s x handle.2 64 needR ctx
    let run := exec (.packetParse part q) s
    (admits = false → run = .next (capFault s (sl []) aw 0xFF))
    ∧ (admits = true →
      (∀ f, found = .wait f → run = .next (askService s part ctx (.parse part q) 1 f))
      ∧ (∀ x off hit, found = .cap x off hit → run = .next (capFault s (sl []) aw 0xFF))
      ∧ (∀ f, found = .ok → peek s (ctxView part ctx) a 64 = .inr f →
        run = .next (capFault (consumeHit s part ctx (some f)) (sl []) aw 0xFF))
      ∧ ∀ bs, found = .ok → peek s (ctxView part ctx) a 64 = .inl bs →
        (checkSlot s (sl bs) = .ok → run = .next (commitPacket s (sl bs) par))
        ∧ (checkSlot s (sl bs) = .invalid → run = .next (stopQueue s part q 3))
        ∧ (∀ f, checkSlot s (sl bs) = .wait f → run = .next (askService s part ctx (.parse part q) 1 f))
        ∧ ∀ x off hit, checkSlot s (sl bs) = .cap x off hit →
          run = .next (capFault (consumeHit s part ctx hit) (sl bs) x off)))
  ∧ (∀ (s : State) (part : Nat) (w : Work) (rest : List Work), (s.part part).state = .active → workList s part = w :: rest →
    (∀ y ∈ rest, keyLt y.key w.key = false)
    ∧ (w.launch = none → exec (.packetDispatch part) s = .next (startPacket s part w.q))
    ∧ ∀ lid l, w.launch = some lid → (s.launches.find? fun l => l.lid == lid) = some l → advance s l ≠ s →
      exec (.packetDispatch part) s = .next (advance s l))
  ∧ (∀ (s t : State) (part : Nat), (s.part part).state = .active → (readyNodes s part).findSome? (placeNode s) = some t →
    exec (.nodePlacement part) s = .next t)

/-- A packet that starts (14 R293) leaves its queue and is in progress from then on. -/
def Sys2Proof.Claim.StartedPacket : Prop :=
  ∀ (s : State) (part q : Nat) (p : Packet), ((s.part part).queue q).ready = some p →
    let t := startPacket s part q
    { p with started := true, startedAt := s.time } ∈ t.packets ∧ (∀ x ∈ s.packets, x ∈ t.packets)
    ∧ ((t.part part).queue q).ready = none

/-- A committed packet (14 R294) is the queue's ready packet, with the fields the bytes give, and its slot is passed: the ring's,
or that of the open INDIRECT buffer. -/
def Sys2Proof.Claim.CommittedPacket : Prop :=
  ∀ (s : State) (sl : Slot) (parent : Option Packet),
    let x := (s.part sl.part).queue sl.q
    let t := commitPacket s sl parent
    let y := (t.part sl.part).queue sl.q
    (openBuffer s sl.part sl.q = none → y.head = (x.head + 1) % x.ring)
    ∧ (∀ b, openBuffer s sl.part sl.q = some b → y.head = x.head ∧ { b with next := b.next + 1 } ∈ t.packets)
    ∧ ∃ p, y.ready = some p ∧ p.typ = byteAt sl.bytes 0 ∧ p.ctx = sl.ctx
      ∧ p.pkid = BitVec.ofNat 32 (field sl.bytes 4 4) ∧ p.caddr = wordAt sl.bytes 8 ∧ p.started = false
      ∧ p.parent = parent.map (·.pid) ∧ p.body = (List.range 6).map fun i => wordAt sl.bytes (16 + 8 * i)

/-- What started packets do (14 R296, R298), each completing with status 0 when done: NOP at once; LAUNCH and DEADLINE begin the
gesso launch or the restore of a canvas that passes its checks; GRAPH's nodes are accepted one by one while the pool has room;
COPY copies; SIGNAL stores or adds; WAIT meets its condition, or its limit with status 6; INDIRECT opens its buffer; STAMP stores
the clock; FENCE waits for earlier packets. A fault of a packet's own accesses is served, or the packet's end. -/
def Sys2Proof.Claim.StartedPackets : Prop :=
  ∀ (s t : State) (part q : Nat) (p : Packet),
    let v := ctxView part p.ctx
    let launch := fun (i : Instr) (dl : Option Word) =>
      (word p 1 = 0 → exec i s = .next (beginGesso s p dl))
      ∧ (word p 1 ≠ 0 →
        (∀ f level entry, canvasLoad s (ctxView p.part p.ctx) (word p 1).toNat = .inr f → f.kind = .serviceable level entry →
          exec i s = .next (askService s p.part p.ctx (.packet p.pid) 1 f))
        ∧ (∀ f code, canvasLoad s (ctxView p.part p.ctx) (word p 1).toNat = .inr f → f.kind = .program code →
          exec i s = .next (completePacket s p 8))
        ∧ ∀ bs s1, canvasLoad s (ctxView p.part p.ctx) (word p 1).toNat = .inl (bs, s1) →
          (restoreErr s1 p.part p.ctx bs = some 2 → exec i s = .next (completePacket (stick s1 p.ctx stickOvercap) p 2))
          ∧ (∀ st, st ≠ 2 → restoreErr s1 p.part p.ctx bs = some st → exec i s = .next (completePacket s1 p st))
          ∧ (restoreErr s1 p.part p.ctx bs = none → (∀ d ∈ graphCommissions bs,
              firstService s1 (ctxView p.part p.ctx) needR (tableEntry s1 p.ctx d) 8 = none) →
            exec i s = .next (beginRestore s1 p dl bs)))
    (actor s part q 0 = some p → exec (.nopPacket part q) s = .next (completePacket s p 0))
    ∧ (idleLaunch s part q 1 = some p → launch (.launchPacket part q) none)
    ∧ (idleLaunch s part q 8 = some p → launch (.deadlinePacket part q) (some (word p 5)))
    ∧ ((s.packets.find? fun x => x.part == part && x.q == q && x.typ == 2 && x.started && !x.finished
          && decide (64 * x.progress < x.ext.length) && ctxRuns s x.ctx) = some p →
      let x := (s.part part).queue q
      let s1 := if p.progress = 0 then addLaunch s (blankLaunch s part p.ctx (some p.pid) 0 x.cls x.weight) else s
      let lid := ((s1.launches.find? fun l => l.pid == some p.pid && l.nblk == 0).map (·.lid)).getD 0
      let cap := ((s.ctx? p.ctx).map (·.lcap)).getD 0
      (cap ≤ poolUsed s1 p.ctx → exec (.graphPacket part q) s = .next (setPacket s1 p))
      ∧ (poolUsed s1 p.ctx < cap → p.ext.length = 64 * (p.progress + 1) → exec (.graphPacket part q) s = .next (setPacket
        (acceptNode s1 part p.ctx ((word p 0).toNat + 64 * p.progress) (sub p.ext (64 * p.progress) 64) lid (some p.pid))
        { p with progress := p.progress + 1 })))
    ∧ (actor s part q 3 = some p → ∀ n f, copyBursts v (word p 0).toNat (word p 1).toNat (word p 2).toNat
        ((word p 2).toNat / burstBytes + 2) p.progress s = (t, n, f) →
      (f = none → exec (.copyPacket part q) s = .next (completePacket t p 0))
      ∧ ∀ g, f = some g → exec (.copyPacket part q) s
        = .next (packetFault (setPacket t { p with progress := n }) { p with progress := n } 4 g))
    ∧ (actor s part q 4 = some p → (word p 2).toNat % 256 = 0 →
      (storeAt s v (word p 0).toNat 8 (word p 1).toNat = .inl t → exec (.signalPacket part q) s = .next (completePacket t p 0))
      ∧ ∀ f, storeAt s v (word p 0).toNat 8 (word p 1).toNat = .inr f →
        exec (.signalPacket part q) s = .next (packetFault s p 2 f))
    ∧ (actor s part q 4 = some p → (word p 2).toNat % 256 ≠ 0 →
      let run := atomicAt s v (word p 0).toNat 8 (fun o => some ((o + (word p 1).toNat) % 2 ^ 64))
      (∀ old, run = .inl (old, t) → exec (.signalPacket part q) s = .next (completePacket t p 0))
      ∧ ∀ f, run = .inr f → exec (.signalPacket part q) s = .next (packetFault s p 3 f))
    ∧ (actor s part q 5 = some p →
      (∀ x, loadAt s v (word p 0).toNat 8 = .inl (x, t) →
        (waitMet p x = true → exec (.waitPacket part q) s = .next (completePacket t p 0))
        ∧ (waitMet p x = false → exec (.waitPacket part q) s = .next t))
      ∧ ∀ f, loadAt s v (word p 0).toNat 8 = .inr f → exec (.waitPacket part q) s = .next (packetFault s p 1 f))
    ∧ (actor s part q 5 = some p → waitLimit p ≠ 0 → p.startedAt + micros (waitLimit p) ≤ s.time →
      exec (.waitPacketTimeout part q) s = .next (completePacket s p 6))
    ∧ ((s.packets.find? fun x => x.part == part && x.q == q && x.typ == 6 && x.started && x.progress == 0 && !x.finished)
        = some p →
      exec (.indirectPacket part q) s = .next (setPacket s { p with progress := 1 }))
    ∧ (actor s part q 7 = some p →
      let run := storeWhole s v (word p 0).toNat (leBytes 6 s.ptpSec ++ leBytes 4 s.ptpNs ++ zeros 6)
      (run = .inl t → exec (.stampPacket part q) s = .next (completePacket t p 0))
      ∧ ∀ f, run = .inr f → exec (.stampPacket part q) s = .next (packetFault s p 2 f))
    ∧ ((s.packets.find? fun x => x.part == part && x.q == q && x.typ == 9 && x.started && !x.finished && !earlierOpen s x)
        = some p →
      exec (.fencePacket part q) s = .next (completePacket s p 0))

/-- Completion (14 R292): the packet is gone, its completion dword (where its address can be written) holds the status and the
packet's number, and ISR.PACKET follows its flag; a fault that the write meets is served first. -/
def Sys2Proof.Claim.PacketCompletion : Prop :=
  ∀ (s : State) (p : Packet) (status : Nat),
    let t := completePacket s p status
    (∀ f, caddrWait s p.part p.ctx p.caddr = some f →
      t = askService (setPacket s { p with finished := true, status := status }) p.part p.ctx (.packet p.pid) 2 f)
    ∧ (caddrWait s p.part p.ctx p.caddr = none →
      (∀ x ∈ t.packets, x.pid ≠ p.pid)
      ∧ (p.flags.getLsbD 1 = true → (t.part p.part).isr.getLsbD 2 = true)
      ∧ (caddrOk s p.part p.ctx p.caddr = true →
        t.mem = (storeBytes s (ctxView p.part p.ctx) p.caddr.toNat (leBytes 8 (status + 2 ^ 32 * p.pkid.toNat))).1.mem)
      ∧ (caddrOk s p.part p.ctx p.caddr = false → t.mem = s.mem))

/-- Queues, and packets from their bytes to their completion. On the state and operands each part names, exec answers the
next state it gives: notifyWrite (14 R290), queueEnable, queueMap, queueDisable, queueRestart and queueSkip (14 R288, R289),
packetParse (14 R294, R295), packetDispatch (14 R299), nodePlacement (14 R306), and nopPacket, launchPacket, deadlinePacket,
graphPacket, copyPacket, signalPacket, waitPacket, waitPacketTimeout, indirectPacket, stampPacket and fencePacket (14 R296,
R298). -/
def Obligations.QueueAndPacketEvents : Prop :=
  Claim.QueueControls ∧ Claim.DisabledQueue ∧ Claim.ParseAndDispatch ∧ Claim.StartedPacket ∧ Claim.CommittedPacket
  ∧ Claim.StartedPackets ∧ Claim.PacketCompletion

/-! ## Events of contexts and code objects (13 R281 to R283, 19 R391 to R398) -/

/-- Context commands (13 R281 to R283): ignored while one is under way and while the partition is RESETTING or OFF; RESULT 2 for an id outside
the partition, 1 in the wrong state, 3 for a record out of range, 4 for an unknown code, 0 when done. SUSPEND begins the capture
of every block; RESUME leaves the recorded blocks to be placed, and where there are none writes the atelier pages and is done. (A
record that cannot be read counts as out of range: the model's choice, log 94.) -/
def Sys2Proof.Claim.ContextCommands : Prop :=
  ∀ (s : State) (part ctx : Nat) (expo : Bool) (mask : BitVec 8) (op : BitVec 4),
    let all := [Instr.ctxCreate part ctx, .ctxSuspend part ctx expo, .ctxResume part ctx, .ctxDestroy part ctx,
      .ctxClearerr part ctx mask, .ctxReload part ctx]
    ((s.part part).ccmdBusy = true ∨ barOpen s part = false →
      ∀ i ∈ Instr.ctxBadOp part ctx op :: all, exec i s = .next s)
    ∧ ((s.part part).ccmdBusy = false → barOpen s part = true →
      exec (.ctxBadOp part ctx op) s = .next (endCmd s part 4)
      ∧ (inPartition s part ctx = false → ∀ i ∈ all, exec i s = .next (endCmd s part 2))
      ∧ (inPartition s part ctx = true →
        (s.ctx? ctx = none →
          (∀ bs, recordOf s part ctx = some bs →
            (recordFields bs = true → exec (.ctxCreate part ctx) s
              = .next (endCmd { s with ctxs := s.ctxs ++ [freshCtx s part ctx bs] } part 0))
            ∧ (recordFields bs = false → exec (.ctxCreate part ctx) s = .next (endCmd s part 3)))
          ∧ (recordOf s part ctx = none → exec (.ctxCreate part ctx) s = .next (endCmd s part 3))
          ∧ ∀ i ∈ all.drop 1, exec i s = .next (endCmd s part 1))
        ∧ ∀ c, s.ctx? ctx = some c →
          exec (.ctxCreate part ctx) s = .next (endCmd s part 1)
          ∧ exec (.ctxDestroy part ctx) s = .next (endCmd (destroyCtx s part ctx) part 0)
          ∧ (∃ t, exec (.ctxClearerr part ctx mask) s = .next t
            ∧ t.ctxs = s.ctxs.map (fun x => if x.id = ctx then { c with sticky := c.sticky &&& ~~~mask } else x)
            ∧ (t.part part).ccmdCleared = (c.sticky &&& mask).toNat ∧ (t.part part).ccmdResult = 0)
          ∧ (c.state ≠ .active → exec (.ctxSuspend part ctx expo) s = .next (endCmd s part 1))
          ∧ (c.state = .active → exec (.ctxSuspend part ctx expo) s = .next (trySuspend
              (((s.blocks.filter fun b => b.ctx == ctx && b.state != .ended).map (·.bid)).foldl (fun s bid =>
                match s.block? bid with
                | some b => beginCapture s b
                | none => s) (startCmd s part 2 ctx expo)) c none))
          ∧ (c.state = .active → c.part = part → part < 8 → (∀ b ∈ s.blocks, b.ctx ≠ ctx) →
            hostDuty s part 2 (ctxRef ctx) = false →
            exec (.ctxSuspend part ctx expo) s = .next (writeContext (startCmd s part 2 ctx expo) c 0))
          ∧ (c.state ≠ .suspended → exec (.ctxResume part ctx) s = .next (endCmd s part 1))
          ∧ (c.state = .suspended → resumable? s c = none → exec (.ctxResume part ctx) s = .next (endCmd s part 3))
          ∧ (c.state = .suspended → ∀ a bs, resumable? s c = some (a, bs) →
            let s1 := startCmd s part 3 ctx false
            let s2 := freeCanvas (restoreAtelier s1 ctx bs) ctx a
            let waits := s1.captured.any fun x => x.ctx == ctx && x.addr == a
            (waits = true → exec (.ctxResume part ctx) s = .next s1)
            ∧ (waits = false → ∀ c1, s2.ctx? ctx = some c1 → exec (.ctxResume part ctx) s
              = .next (endCmd (s2.setCtx { c1 with state := .active, suspendCanvas := none }) part 0)))
          ∧ (c.state ≠ .active → c.state ≠ .suspended → exec (.ctxReload part ctx) s = .next (endCmd s part 1))
          ∧ (c.state = .active ∨ c.state = .suspended →
            (recordOf s part ctx = none → exec (.ctxReload part ctx) s = .next (endCmd s part 3))
            ∧ ∀ bs, recordOf s part ctx = some bs →
              (recordFields bs = false → exec (.ctxReload part ctx) s = .next (endCmd s part 3))
              ∧ (recordFields bs = true →
                let s1 := startCmd s part 6 ctx false
                (ctxDrained s1 ctx = false → exec (.ctxReload part ctx) s = .next s1)
                ∧ ∀ c1 bs1, ctxDrained s1 ctx = true → s1.ctx? ctx = some c1 → recordOf s1 part ctx = some bs1 →
                  recordFields bs1 = true →
                  exec (.ctxReload part ctx) s = .next (endCmd (s1.setCtx (withRecord s1 c1 bs1)) part 0)))))

/-- DESTROY leaves nothing of the context (13 R282). -/
def Sys2Proof.Claim.DestroyedContext : Prop :=
  ∀ (s : State) (part ctx : Nat), let t := destroyCtx s part ctx
    t.ctx? ctx = none ∧ (∀ l ∈ t.launches, l.ctx ≠ ctx) ∧ (∀ n ∈ t.nodes, n.ctx ≠ ctx) ∧ (∀ c ∈ t.captured, c.ctx ≠ ctx)
    ∧ (∀ f ∈ t.faults, f.ctx ≠ ctx) ∧ ∀ i ∈ t.insts, ctx ∉ i.ctxs

/-- Object commands (19 R391, R392, R397, R398): ignored while one is under way and while the partition is RESETTING or OFF; a
context that is not open gives 12, a form that
fails 1, another minor level 3, TABHASH or the signature 2 and an instance that is not there 13; LOAD goes on with its steps from
4 on, UNLOAD waits for its users and then drops the instance, SETSLOT sets slots of an instance with one user. -/
def Sys2Proof.Claim.ObjectCommands : Prop :=
  ∀ (s : State) (part : Nat) (req v : Word),
    ((s.part part).ocmdBusy = true ∨ barOpen s part = false →
      ∀ i ∈ [Instr.objLoad part req, .objUnload part req, .objSetslot part req, .objBadOp part v], exec i s = .next s)
    ∧ ((s.part part).ocmdBusy = false → barOpen s part = true →
    let q := readReq s req
    let o := readObj s q.obj q.size
    (exec (.objBadOp part v) s = .next (objResult s part (1, 0)))
    ∧ (ctxOpen s part q.ctx = false → exec (.objLoad part req) s = .next (objResult s part (12, 0))
      ∧ exec (.objSetslot part req) s = .next (objResult s part (12, 0))
      ∧ exec (.objUnload part req) s = .next (objResult s part (12, 0)))
    ∧ (ctxOpen s part q.ctx = true →
      (q.ok = false ∨ objShapeOk s q.obj q.size = false → exec (.objLoad part req) s = .next (objResult s part (1, 0)))
      ∧ (objEntriesOk o = false ∨ o.slot.length < q.nslot → exec (.objLoad part req) s = .next (objResult s part (1, 0)))
      ∧ (q.ok = true → objShapeOk s q.obj q.size = true → objEntriesOk o = true → q.nslot ≤ o.slot.length →
        (byteAt o.header 6 ≠ 1 → exec (.objLoad part req) s = .next (objResult s part (3, 0)))
        ∧ (byteAt o.header 6 = 1 → exec (.objLoad part req) s
          = .next (if tabHashOk s o && signatureOk s (s.part part) o then loadObject s part q o else objResult s part (2, 0))))
      ∧ (namedInst s q = none → exec (.objSetslot part req) s = .next (objResult s part (13, 0))
        ∧ exec (.objUnload part req) s = .next (objResult s part (13, 0)))
      ∧ ∀ i, namedInst s q = some i →
        (∃ t, exec (.objUnload part req) s = .next t ∧ (t.part part).ocmdBusy = true
          ∧ t.insts = (s.setInst { i with unloading := i.unloading ++ [q.ctx] }).insts)
        ∧ (1 < i.refs → exec (.objSetslot part req) s = .next (objResult s part (10, 0)))
        ∧ (i.refs ≤ 1 → i.slots.length < q.nslot → exec (.objSetslot part req) s = .next (objResult s part (1, 0)))
        ∧ (i.refs ≤ 1 → q.nslot ≤ i.slots.length → ∀ x, slotErr s i (slotValues s q i.slots) = some x →
          exec (.objSetslot part req) s = .next (objResult s part x))
        ∧ (i.refs ≤ 1 → q.nslot ≤ i.slots.length →
          let slots := slotValues s q i.slots
          let i1 : Inst := { i with slots := slots }
          let s1 := repatch (s.setInst i1) i1
          slotErr s i slots = none → exec (.objSetslot part req) s = .next (objResult { s1 with
            icache := s1.icache.filter fun l => !lineOf i l } part (0, 0)))))

/-- LOAD's last steps (19 R392) for a file without symbols, relocations, data pages: one more user of an instance with the same
hash, base and slots, or a new instance where the pool has room (log 19) and the pages are free; UNLOAD's end. -/
def Sys2Proof.Claim.LoadAndUnloadEnd : Prop :=
  (∀ (s : State) (part : Nat) (q : ObjReq) (o : ObjFile), o.sym = [] → o.rel = [] → sectPages o [1, 3] = [] →
    let base := if q.base = 0 then hdr o 8 else q.base
    let slots := slotValues s q (o.slot.map fun e => (wordAt e 8).toInt)
    s.poisoned.contains (contentHash s o) = false → overlapPage s q.ctx base (o.image / 4096) = none →
    base + 4096 * (o.image / 4096) ≤ 2 ^ 56 →
    ((List.range (o.image / 4096)).all fun p => (entryOf s q.ctx (base + 4096 * p)).isSome) = true →
    let known := s.insts.find? fun i => i.part == part && i.hash == contentHash s o && i.base.toNat == base && i.slots == slots
      && i.ext == []
    (∀ i, known = some i →
      let i1 : Inst := { i with refs := i.refs + 1, ctxs := i.ctxs ++ [q.ctx] }
      loadObject s part q o = objResult ((mapInst s i1 (sectPages o [3]) q.ctx).setInst i1) part (0, 0))
    ∧ (known = none → ∃ i : Inst, i.iid = s.nextId ∧ i.part = part ∧ i.hash = contentHash s o ∧ i.base = BitVec.ofNat 64 base
      ∧ i.image = o.image ∧ i.slots = slots ∧ i.refs = 1 ∧ i.ctxs = [q.ctx]
      ∧ loadObject s part q o = if Config.poolRoom s.freeCount then
          objResult (mapInst { s with nextId := s.nextId + 1, insts := s.insts ++ [i] } i (sectPages o [3]) q.ctx) part (0, 0)
        else objResult s part (9, 0)))
  ∧ ∀ (s : State) (part ctx : Nat) (i : Inst), unloading s part = some (i, ctx) →
    exec (.unloadComplete part) s = .next (if unloadReady s i ctx then objResult (dropInst s i ctx) part (0, 0) else s)

/-- Contexts and code objects: ctxCreate, ctxSuspend, ctxResume, ctxDestroy, ctxClearerr, ctxReload and ctxBadOp (13 R281 to
R283), objLoad, objUnload, unloadComplete, objSetslot and objBadOp (19 R391, R392, R397, R398). On the state and operands
each part names, exec answers the next state it gives. The model's own choices in them: a command that a fault overtakes (log 23),
the pool of pages (log 19), a record that cannot be read (log 94). -/
def Obligations.ContextAndObjectEvents : Prop :=
  Claim.ContextCommands ∧ Claim.DestroyedContext ∧ Claim.ObjectCommands ∧ Claim.LoadAndUnloadEnd

/-! ## Events of partitions, registers, bring-up and power (chapters 13, 19) -/

/-- GO (13 R278): the held values that pass every check become the partition's configuration, CONFIGURING until the change is made
and then ACTIVE, or OFF without dies; otherwise CFGERR holds the first failing check's code and nothing else changes, but
ISR.STATE where the code is a new one. Slices of a die that it gives up are in atelier mode no longer. A GO during a GO begins when
that has ended, and a die that bring-up left out takes no part (the model's choices, log 23). -/
def Sys2Proof.Claim.PartitionGo : Prop :=
  ∀ (s : State) (part : Nat), let p := s.part part
    let n := withoutOut s p.held
    (p.state = .configuring → exec (.partitionGo part) s = exec (.partitionGo part) (endChange s part))
    ∧ (p.state ≠ .configuring → goError s part n = 0 → ∃ t, exec (.partitionGo part) s = .next t
      ∧ (t.part part).cfg = n ∧ (t.part part).cfgerr = 0 ∧ (t.part part).aret = 0
      ∧ (t.part part).state = .configuring
      ∧ ((endChange t part).part part).state = (if n.dies = 0 then .off else .active)
      ∧ (t.part part).isr.getLsbD 3 = true ∧ t.mem = s.mem ∧ t.blocks = s.blocks
      ∧ (∀ d x, n.dies.getLsbD d = true → ((d, x) ∈ t.atlSlices ↔ (d, x) ∈ chosenSlices s n))
      ∧ ∀ d x, n.dies.getLsbD d = false → p.cfg.dies.getLsbD d = true → (d, x) ∉ t.atlSlices)
    ∧ ∀ e, e ≠ 0 → p.state ≠ .configuring → goError s part n = e →
      exec (.partitionGo part) s = .next (let s1 := s.setPart part { p with cfgerr := e }
        if p.cfgerr = e then s1 else isrSet s1 part 3)

/-- Reset of a partition (13 R286, R287), by PRST or a function-level reset: its contexts, blocks, packets, launches and instances
are gone and it is RESETTING; when that ends it is ACTIVE, its page is at its reset values but for what the device page holds, and
ISR.STATE alone is set. One asked for meanwhile is ignored, and a function-level reset of a partition that is OFF, whose function
is not there (18 R372). -/
def Sys2Proof.Claim.PartitionReset : Prop :=
  ∀ (s : State) (part : Nat) (scrub : Bool), part < 8 →
    ((s.part part).state = .resetting → exec (.partitionReset part scrub) s = .next s)
    ∧ (barOpen s part = false → exec (.functionLevelReset part) s = .next s)
    ∧ ((s.part part).state ≠ .resetting →
      let clean := fun (t : State) => (∀ c ∈ t.ctxs, c.part ≠ part) ∧ (∀ b ∈ t.blocks, b.part ≠ part)
        ∧ (∀ p ∈ t.packets, p.part ≠ part) ∧ (∀ l ∈ t.launches, l.part ≠ part) ∧ (∀ i ∈ t.insts, i.part ≠ part)
        ∧ (t.part part).state = .resetting
        ∧ let u := (endChange t part).part part
          u.state = .active ∧ u.isr = 8 ∧ u.imask = 0 ∧ u.frhead = 0 ∧ u.frtail = 0 ∧ u.ctxbase = 0 ∧ u.tinvDone = true
          ∧ u.assists = [] ∧ u.cfg = (s.part part).cfg ∧ u.pcfg0 = (s.part part).pcfg0 ∧ u.scrub = (t.part part).scrub
          ∧ ∀ q < 64, u.queue q = Queue.reset
      (∃ t, exec (.partitionReset part scrub) s = .next t ∧ clean t ∧ (t.part part).scrub = scrub)
      ∧ (barOpen s part = true → ∃ t, exec (.functionLevelReset part) s = .next t ∧ clean t ∧ (t.part part).scrub = (s.part part).scrub))

/-- ISR, IMASK and FRTAIL (13 R284, R285): ones clear bits of ISR; a set bit whose mask bit comes sends its message once; a tail
further than FRSIZE behind the head is ignored. While the partition is RESETTING or OFF no write has an effect (R287, 18 R372). -/
def Sys2Proof.Claim.InterruptRegisters : Prop :=
  ∀ (s : State) (part : Nat) (v : Word), let p := s.part part
    (barOpen s part = false → ∀ i ∈ [Instr.isrWrite part v, .imaskWrite part v, .frtailWrite part v], exec i s = .next s)
    ∧ (barOpen s part = true →
      (∃ t, exec (.isrWrite part v) s = .next t
        ∧ (∀ i < 5, (t.part part).isr.getLsbD i = (p.isr.getLsbD i && !v.getLsbD i)) ∧ (t.part part).msgs = p.msgs)
      ∧ (∃ t, exec (.imaskWrite part v) s = .next t ∧ (t.part part).imask = BitVec.ofNat 5 v.toNat ∧ (t.part part).isr = p.isr
        ∧ (t.part part).msgs = p.msgs ++ (List.range 5).filter fun i =>
            p.isr.getLsbD i && v.getLsbD i && !p.imask.getLsbD i && !p.sent.getLsbD i)
      ∧ ((p.frhead - BitVec.ofNat 32 v.toNat).toNat ≤ p.frsize →
        exec (.frtailWrite part v) s = .next (s.setPart part { p with frtail := BitVec.ofNat 32 v.toNat }))
      ∧ (p.frsize < (p.frhead - BitVec.ofNat 32 v.toNat).toNat → exec (.frtailWrite part v) s = .next s))

/-- Registers without behaviour of their own (13 R275, R276): an unaligned access is answered with an abort, and so is one of the
page of a partition that is RESETTING (R287, 18 R373); one of the page of a partition that is OFF is not supported (18 R372); a
write of a read-only register changes nothing; CTXBASE, FRBASE and ASBASE read back as written, to a page; a queue's base moves only
while the queue is disabled; the clock correction is cut to ±1,000 ppm; HDMBASE is taken to 256 MiB. -/
def Sys2Proof.Claim.PlainRegisters : Prop :=
  ∀ (s : State) (part : Nat) (v : Word), part < 8 →
    let told := fun (a : HostAnswer) => (Host.Outcome.next { s with hostAnswer := some a } : Out)
    (∀ sp off, off % 8 ≠ 0 → exec (.registerWrite sp off v) s = told .abort ∧ readRegister s sp off = .abort)
    ∧ (∀ off, off % 8 = 0 → (s.part part).state = .resetting →
      exec (.registerWrite (.part part) off v) s = told .abort ∧ readRegister s (.part part) off = .abort)
    ∧ (∀ off, off % 8 = 0 → (s.part part).state = .off →
      exec (.registerWrite (.part part) off v) s = told .unsupported ∧ readRegister s (.part part) off = .unsupported)
    ∧ exec (.registerWrite .hdm 0 v) s = .next { s with hdmBase := some (v.toNat / 2 ^ 28 * 2 ^ 28) }
    ∧ (∃ t, exec (.registerWrite .dev 0x420 v) s = .next t ∧ t.ptpFreq.toInt
        = max (-65536000) (min 65536000 (v.setWidth 32).toInt))
    ∧ (barOpen s part = true →
    (∀ off ∈ [0x020, 0x038, 0x048, 0x058, 0x088, 0x090, 0x0B0], exec (.registerWrite (.part part) off v) s = .next s)
    ∧ (∀ off ∈ [0x008, 0x028, 0x050], ∃ t, exec (.registerWrite (.part part) off v) s = .next t
      ∧ readRegister t (.part part) off = .data (leBytes 8 (v &&& ~~~0xFFF#64).toNat) false)
    ∧ ∀ q < 64, let x := (s.part part).queue q
      queueThere s part q = true →
      (x.en = true → exec (.registerWrite (.part part) (0x400 + 32 * q) v) s = .next s)
      ∧ (x.en = false → exec (.registerWrite (.part part) (0x400 + 32 * q) v) s
          = .next (setQueue s part q { x with base := v &&& ~~~0xFFF#64 })))

/-- Attestation (19 R400): a report over the nonce is written 64 bytes after the request, signed with the next index while one is
left; when none is, ATEX is set and the report bears no signature. The identity key's seeds are free (the model's choice, log 9). -/
def Sys2Proof.Claim.AttestationReport : Prop :=
  ∀ (s : State) (addr : Word),
    let a := hostStart + addr.toNat
    let rep := reportBytes s (cellsBytes s.mem a 32)
    (s.attestIdx < s.attestEnd → exec (.attestationRequest addr) s = .next { s with
      attestIdx := s.attestIdx + 1, atex := s.atex || decide (s.attestEnd ≤ s.attestIdx + 1),
      mem := cellsPut s.mem (a + 64) (rep ++ hssSign s.attestIdx rep) })
    ∧ (s.attestEnd ≤ s.attestIdx → exec (.attestationRequest addr) s
      = .next { s with atex := true, mem := cellsPut s.mem (a + 64) rep })

/-- Bring-up (19 R399, R401): the stages come one after another; a failure of stage 1, 2 or 6 halts, and so does a firmware image
whose key, signature, version or pages fail in stage 1; stage 3 leaves out the dies that fail, stage 4 loses the cores without a
valid palette map, stage 5 loads the routes; after stage 7 partition 0 holds every die that works. A device that is up, halted or
without power starts anew. What bring-up meets is the model's own state (log 6), and what a firmware signature covers its choice
(log 23). -/
def Sys2Proof.Claim.BringUp : Prop :=
  (∀ s : State,
    (s.powered = true → s.halt = false → s.stage < 7 →
      let n := s.stage + 1
      let bad := ∃ x, s.firmware = some x ∧ x.accepted s.fwKeyDigest s.fwVersion = false
      (s.failStage = some n → n = 1 ∨ n = 2 ∨ n = 6 → exec .bringUp s = .next { s with halt := true })
      ∧ (n = 1 → bad → exec .bringUp s = .next { s with halt := true })
      ∧ (n = 1 → s.failStage ≠ some 1 → ¬bad →
        (s.firmware = none → exec .bringUp s = .next { s with stage := 1 })
        ∧ ∀ x, s.firmware = some x → exec .bringUp s = .next { s with stage := 1, fwDigest := sha256 x.pages.flatten })
      ∧ (s.failStage ≠ some n → n = 2 ∨ n = 6 → exec .bringUp s = .next { s with stage := n })
      ∧ (n = 3 → exec .bringUp s = .next { s with stage := 3, dieOut := s.failDies })
      ∧ (n = 4 → ∃ t, exec .bringUp s = .next t ∧ t.stage = 4 ∧ t.parts = s.parts
        ∧ (∀ x ∈ s.failCores, lostCore t x.1 x.2 = true)
        ∧ ∀ die core, (die, core) ∉ s.failCores → coreStat t die core = coreStat s die core)
      ∧ (n = 5 → exec .bringUp s = .next { s with stage := 5, routes := Config.routes })
      ∧ (n = 7 → exec .bringUp s = .next { s with stage := 7, parts := bringParts s }
        ∧ (bringParts s)[0].cfg.dies = ~~~s.dieOut ∧ (bringParts s)[0].state = .active ∧ (bringParts s)[1].state = .off))
    ∧ (7 ≤ s.stage ∨ s.halt = true ∨ s.powered = false → ∃ t, exec .bringUp s = .next t ∧ t.stage = 0 ∧ t.halt = false
      ∧ t.powered = true ∧ t.blocks = [] ∧ t.ctxs = [] ∧ t.attestIdx = s.attestIdx
      ∧ ∀ a, cellsGet t.mem a = if a < hostStart then Config.blankByte else cellsGet s.mem a))
  ∧ ∀ (x : Firmware) (digest : List Byte) (fused : BitVec 32), x.accepted digest fused = true ↔
    sha256 x.key = digest ∧ hssVerify x.key (beBytes x.version ++ x.hashes.flatten) x.sig = true
    ∧ fused.toNat ≤ x.version.toNat ∧ x.pages.map sha256 = x.hashes

/-- Power (19 R402): a sag lowers one group's clock, never below the floor, and a sag that is over leaves
only the cycles that it held the group back; the module's
limit lowers the clock of the device; a thermal trip sets ISR.STATE of every partition and THERM; after 10 ms the dies lose power
and all state on them. -/
def Sys2Proof.Claim.Power : Prop :=
  ∀ s : State,
    (∀ g mhz, let f := max Config.floorMHz mhz
      (∃ lag sub, exec (.supplySag g mhz) s = .next { s with sags := (s.sags.filter fun x => x.group != g)
          ++ [{ group := g, mhz := if s.mhz ≤ f then 0 else f, lag := lag, sub := sub }] }
        ∧ (∀ x, s.sags.find? (fun x => x.group == g) = some x → lag = x.lag ∧ sub = x.sub)
        ∧ (s.sags.find? (fun x => x.group == g) = none → lag = 0 ∧ sub = 0))
      ∧ exec (.modulePowerLimit mhz) s = .next { s with mhz := min s.mhz f })
    ∧ (s.therm = false → ∃ t, exec .thermalTrip s = .next t ∧ t.therm = true ∧ t.thermAt = s.time
      ∧ ∀ p < 8, (t.part p).isr.getLsbD 3 = true)
    ∧ (s.therm = true → s.thermAt + micros 10000 ≤ s.time → ∃ t, exec .thermalPowerOff s = .next t ∧ t.powered = false
      ∧ t.blocks = [] ∧ t.packets = [] ∧ t.launches = [] ∧ t.atelier = []
      ∧ ∀ a, cellsGet t.mem a = if a < 8 * Config.nearBytes then Config.blankByte else cellsGet s.mem a)

/-- Partitions, registers, attestation, bring-up and power: partitionGo (13 R278), partitionReset and functionLevelReset (13
R286), isrWrite, imaskWrite, frtailWrite and registerWrite (13 R275, R284, R285), attestationRequest (19 R400), bringUp (19
R401), supplySag, modulePowerLimit, thermalTrip and thermalPowerOff (19 R402). On the state and operands each part names,
exec answers the next state it gives. -/
def Obligations.DeviceEvents : Prop :=
  Claim.PartitionGo ∧ Claim.PartitionReset ∧ Claim.InterruptRegisters ∧ Claim.PlainRegisters ∧ Claim.AttestationReport
  ∧ Claim.BringUp ∧ Claim.Power

/-! ## Events of the fabric, the links, the clock and the host (chapter 18) -/

/-- Links (18 R374): an enabled link trains, a trained one is up and knows its peer, a replayed flit and one received bad are
counted each in its own field, a lost peer takes it down; MODE changes only while EN is 0, and a fifth Ethernet link is refused. -/
def Sys2Proof.Claim.LinkStates : Prop :=
  ∀ (s : State) (l : Nat) (v : Word) (peer : BitVec 12), let x := s.link l
    (x.en = false → v.getLsbD 0 = true → v.getLsbD 1 = false →
      exec (.linkControlWrite l v) s = .next (s.setLink l { x with
        ethernet := false, en := true, state := stateTraining, peer := 0 }))
    ∧ (x.en = true → v.getLsbD 0 = false →
      exec (.linkControlWrite l v) s = .next (s.setLink l { x with en := false, state := stateDown, peer := 0 }))
    ∧ (x.en = true → v.getLsbD 0 = true → exec (.linkControlWrite l v) s = .next (s.setLink l x))
    ∧ (x.en = false → v.getLsbD 0 = false → v.getLsbD 1 = true → x.ethernet = false → 4 ≤ ethernetLinks s →
      exec (.linkControlWrite l v) s = .next (s.setLink l { x with ethernet := false, modeErr := true }))
    ∧ (x.en = true → x.state = stateTraining → exec (.linkTraining l peer) s
      = .next (s.setLink l { x with state := stateUp, peer := if x.ethernet then 0 else peer }))
    ∧ (x.state = stateUp → x.ethernet = false → exec (.flitReplay (.replayed l)) s = .next (s.setLink l { x with replay := satInc x.replay })
      ∧ exec (.flitReplay (.badCrc l)) s = .next (s.setLink l { x with crcErr := satInc x.crcErr }))
    ∧ (x.state = stateUp → exec (.linkFailed l true) s = .next (s.setLink l { x with state := stateFailed })
      ∧ exec (.linkFailed l false) s = .next (s.setLink l { x with state := stateDown }))
    ∧ ((∀ y ∈ s.links.toList, y.en = false) → exec (.fidWrite v) s = .next { s with fid := BitVec.ofNat 12 v.toNat })
    ∧ ((∃ y ∈ s.links.toList, y.en = true) → exec (.fidWrite v) s = .next s)

/-- The clock (18 R385): a latch copies it whole, a step moves it by signed nanoseconds, and a forward step makes late the DEADLINE
packets whose time it passes over; PTP frames of links that are up in Ethernet mode pass the control cores with the time at which
they passed, and carry it where they leave in one step (where a frame holds it is presumed, log 25). A received frame with a bad FCS
is discarded. -/
def Sys2Proof.Claim.ClockAndFrames : Prop :=
  ∀ (s : State) (offset : Word) (l : Nat) (frame : List Byte),
    (∃ t, exec .ptpLatch s = .next t ∧ t = { s with ptpLatchSec := s.ptpSec, ptpLatchNs := s.ptpNs })
    ∧ (s.ptpNs < 10 ^ 9 → s.ptpSec < 2 ^ 48 → ∃ t, exec (.ptpStep offset) s = .next t
      ∧ (ptpNow t : Int) = ((ptpNow s : Int) + offset.toInt) % (2 ^ 48 * 10 ^ 9) ∧ t.ptpNs < 10 ^ 9 ∧ t.mem = s.mem
      ∧ (offset.toInt ≤ 0 → t.packets = s.packets)
      ∧ (0 < offset.toInt → t.packets.map (·.late) = s.packets.map fun p => p.late || (p.typ == 8
          && decide (ptpNow s ≤ packetDeadline p) && decide (packetDeadline p < ptpNow t))))
    ∧ (bringsFrames (s.link l) = true → ∀ fcs,
      let record := fun (way : PtpWay) (bs : List Byte) =>
        ({ way := way, link := l % 16, sec := s.ptpSec, ns := s.ptpNs, frac := s.ptpFrac, bytes := bs } : PtpFrame)
      exec (.ptpMessage l ⟨.received, frame, true⟩) s = .next { s with ptpFrames := s.ptpFrames ++ [record .received frame] }
      ∧ exec (.ptpMessage l ⟨.received, frame, false⟩) s = .next s
      ∧ exec (.ptpMessage l ⟨.twoStep, frame, fcs⟩) s = .next { s with ptpFrames := s.ptpFrames ++ [record .twoStep frame] }
      ∧ exec (.ptpMessage l ⟨.oneStep, frame, fcs⟩) s
        = .next { s with ptpFrames := s.ptpFrames ++ [record .oneStep (stampFrame s frame)] })

/-- Ingress (18 R386, R387): a frame of a link that is up in Ethernet mode and no PTP frame goes to the window of the first
enabled filter that matches, and is counted as dropped where it cannot be written; without a filter it is discarded, and so is one
with a bad FCS. -/
def Sys2Proof.Claim.IngressFrames : Prop :=
  ∀ (s : State) (l : Nat) (frame : List Byte), (s.link l).ethernet = true → (s.link l).en = true →
    (s.link l).state = stateUp → isPtp frame = false →
    let first := (List.range 64).find? fun f => filterMatches (s.filter f) (l % 16) frame
    exec (.ingressFrame l ⟨frame, false⟩) s = .next s
    ∧ (first = none → exec (.ingressFrame l ⟨frame, true⟩) s = .next s)
    ∧ ∀ f, first = some f →
      (∀ t, writeSlot s (s.filter f) (l % 16) frame = some t → exec (.ingressFrame l ⟨frame, true⟩) s = .next t)
      ∧ (writeSlot s (s.filter f) (l % 16) frame = none → exec (.ingressFrame l ⟨frame, true⟩) s
        = .next (s.setFilter f { s.filter f with drops := satInc (s.filter f).drops }))

/-- The host (18 R372, R373): an access through the HDM decoder reaches near DRAM, where it is backed; in a partition that is
resetting a read gets data marked poisoned and a write is dropped. Every other address is of the host's own memory (log 25). A write
writes its bytes and no others, and takes the poison of a unit of 8 bytes once no poisoned byte of it is left; a snoop changes
nothing. -/
def Sys2Proof.Claim.HostAccesses : Prop :=
  (∀ (s : State) (addr n : Nat) (bs : List Byte),
    let told := fun (a : HostAnswer) => (Host.Outcome.next { s with hostAnswer := some a } : Out)
    let read := exec (.hostMemAccess addr none n) s
    let write := exec (.hostMemAccess addr (some bs) n) s
    exec (.hostSnoop addr) s = .next s
    ∧ (hdmPlace s addr = none → addr + n ≤ hostStart → read = told (.data (cellsBytes s.mem (hostStart + addr) n) false))
    ∧ (hdmPlace s addr = none → addr + bs.length ≤ hostStart → write = .next (hostWrite s (hostStart + addr) bs))
    ∧ (hdmPlace s addr = none → hostStart < addr + n → read = told .unsupported)
    ∧ ∀ a, hdmPlace s addr = some a →
      let resets := ∃ p, partOfDie s (a / Config.nearBytes) = some p ∧ (s.part p).state = .resetting
      let backed := Config.nearBytes - unbacked s (a / Config.nearBytes)
      (resets → write = .next s ∧ ∃ d, read = told (.data d true))
      ∧ (¬resets → a % Config.nearBytes + bs.length ≤ backed → write = .next (hostWrite s a bs))
      ∧ (¬resets → a % Config.nearBytes + n ≤ backed →
        read = told (.data (cellsBytes s.mem a n) ((List.range n).any fun i => s.poison.contains (a + i)))))
  ∧ (∀ (s : State) (base addr : Nat), s.hdmBase = some base → base ≤ addr → addr < base + 8 * Config.nearBytes →
    hdmPlace s addr = some (addr - base))
  ∧ ∀ (s : State) (a : Nat) (bs : List Byte), Memory.wf s.mem = true →
    (∀ i < bs.length, cellsGet (hostWrite s a bs).mem (a + i) = bs.getD i 0)
    ∧ (∀ x, x < a ∨ a + bs.length ≤ x → cellsGet (hostWrite s a bs).mem x = cellsGet s.mem x)
    ∧ ∀ x, x ∈ (hostWrite s a bs).poison ↔
        x ∈ s.poison ∧ ∃ y ∈ s.poison, y / 8 = x / 8 ∧ (y < a ∨ a + bs.length ≤ y)

/-- What leaves for another device goes over the link that leads to it, while that is up in fabric mode, and is lost otherwise (18
R374; the routes and the messages' layout are the model's choice, log 95). -/
def Sys2Proof.Claim.MessagesLeave : Prop :=
  ∀ (s : State) (target : BitVec 12) (seq : BitVec 32) (body : FabricBody),
    (∀ r, s.routes.find? (fun x => x.1 == target) = some r → (s.link r.2).state = stateUp → (s.link r.2).ethernet = false →
      emit s target seq body = { s with
        fabricOut := s.fabricOut ++ [{ link := r.2 % 16, target := target, seq := seq, body := body }] })
    ∧ ((∀ r, s.routes.find? (fun x => x.1 == target) = some r → (s.link r.2).state ≠ stateUp ∨ (s.link r.2).ethernet = true) →
      emit s target seq body = s)
    ∧ let r := takeSeq s target
      ({ r.2 with nextSeq := s.nextSeq } = s ∧ (takeSeq r.2 target).1 = r.1 + 1)
      ∧ ∀ other, other ≠ target → (takeSeq r.2 other).1 = (takeSeq s other).1

/-- Requests of other devices (18 R377 to R379), each answered to its source under its number: a PUT stores, a GET reads, an ATOMIC
is performed once and its old value cached under its sender and number, while the cache has an entry free, and answered from the
cache when it comes again; what meets a fault that can be served is held for it, and what comes from the same source after it waits
behind it; a request for a context that is not open, and one whose access meets another fault, is REFUSED. -/
def Sys2Proof.Claim.RemoteRequests : Prop :=
  ∀ (s : State) (req : RemoteReq), let v : View := ctxView req.part req.ctx
    let run := exec (.remoteRequest req) s
    let answer := fun (t : State) (done again : Bool) (old : Word) (data : List Byte) =>
      (Host.Outcome.next (emit t req.src req.seq (.answer done again old data)) : Out)
    let waits := s.remoteHeld.any fun r => r.src == req.src
    (waits = true → run = .next { s with remoteHeld := s.remoteHeld ++ [req] })
    ∧ (waits = false → remoteOpen s req.part req.ctx = false → run = answer s false false 0 [])
    ∧ (waits = false → remoteOpen s req.part req.ctx = true →
      (∀ addr data t, req.kind = .put addr data →
        (storeBytes s v addr.toNat data = (t, none) → run = answer t true false 0 [])
        ∧ ∀ f, storeBytes s v addr.toNat data = (t, some f) →
          (∀ level entry, f.kind = .serviceable level entry → run = .next (holdRemote t req f))
          ∧ ∀ code, f.kind = .program code → run = answer t false false 0 [])
      ∧ (∀ addr len, req.kind = .get addr len →
        (∀ bs t, loadBytes s v addr.toNat len = .inl (bs, t) → run = answer t true false 0 bs)
        ∧ ∀ f, loadBytes s v addr.toNat len = .inr f →
          (∀ level entry, f.kind = .serviceable level entry → run = .next (holdRemote s req f))
          ∧ ∀ code, f.kind = .program code → run = answer s false false 0 [])
      ∧ ∀ aop width addr x q, req.kind = .atomic aop width addr x q →
        let known := s.results.find? fun r => r.src == req.src && r.seq == req.seq
        (∀ r, known = some r → run = answer s true false r.old [])
        ∧ (known = none → 4096 ≤ youngResults s → run = answer s false true 0 [])
        ∧ (known = none → youngResults s < 4096 →
          (∀ f, fabricAtomic s v aop.toNat width addr x q = .inr f →
            (∀ level entry, f.kind = .serviceable level entry → run = .next (holdRemote s req f))
            ∧ ∀ code, f.kind = .program code → run = answer s false false 0 [])
          ∧ ∀ old t, fabricAtomic s v aop.toNat width addr x q = .inl (old, t) →
            ∃ u, run = answer { t with results := u } true false (BitVec.ofNat 64 old) [] ∧ u.getLast? =
              some { src := req.src, seq := req.seq, old := BitVec.ofNat 64 old, performedAt := s.time }))

/-- What comes back to this device's own requests (18 R376 to R384): a PUT's token is its length, a GET's bytes, an ATOMIC's record
and an ALLREDUCE's header and result are stored before their token, a MULTICAST's at its receivers, with the mirror at the buddy; a
refusal ends with −2, or with −4 for a member of a reduction or MULTICAST; one that says that the target's cache was full is counted;
a request is sent again under its number and given up with −4, an ATOMIC with a record: refused where every send was, else
indeterminate. What comes for a captured block's operation is kept (the tokens are log 39, the count of a MULTICAST's requests
log 43). In a block that is no twin. -/
def Sys2Proof.Claim.OwnRequests : Prop :=
  (∀ (s : State) (op : Nat) (o : EngOp) (b : Block) (c : Coll) (g : FabricGroup), outstanding s op = some (o, b, c, g) →
    (∀ r : RemoteResp, r.op = op →
      let again := r.done = false ∧ c.op = 2 ∧ r.data ≠ []
      let more := r.done = true ∧ awaitsMore s o c g = true
      (again → exec (.remoteResponse r) s = .next { s with
        outbound := s.outbound.map fun x => if x.op = op then { x with refusals := x.refusals + 1 } else x })
      ∧ (more → exec (.remoteResponse r) s = .next { s with outbound := dropFirst op s.outbound })
      ∧ (¬again → ¬more → twinned b = false →
        let o2 : EngOp := { o with progress := 2, wrote := 0 }
        let s1 : State := { s.setOp o2 with
          outbound := s.outbound.filter fun x => x.op != o.id, respHeld := (s.respHeld.filter fun x => x.op != o.id) ++ [r] }
        exec (.remoteResponse r) s = .next (deliverOwn s1 b o2 (responseWrites c g r).1 (responseWrites c g r).2)))
    ∧ (∀ y, (s.outbound.filter fun x => x.op == op) = [y] → exec (.remoteRetransmit op) s
      = .next { emit s y.target y.seq y.body with
        outbound := s.outbound.map fun x => if x.op = op then { x with sends := x.sends + 1, lastAt := s.time } else x })
    ∧ (c.op ≠ 2 → exec (.remoteGiveUp op) s = .next (endOp s op (BitVec.ofInt 64 (-4))))
    ∧ (c.op = 2 → exec (.remoteGiveUp op) s = .next (deliverOwn s b o [(c.locAddr, atomicRecord c.b2 0
        (if s.outbound.any fun x => x.op == op && decide (x.sends ≤ x.refusals) then 2 else 1))] 16)))
  ∧ (∀ (c : Coll) (g : FabricGroup) (r : RemoteResp), let w := responseWrites c g r
    (c.op = 0 → r.done = true → w = ([], BitVec.ofNat 64 c.len))
    ∧ (c.op = 1 → r.done = true → w = ([(c.locAddr, r.data.take c.len)], BitVec.ofNat 64 c.len))
    ∧ (c.op ≤ 1 → r.done = false → w = ([], BitVec.ofInt 64 (-2)))
    ∧ (c.op = 2 → w = ([(c.locAddr, atomicRecord c.b2 r.old (if r.done then 0 else 2))], 16))
    ∧ (3 ≤ c.op → r.done = false → w = ([], BitVec.ofInt 64 (-4)))
    ∧ (c.op = 3 → r.done = true → w = ([], 0))
    ∧ (c.op = 4 → r.done = true → w = ([(c.hdr, r.data.take 16), (c.dst, (r.data.drop 16).take c.resultBytes)],
        BitVec.ofNat 64 c.resultBytes))
    ∧ (c.op = 5 → r.done = true → g.rank = c.peer → w = ([], BitVec.ofNat 64 c.len))
    ∧ (c.op = 5 → r.done = true → g.rank ≠ c.peer → g.rank ≠ c.buddy →
      w = ([(c.dst, r.data.take c.len)], BitVec.ofNat 64 c.len))
    ∧ (c.op = 5 → r.done = true → g.rank ≠ c.peer → g.rank = c.buddy →
      w = ([(c.mirror, r.data.take (c.len + c.w48)), (c.dst, r.data.take c.len)], BitVec.ofNat 64 c.len)))
  ∧ (∀ (s : State) (b : Block) (o : EngOp) (val : Word), twinned b = false → o.wrote = 0 →
    (deliverOwn s b o [] val).ops = (s.ops.map fun x => if x.id = o.id then { o with result := some val } else x)
    ∧ ∀ (va : Nat) (bs : List Byte) (t : State), storeBytes s b.view va bs = (t, none) →
      (deliverOwn s b o [(va, bs)] val).mem = t.mem ∧ (deliverOwn s b o [(va, bs)] val).atelier = t.atelier
      ∧ ∀ x ∈ (deliverOwn s b o [(va, bs)] val).ops, x.id = o.id → x.result = some val)
  ∧ (∀ (s : State) (r : RemoteResp), outstanding s r.op = none → capturedOp s r.op = true →
    (s.respHeld.any fun x => x.op == r.op) = false → exec (.remoteResponse r) s = .next { s with
      outbound := s.outbound.filter fun x => x.op != r.op, respHeld := s.respHeld ++ [r] })
  ∧ ∀ (width : Nat) (old : Word) (status : Nat),
    atomicRecord width old 0 = leBytes 8 (old.toNat % 2 ^ (8 * width)) ++ leBytes 8 0
    ∧ (status ≠ 0 → atomicRecord width old status = leBytes 8 0 ++ leBytes 8 status)

/-- Reductions at this root (18 R381 to R383): a member's first contribution counts, a second one does not, and the last one
closes the step; one that comes after its step has completed without it is told so (a number used again is the model's choice,
log 84); the quorum timer closes a step with what it has where enough members came and their fields agree, if that is not
the host's to decide, else without a result. -/
def Sys2Proof.Claim.RootReductions : Prop :=
  (∀ (s : State) (con : Contribution) (g : FabricGroup), fabricGroup s con.part con.group = some g →
    let mine := fun (x : Reduction) => x.isStep con.part con.group con.step && !x.closed
    (∀ r, s.reductions.find? mine = some r →
      let r1 : Reduction := { r with
        got := r.got ++ [(con.rank, con.vals)], mismatch := r.mismatch || r.key != con.key }
      let s1 : State := { s with reductions := s.reductions.map fun x => if mine x then r1 else x }
      ((r.got.any fun x => x.1 == con.rank) = true → exec (.reduceContribution con) s = .next s)
      ∧ ((r.got.any fun x => x.1 == con.rank) = false → exec (.reduceContribution con) s
        = .next (if reductionFull s1 r1 then closeReduction s1 r1 (!r1.mismatch) else s1)))
    ∧ (s.reductions.find? mine = none → missedStep s con.part con.group con.step con.rank = true →
      exec (.reduceContribution con) s
        = .next (emit s (g.fids.getD con.rank 0) 0 (.result con.group con.step false [])))
    ∧ (s.reductions.find? mine = none → missedStep s con.part con.group con.step con.rank = false → 1 < g.n → ∃ r : Reduction, r.got = [(con.rank, con.vals)] ∧ r.members = g.n
      ∧ r.key = con.key ∧ r.closed = false ∧ mine r = true
      ∧ exec (.reduceContribution con) s = .next { s with reductions := s.reductions ++ [r] }))
  ∧ ∀ (s : State) (group step : Nat) (r : Reduction),
    (s.reductions.find? fun x => x.group == group && x.step == step && quorumOver s x) = some r →
    let enough := decide (r.minc ≤ r.got.length) && !r.mismatch
    ((enough = false ∨ hostAssisted s r.part 5 = false) →
      exec (.quorumTimeout group step) s = .next (closeReduction s r enough))
    ∧ (enough = true → hostAssisted s r.part 5 = true →
      exec (.quorumTimeout group step) s = .next (postAssist s r.part 5 (((rootOp s r).map fun x => x.1.ctx).getD 0)
        (group * 2 ^ 32 + step) (leBytes 2 group ++ leBytes 4 step)).1)

/-- Links, the clock, ingress, the host and the fabric: linkControlWrite, fidWrite, linkTraining, flitReplay and linkFailed
(18 R374), ptpLatch, ptpStep and ptpMessage (18 R385), ingressFrame (18 R386), hostMemAccess and hostSnoop (18 R372),
remoteRequest (18 R377), remoteResponse, remoteRetransmit and remoteGiveUp (18 R379), reduceContribution and quorumTimeout
(18 R381, R383). On the state and operands each part names, exec answers the next state it gives. -/
def Obligations.FabricAndHostEvents : Prop :=
  Claim.LinkStates ∧ Claim.ClockAndFrames ∧ Claim.IngressFrames ∧ Claim.HostAccesses ∧ Claim.MessagesLeave
  ∧ Claim.RemoteRequests ∧ Claim.OwnRequests ∧ Claim.RootReductions
end

