-- ==== Sys2Proof/Laws/Memory.lean ====
section
/-! SUPPORT. Laws of memory in canonical form: every operation on bytes keeps the form, a byte written reads back, and the other
bytes read as before. -/

namespace Sys2Proof.Laws

open Sys2Proof.Machine

/-! ## The canonical form -/

theorem cellsFrom_mono : ∀ {m : Cells} {lo lo' : Nat}, lo' ≤ lo → cellsFrom lo m = true → cellsFrom lo' m = true
  | [], _, _, _, _ => rfl
  | (_, _) :: _, _, _, h, hm => by
    simp only [cellsFrom, Bool.and_eq_true, decide_eq_true_eq] at hm ⊢
    exact ⟨⟨by omega, hm.1.2⟩, hm.2⟩

theorem cellsFrom_set : ∀ {m : Cells} {lo a : Nat} {v : Byte}, cellsFrom lo m = true → lo ≤ a →
    cellsFrom lo (cellsSet m a v) = true
  | [], lo, a, v, _, ha => by
    unfold cellsSet
    split
    · rfl
    · simp_all [cellsFrom]
  | (x, w) :: rest, lo, a, v, hm, ha => by
    have hm' := hm
    simp only [cellsFrom, Bool.and_eq_true, decide_eq_true_eq] at hm'
    obtain ⟨⟨h1, h2⟩, h3⟩ := hm'
    unfold cellsSet
    split
    · split
      · exact hm
      · simp only [cellsFrom, Bool.and_eq_true, decide_eq_true_eq]
        exact ⟨⟨ha, by assumption⟩, ⟨by omega, h2⟩, h3⟩
    · split
      · split
        · exact cellsFrom_mono (by omega) h3
        · subst a
          simp only [cellsFrom, Bool.and_eq_true, decide_eq_true_eq]
          exact ⟨⟨ha, by assumption⟩, h3⟩
      · simp only [cellsFrom, Bool.and_eq_true, decide_eq_true_eq]
        exact ⟨⟨h1, h2⟩, cellsFrom_set h3 (by omega)⟩

theorem cellsFrom_filter (p : Nat → Bool) : ∀ {m : Cells} {lo : Nat}, cellsFrom lo m = true →
    cellsFrom lo (m.filter fun c => p c.1) = true
  | [], _, _ => rfl
  | (x, w) :: rest, lo, hm => by
    simp only [cellsFrom, Bool.and_eq_true, decide_eq_true_eq] at hm
    simp only [List.filter_cons]
    split
    · simp only [cellsFrom, Bool.and_eq_true, decide_eq_true_eq]
      exact ⟨hm.1, cellsFrom_filter p hm.2⟩
    · exact cellsFrom_mono (by omega) (cellsFrom_filter p hm.2)

theorem wf_set {m : Cells} (a : Nat) (v : Byte) (h : Memory.wf m = true) : Memory.wf (cellsSet m a v) = true :=
  cellsFrom_set h (Nat.zero_le a)

theorem wf_filter {m : Cells} (p : Nat → Bool) (h : Memory.wf m = true) : Memory.wf (m.filter fun c => p c.1) = true :=
  cellsFrom_filter p h

theorem wf_clear {m : Cells} (lo hi : Nat) (h : Memory.wf m = true) : Memory.wf (cellsClear m lo hi) = true :=
  cellsFrom_filter (fun a => decide (a < lo) || decide (hi ≤ a)) h

theorem wf_write : ∀ (n : Nat) {m : Cells} (a v : Nat), Memory.wf m = true → Memory.wf (cellsWrite m a n v) = true
  | 0, _, _, _, h => h
  | n + 1, _, a, v, h => wf_write n (a + 1) (v / 256) (wf_set a (BitVec.ofNat 8 v) h)

theorem wf_put : ∀ (bs : List Byte) {m : Cells} (a : Nat), Memory.wf m = true → Memory.wf (cellsPut m a bs) = true
  | [], _, _, h => h
  | b :: bs, _, a, h => wf_put bs (a + 1) (wf_set a b h)

theorem wf_move {m : Cells} (src dst n : Nat) (h : Memory.wf m = true) : Memory.wf (cellsMove m src dst n) = true := by
  have fold : ∀ (l : Cells) (m : Cells), Memory.wf m = true →
      Memory.wf (l.foldl (fun m c => cellsSet m (c.1 - src + dst) c.2) m) = true := by
    intro l
    induction l with
    | nil => intro m h; exact h
    | cons c l ih => intro m h; exact ih _ (wf_set _ _ h)
  exact fold _ _ (wf_clear _ _ (wf_clear _ _ h))

/-! ## Reading what was written -/

/-- Below its first address a canonical memory holds blank bytes. -/
theorem get_below : ∀ {m : Cells} {lo a : Nat}, cellsFrom lo m = true → a < lo → cellsGet m a = Config.blankByte
  | [], _, _, _, _ => rfl
  | (x, w) :: rest, lo, a, hm, ha => by
    simp only [cellsFrom, Bool.and_eq_true, decide_eq_true_eq] at hm
    simp only [cellsGet]
    rw [if_neg (by omega)]
    exact get_below hm.2 (by omega)

theorem get_set_from : ∀ {m : Cells} {lo a b : Nat} {v : Byte}, cellsFrom lo m = true →
    cellsGet (cellsSet m a v) b = if b = a then v else cellsGet m b
  | [], _, a, b, v, _ => by
    simp only [cellsSet]
    by_cases hv : v = Config.blankByte <;> by_cases hb : b = a
    · simp [cellsGet, hv]
    · simp [cellsGet, hv]
    · simp [cellsGet, hv, hb]
    · have hb' : ¬a = b := fun h => hb h.symm
      simp [cellsGet, hv, hb, hb']
  | (x, w) :: rest, lo, a, b, v, hm => by
    simp only [cellsFrom, Bool.and_eq_true, decide_eq_true_eq] at hm
    obtain ⟨⟨h1, h2⟩, h3⟩ := hm
    have low : ∀ c, c ≤ x → cellsGet rest c = Config.blankByte := fun c hc => get_below h3 (by omega)
    simp only [cellsSet]
    by_cases e1 : a < x
    · rw [if_pos e1]
      by_cases hv : v = Config.blankByte
      · rw [if_pos hv]
        by_cases hb : b = a
        · subst hb
          have hx : x ≠ b := by omega
          simp [cellsGet, low b (by omega), hv, hx]
        · rw [if_neg hb]
      · rw [if_neg hv]
        simp only [cellsGet, eq_comm (a := a)]
    · rw [if_neg e1]
      by_cases e2 : a = x
      · subst e2
        rw [if_pos rfl]
        by_cases hb : b = a
        · subst hb
          by_cases hv : v = Config.blankByte <;> simp [cellsGet, hv, low]
        · have hb' : a ≠ b := fun h => hb h.symm
          by_cases hv : v = Config.blankByte <;> simp [cellsGet, hv, hb, hb']
      · rw [if_neg e2]
        simp only [cellsGet, get_set_from h3]
        by_cases hb : x = b
        · subst hb
          have : ¬x = a := fun h => e2 h.symm
          simp [this]
        · simp [hb]

/-- A byte written reads back; every other byte reads as before. -/
theorem get_set {m : Cells} (a b : Nat) (v : Byte) (h : Memory.wf m = true) :
    cellsGet (cellsSet m a v) b = if b = a then v else cellsGet m b := get_set_from h

theorem get_filter (p : Nat → Bool) : ∀ (m : Cells) (a : Nat),
    cellsGet (m.filter fun c => p c.1) a = if p a then cellsGet m a else Config.blankByte
  | [], a => by simp [cellsGet]
  | (x, w) :: rest, a => by
    simp only [List.filter_cons]
    split
    · simp only [cellsGet, get_filter p rest a]
      by_cases hx : x = a
      · subst hx; simp_all
      · simp [hx]
    · rw [get_filter p rest a]
      simp only [cellsGet]
      by_cases hx : x = a
      · subst hx; simp_all
      · simp [hx]

theorem get_clear (m : Cells) (lo hi a : Nat) :
    cellsGet (cellsClear m lo hi) a = if lo ≤ a ∧ a < hi then Config.blankByte else cellsGet m a := by
  simp only [cellsClear]
  rw [get_filter (fun c => decide (c < lo) || decide (hi ≤ c)) m a]
  by_cases h1 : lo ≤ a <;> by_cases h2 : a < hi <;> simp [h1, h2] <;> omega

theorem get_put : ∀ (bs : List Byte) {m : Cells} (a b : Nat), Memory.wf m = true →
    cellsGet (cellsPut m a bs) b = if a ≤ b ∧ b < a + bs.length then bs.getD (b - a) 0 else cellsGet m b
  | [], m, a, b, _ => by
    rw [if_neg (by simp only [List.length_nil]; omega)]
    rfl
  | v :: bs, m, a, b, h => by
    simp only [cellsPut, get_put bs (a + 1) b (wf_set a v h), get_set _ _ _ h, List.length_cons]
    rcases Nat.lt_trichotomy b a with h1 | h1 | h1
    · have h2 : ¬b = a := by omega
      have h3 : ¬a ≤ b := by omega
      have h4 : ¬a + 1 ≤ b := by omega
      simp [h2, h3, h4]
    · subst h1
      have h2 : ¬b + 1 ≤ b := by omega
      simp [h2]
    · have h2 : ¬b = a := by omega
      have h3 : b - a = (b - (a + 1)) + 1 := by omega
      have h4 : a ≤ b := by omega
      have h5 : a + 1 ≤ b := by omega
      simp only [h2, h4, h5, true_and, if_false]
      by_cases h6 : b < a + 1 + bs.length
      · rw [if_pos h6, if_pos (by omega), h3]
        rfl
      · rw [if_neg h6, if_neg (by omega)]

/-- A number written outside a byte's place leaves the byte. -/
theorem get_write_outside : ∀ (n : Nat) {m : Cells} (a v b : Nat), Memory.wf m = true → b < a ∨ a + n ≤ b →
    cellsGet (cellsWrite m a n v) b = cellsGet m b
  | 0, _, _, _, _, _, _ => rfl
  | n + 1, m, a, v, b, h, hb => by
    simp only [cellsWrite]
    rw [get_write_outside n (a + 1) (v / 256) b (wf_set a _ h) (by omega), get_set _ _ _ h, if_neg (by omega)]

theorem read_write_outside : ∀ (k n : Nat) {m : Cells} (a v b : Nat), Memory.wf m = true → b + k ≤ a ∨ a + n ≤ b →
    cellsRead (cellsWrite m a n v) b k = cellsRead m b k
  | 0, _, _, _, _, _, _, _ => rfl
  | k + 1, n, m, a, v, b, h, hb => by
    simp only [cellsRead]
    rw [get_write_outside n a v b h (by omega), read_write_outside k n a v (b + 1) h (by omega)]

/-- Little-endian: n bytes written read back as the number modulo 256 ^ n. -/
theorem read_write : ∀ (n : Nat) {m : Cells} (a v : Nat), Memory.wf m = true →
    cellsRead (cellsWrite m a n v) a n = v % 256 ^ n
  | 0, _, _, v, _ => by simp [cellsRead, Nat.mod_one]
  | n + 1, m, a, v, h => by
    simp only [cellsRead, cellsWrite]
    rw [get_write_outside n (a + 1) (v / 256) a (wf_set a _ h) (by omega), get_set _ _ _ h, if_pos rfl,
      read_write n (a + 1) (v / 256) (wf_set a _ h)]
    simp only [BitVec.toNat_ofNat]
    rw [show 256 ^ (n + 1) = 256 * 256 ^ n from by rw [Nat.pow_succ, Nat.mul_comm], Nat.mod_mul]

/-- Canonical memories that read alike are the same list. -/
theorem ext_from : ∀ {m k : Cells} {lo : Nat}, cellsFrom lo m = true → cellsFrom lo k = true →
    (∀ a, cellsGet m a = cellsGet k a) → m = k
  | [], [], _, _, _, _ => rfl
  | [], (y, w) :: k, lo, _, hk, h => by
    simp only [cellsFrom, Bool.and_eq_true, decide_eq_true_eq] at hk
    have := h y
    simp only [cellsGet, if_pos] at this
    exact absurd this.symm hk.1.2
  | (x, v) :: m, [], lo, hm, _, h => by
    simp only [cellsFrom, Bool.and_eq_true, decide_eq_true_eq] at hm
    have := h x
    simp only [cellsGet, if_pos] at this
    exact absurd this hm.1.2
  | (x, v) :: m, (y, w) :: k, lo, hm, hk, h => by
    simp only [cellsFrom, Bool.and_eq_true, decide_eq_true_eq] at hm hk
    have hx := h x
    have hy := h y
    simp only [cellsGet, if_pos] at hx hy
    rcases Nat.lt_trichotomy x y with hxy | hxy | hxy
    · rw [if_neg (by omega), get_below hk.2 (by omega)] at hx
      exact absurd hx hm.1.2
    · subst hxy
      rw [if_pos rfl] at hx
      subst hx
      have : m = k := by
        refine ext_from hm.2 hk.2 fun a => ?_
        by_cases ha : x = a
        · subst ha
          rw [get_below hm.2 (by omega), get_below hk.2 (by omega)]
        · have := h a
          simpa only [cellsGet, if_neg ha] using this
      rw [this]
    · rw [if_neg (by omega), get_below hm.2 (by omega)] at hy
      exact absurd hy.symm hk.1.2

theorem ext_get {m k : Cells} (hm : Memory.wf m = true) (hk : Memory.wf k = true)
    (h : ∀ a, cellsGet m a = cellsGet k a) : m = k := ext_from hm hk h

/-! ## Memory and atelier of the state -/

/-- Memory and atelier are in canonical form. -/
structure Canon (s : State) : Prop where
  mem : Memory.wf s.mem = true
  atelier : Memory.wf s.atelier = true

theorem canon_reset : Canon State.reset := ⟨rfl, rfl⟩

theorem canon_setAD {s : State} (h : Canon s) (l : Leaf) (w : Bool) : Canon (setAD s l w) := by
  simp only [setAD]
  generalize (l.entry ||| 0x100#64 ||| if w then 0x200#64 else 0) = e
  by_cases he : e = l.entry
  · rw [if_pos he]
    exact h
  · rw [if_neg he]
    exact ⟨wf_write 8 _ _ h.mem, h.atelier⟩

theorem canon_touch (w : Bool) : ∀ (ls : List Located) {s : State}, Canon s → Canon (touch s w ls)
  | [], _, h => h
  | l :: rest, s, h => by
    simp only [touch]
    split
    · exact canon_touch w rest h
    · refine canon_touch w rest ?_
      split
      · exact canon_setAD h _ _
      · exact h

theorem canon_placeSet {s : State} (h : Canon s) (p : Place) (v : Byte) : Canon (placeSet s p v) := by
  cases p with
  | phys a => exact ⟨wf_set _ _ h.mem, h.atelier⟩
  | atelier a => exact ⟨h.mem, wf_set _ _ h.atelier⟩
  | scratch b o =>
    simp only [placeSet]
    split
    · exact ⟨h.mem, h.atelier⟩
    · exact h

theorem canon_writePlaces : ∀ (ls : List Located) {s : State} (v : Nat), Canon s → Canon (writePlaces s ls v)
  | [], _, _, h => h
  | l :: rest, _, v, h => canon_writePlaces rest (v / 256) (canon_placeSet h l.place _)

theorem canon_noteWrite {s : State} (h : Canon s) (ls : List Located) : Canon (noteWrite s ls) := ⟨h.mem, h.atelier⟩

/-- A load that answers leaves memory canonical. -/
theorem canon_loadAt {s t : State} {v : View} {va n x : Nat} (h : Canon s) (e : loadAt s v va n = .inl (x, t)) : Canon t := by
  unfold loadAt at e
  split at e <;> try contradiction
  split at e <;> try contradiction
  split at e <;> try contradiction
  cases e
  exact canon_touch _ _ h

/-- A store that answers leaves memory canonical. -/
theorem canon_storeAt {s t : State} {v : View} {va n x : Nat} (h : Canon s) (e : storeAt s v va n x = .inl t) : Canon t := by
  unfold storeAt at e
  split at e <;> try contradiction
  split at e <;> try contradiction
  cases e
  exact canon_writePlaces _ _ (canon_touch _ _ (canon_noteWrite h _))

/-- An atomic that answers leaves memory canonical. -/
theorem canon_atomicAt {s t : State} {v : View} {va n x : Nat} {f : Nat → Option Nat} (h : Canon s)
    (e : atomicAt s v va n f = .inl (x, t)) : Canon t := by
  unfold atomicAt at e
  split at e <;> try contradiction
  split at e <;> try contradiction
  split at e <;> try contradiction
  simp only at e
  split at e
  · cases e
    exact canon_touch _ _ h
  · cases e
    exact canon_writePlaces _ _ (canon_touch _ _ (canon_noteWrite h _))

/-- A run of loads leaves memory canonical, faulting or not. -/
theorem canon_loadRun : ∀ (k : Nat) {s : State} (v : View) (va n : Nat), Canon s → Canon (loadRun s v k va n).2.1
  | 0, _, _, _, _, h => h
  | k + 1, s, v, va, n, h => by
    simp only [loadRun]
    split
    · exact h
    · split
      · exact h
      · rename_i e
        exact canon_loadRun k v _ _ (canon_loadAt h e)

/-- A run of stores leaves memory canonical, faulting or not. -/
theorem canon_storeRun : ∀ (k : Nat) {s : State} (v : View) (va : Nat) (bs : List Byte), Canon s →
    Canon (storeRun s v k va bs).1
  | 0, _, _, _, _, h => h
  | k + 1, s, v, va, bs, h => by
    simp only [storeRun]
    split
    · exact h
    · split
      · exact h
      · rename_i e
        exact canon_storeRun k v _ _ (canon_storeAt h e)

theorem canon_storeBytes {s : State} (v : View) (va : Nat) (bs : List Byte) (h : Canon s) : Canon (storeBytes s v va bs).1 :=
  canon_storeRun _ v va bs h

theorem canon_storeWhole {s t : State} {v : View} {va : Nat} {bs : List Byte} (h : Canon s)
    (e : storeWhole s v va bs = .inl t) : Canon t := by
  unfold storeWhole at e
  split at e <;> try contradiction
  split at e <;> try contradiction
  cases e
  exact canon_writePlaces _ _ (canon_touch _ _ (canon_noteWrite h _))

theorem canon_fetchAt {s t : State} {v : View} {va x : Nat} (h : Canon s) (e : fetchAt s v va = .inl (x, t)) : Canon t := by
  unfold fetchAt at e
  split at e <;> try contradiction
  split at e <;> try contradiction
  cases e
  exact canon_touch _ _ h

end Sys2Proof.Laws
end

