-- ==== Sys2Proof/Laws/State.lean ====
section
/-! SUPPORT. What each small update of the state, of a block and of a thread leaves alone, one lemma a field, and what reads back
after it. -/

namespace Sys2Proof.Laws

open Sys2Proof.Machine

/-! ## Updates of the state -/

@[simp] theorem setPart_cycle (s : State) (p : Nat) (x : Part) : (s.setPart p x).cycle = s.cycle := rfl
@[simp] theorem setPart_time (s : State) (p : Nat) (x : Part) : (s.setPart p x).time = s.time := rfl
@[simp] theorem setPart_freeCount (s : State) (p : Nat) (x : Part) : (s.setPart p x).freeCount = s.freeCount := rfl
@[simp] theorem setPart_nextId (s : State) (p : Nat) (x : Part) : (s.setPart p x).nextId = s.nextId := rfl
@[simp] theorem setPart_inbox (s : State) (p : Nat) (x : Part) : (s.setPart p x).inbox = s.inbox := rfl
@[simp] theorem setPart_cur (s : State) (p : Nat) (x : Part) : (s.setPart p x).cur = s.cur := rfl
@[simp] theorem setPart_group (s : State) (p : Nat) (x : Part) : (s.setPart p x).group = s.group := rfl
@[simp] theorem setPart_picked (s : State) (p : Nat) (x : Part) : (s.setPart p x).picked = s.picked := rfl
@[simp] theorem setPart_todo (s : State) (p : Nat) (x : Part) : (s.setPart p x).todo = s.todo := rfl
@[simp] theorem setPart_mem (s : State) (p : Nat) (x : Part) : (s.setPart p x).mem = s.mem := rfl
@[simp] theorem setPart_poison (s : State) (p : Nat) (x : Part) : (s.setPart p x).poison = s.poison := rfl
@[simp] theorem setPart_atelier (s : State) (p : Nat) (x : Part) : (s.setPart p x).atelier = s.atelier := rfl
@[simp] theorem setPart_atelierPoison (s : State) (p : Nat) (x : Part) : (s.setPart p x).atelierPoison = s.atelierPoison := rfl
@[simp] theorem setPart_atlSlices (s : State) (p : Nat) (x : Part) : (s.setPart p x).atlSlices = s.atlSlices := rfl
@[simp] theorem setPart_cores (s : State) (p : Nat) (x : Part) : (s.setPart p x).cores = s.cores := rfl
@[simp] theorem setPart_ctxs (s : State) (p : Nat) (x : Part) : (s.setPart p x).ctxs = s.ctxs := rfl
@[simp] theorem setPart_insts (s : State) (p : Nat) (x : Part) : (s.setPart p x).insts = s.insts := rfl
@[simp] theorem setPart_watch (s : State) (p : Nat) (x : Part) : (s.setPart p x).watch = s.watch := rfl
@[simp] theorem setPart_unarmed (s : State) (p : Nat) (x : Part) : (s.setPart p x).unarmed = s.unarmed := rfl
@[simp] theorem setPart_snooped (s : State) (p : Nat) (x : Part) : (s.setPart p x).snooped = s.snooped := rfl
@[simp] theorem setPart_closing (s : State) (p : Nat) (x : Part) : (s.setPart p x).closing = s.closing := rfl
@[simp] theorem setPart_packets (s : State) (p : Nat) (x : Part) : (s.setPart p x).packets = s.packets := rfl
@[simp] theorem setPart_launches (s : State) (p : Nat) (x : Part) : (s.setPart p x).launches = s.launches := rfl
@[simp] theorem setPart_clusters (s : State) (p : Nat) (x : Part) : (s.setPart p x).clusters = s.clusters := rfl
@[simp] theorem setPart_blocks (s : State) (p : Nat) (x : Part) : (s.setPart p x).blocks = s.blocks := rfl
@[simp] theorem setPart_captured (s : State) (p : Nat) (x : Part) : (s.setPart p x).captured = s.captured := rfl
@[simp] theorem setPart_prods (s : State) (p : Nat) (x : Part) : (s.setPart p x).prods = s.prods := rfl
@[simp] theorem setPart_ops (s : State) (p : Nat) (x : Part) : (s.setPart p x).ops = s.ops := rfl
@[simp] theorem setPart_faults (s : State) (p : Nat) (x : Part) : (s.setPart p x).faults = s.faults := rfl
@[simp] theorem setPart_pents (s : State) (p : Nat) (x : Part) : (s.setPart p x).pents = s.pents := rfl
@[simp] theorem setPart_commissions (s : State) (p : Nat) (x : Part) : (s.setPart p x).commissions = s.commissions := rfl
@[simp] theorem setPart_nodes (s : State) (p : Nat) (x : Part) : (s.setPart p x).nodes = s.nodes := rfl
@[simp] theorem setPart_repairs (s : State) (p : Nat) (x : Part) : (s.setPart p x).repairs = s.repairs := rfl
@[simp] theorem setPart_dramWant (s : State) (p : Nat) (x : Part) : (s.setPart p x).dramWant = s.dramWant := rfl
@[simp] theorem setPart_marks (s : State) (p : Nat) (x : Part) : (s.setPart p x).marks = s.marks := rfl
@[simp] theorem setPart_fills (s : State) (p : Nat) (x : Part) : (s.setPart p x).fills = s.fills := rfl
@[simp] theorem setPart_icache (s : State) (p : Nat) (x : Part) : (s.setPart p x).icache = s.icache := rfl
@[simp] theorem setPart_caps (s : State) (p : Nat) (x : Part) : (s.setPart p x).caps = s.caps := rfl
@[simp] theorem setPart_fabricOut (s : State) (p : Nat) (x : Part) : (s.setPart p x).fabricOut = s.fabricOut := rfl
@[simp] theorem setPart_routes (s : State) (p : Nat) (x : Part) : (s.setPart p x).routes = s.routes := rfl
@[simp] theorem setPart_hostAnswer (s : State) (p : Nat) (x : Part) : (s.setPart p x).hostAnswer = s.hostAnswer := rfl
@[simp] theorem setPart_hdmBase (s : State) (p : Nat) (x : Part) : (s.setPart p x).hdmBase = s.hdmBase := rfl
@[simp] theorem setPart_firmware (s : State) (p : Nat) (x : Part) : (s.setPart p x).firmware = s.firmware := rfl
@[simp] theorem setPart_nextSeq (s : State) (p : Nat) (x : Part) : (s.setPart p x).nextSeq = s.nextSeq := rfl
@[simp] theorem setPart_outbound (s : State) (p : Nat) (x : Part) : (s.setPart p x).outbound = s.outbound := rfl
@[simp] theorem setPart_results (s : State) (p : Nat) (x : Part) : (s.setPart p x).results = s.results := rfl
@[simp] theorem setPart_reductions (s : State) (p : Nat) (x : Part) : (s.setPart p x).reductions = s.reductions := rfl
@[simp] theorem setPart_remoteHeld (s : State) (p : Nat) (x : Part) : (s.setPart p x).remoteHeld = s.remoteHeld := rfl
@[simp] theorem setPart_respHeld (s : State) (p : Nat) (x : Part) : (s.setPart p x).respHeld = s.respHeld := rfl

@[simp] theorem setCtx_cycle (s : State) (c : Ctx) : (s.setCtx c).cycle = s.cycle := rfl
@[simp] theorem setCtx_time (s : State) (c : Ctx) : (s.setCtx c).time = s.time := rfl
@[simp] theorem setCtx_freeCount (s : State) (c : Ctx) : (s.setCtx c).freeCount = s.freeCount := rfl
@[simp] theorem setCtx_nextId (s : State) (c : Ctx) : (s.setCtx c).nextId = s.nextId := rfl
@[simp] theorem setCtx_inbox (s : State) (c : Ctx) : (s.setCtx c).inbox = s.inbox := rfl
@[simp] theorem setCtx_cur (s : State) (c : Ctx) : (s.setCtx c).cur = s.cur := rfl
@[simp] theorem setCtx_group (s : State) (c : Ctx) : (s.setCtx c).group = s.group := rfl
@[simp] theorem setCtx_picked (s : State) (c : Ctx) : (s.setCtx c).picked = s.picked := rfl
@[simp] theorem setCtx_todo (s : State) (c : Ctx) : (s.setCtx c).todo = s.todo := rfl
@[simp] theorem setCtx_mem (s : State) (c : Ctx) : (s.setCtx c).mem = s.mem := rfl
@[simp] theorem setCtx_poison (s : State) (c : Ctx) : (s.setCtx c).poison = s.poison := rfl
@[simp] theorem setCtx_atelier (s : State) (c : Ctx) : (s.setCtx c).atelier = s.atelier := rfl
@[simp] theorem setCtx_atelierPoison (s : State) (c : Ctx) : (s.setCtx c).atelierPoison = s.atelierPoison := rfl
@[simp] theorem setCtx_atlSlices (s : State) (c : Ctx) : (s.setCtx c).atlSlices = s.atlSlices := rfl
@[simp] theorem setCtx_cores (s : State) (c : Ctx) : (s.setCtx c).cores = s.cores := rfl
@[simp] theorem setCtx_parts (s : State) (c : Ctx) : (s.setCtx c).parts = s.parts := rfl
@[simp] theorem setCtx_insts (s : State) (c : Ctx) : (s.setCtx c).insts = s.insts := rfl
@[simp] theorem setCtx_watch (s : State) (c : Ctx) : (s.setCtx c).watch = s.watch := rfl
@[simp] theorem setCtx_unarmed (s : State) (c : Ctx) : (s.setCtx c).unarmed = s.unarmed := rfl
@[simp] theorem setCtx_snooped (s : State) (c : Ctx) : (s.setCtx c).snooped = s.snooped := rfl
@[simp] theorem setCtx_closing (s : State) (c : Ctx) : (s.setCtx c).closing = s.closing := rfl
@[simp] theorem setCtx_packets (s : State) (c : Ctx) : (s.setCtx c).packets = s.packets := rfl
@[simp] theorem setCtx_launches (s : State) (c : Ctx) : (s.setCtx c).launches = s.launches := rfl
@[simp] theorem setCtx_clusters (s : State) (c : Ctx) : (s.setCtx c).clusters = s.clusters := rfl
@[simp] theorem setCtx_blocks (s : State) (c : Ctx) : (s.setCtx c).blocks = s.blocks := rfl
@[simp] theorem setCtx_captured (s : State) (c : Ctx) : (s.setCtx c).captured = s.captured := rfl
@[simp] theorem setCtx_prods (s : State) (c : Ctx) : (s.setCtx c).prods = s.prods := rfl
@[simp] theorem setCtx_ops (s : State) (c : Ctx) : (s.setCtx c).ops = s.ops := rfl
@[simp] theorem setCtx_faults (s : State) (c : Ctx) : (s.setCtx c).faults = s.faults := rfl
@[simp] theorem setCtx_pents (s : State) (c : Ctx) : (s.setCtx c).pents = s.pents := rfl
@[simp] theorem setCtx_commissions (s : State) (c : Ctx) : (s.setCtx c).commissions = s.commissions := rfl
@[simp] theorem setCtx_nodes (s : State) (c : Ctx) : (s.setCtx c).nodes = s.nodes := rfl
@[simp] theorem setCtx_repairs (s : State) (c : Ctx) : (s.setCtx c).repairs = s.repairs := rfl
@[simp] theorem setCtx_dramWant (s : State) (c : Ctx) : (s.setCtx c).dramWant = s.dramWant := rfl
@[simp] theorem setCtx_marks (s : State) (c : Ctx) : (s.setCtx c).marks = s.marks := rfl
@[simp] theorem setCtx_fills (s : State) (c : Ctx) : (s.setCtx c).fills = s.fills := rfl
@[simp] theorem setCtx_icache (s : State) (c : Ctx) : (s.setCtx c).icache = s.icache := rfl
@[simp] theorem setCtx_caps (s : State) (c : Ctx) : (s.setCtx c).caps = s.caps := rfl
@[simp] theorem setCtx_fabricOut (s : State) (c : Ctx) : (s.setCtx c).fabricOut = s.fabricOut := rfl
@[simp] theorem setCtx_routes (s : State) (c : Ctx) : (s.setCtx c).routes = s.routes := rfl
@[simp] theorem setCtx_hostAnswer (s : State) (c : Ctx) : (s.setCtx c).hostAnswer = s.hostAnswer := rfl
@[simp] theorem setCtx_hdmBase (s : State) (c : Ctx) : (s.setCtx c).hdmBase = s.hdmBase := rfl
@[simp] theorem setCtx_firmware (s : State) (c : Ctx) : (s.setCtx c).firmware = s.firmware := rfl
@[simp] theorem setCtx_nextSeq (s : State) (c : Ctx) : (s.setCtx c).nextSeq = s.nextSeq := rfl
@[simp] theorem setCtx_outbound (s : State) (c : Ctx) : (s.setCtx c).outbound = s.outbound := rfl
@[simp] theorem setCtx_results (s : State) (c : Ctx) : (s.setCtx c).results = s.results := rfl
@[simp] theorem setCtx_reductions (s : State) (c : Ctx) : (s.setCtx c).reductions = s.reductions := rfl
@[simp] theorem setCtx_remoteHeld (s : State) (c : Ctx) : (s.setCtx c).remoteHeld = s.remoteHeld := rfl
@[simp] theorem setCtx_respHeld (s : State) (c : Ctx) : (s.setCtx c).respHeld = s.respHeld := rfl

@[simp] theorem setBlock_cycle (s : State) (b : Block) : (s.setBlock b).cycle = s.cycle := rfl
@[simp] theorem setBlock_time (s : State) (b : Block) : (s.setBlock b).time = s.time := rfl
@[simp] theorem setBlock_freeCount (s : State) (b : Block) : (s.setBlock b).freeCount = s.freeCount := rfl
@[simp] theorem setBlock_nextId (s : State) (b : Block) : (s.setBlock b).nextId = s.nextId := rfl
@[simp] theorem setBlock_inbox (s : State) (b : Block) : (s.setBlock b).inbox = s.inbox := rfl
@[simp] theorem setBlock_cur (s : State) (b : Block) : (s.setBlock b).cur = s.cur := rfl
@[simp] theorem setBlock_group (s : State) (b : Block) : (s.setBlock b).group = s.group := rfl
@[simp] theorem setBlock_picked (s : State) (b : Block) : (s.setBlock b).picked = s.picked := rfl
@[simp] theorem setBlock_todo (s : State) (b : Block) : (s.setBlock b).todo = s.todo := rfl
@[simp] theorem setBlock_mem (s : State) (b : Block) : (s.setBlock b).mem = s.mem := rfl
@[simp] theorem setBlock_poison (s : State) (b : Block) : (s.setBlock b).poison = s.poison := rfl
@[simp] theorem setBlock_atelier (s : State) (b : Block) : (s.setBlock b).atelier = s.atelier := rfl
@[simp] theorem setBlock_atelierPoison (s : State) (b : Block) : (s.setBlock b).atelierPoison = s.atelierPoison := rfl
@[simp] theorem setBlock_atlSlices (s : State) (b : Block) : (s.setBlock b).atlSlices = s.atlSlices := rfl
@[simp] theorem setBlock_cores (s : State) (b : Block) : (s.setBlock b).cores = s.cores := rfl
@[simp] theorem setBlock_parts (s : State) (b : Block) : (s.setBlock b).parts = s.parts := rfl
@[simp] theorem setBlock_ctxs (s : State) (b : Block) : (s.setBlock b).ctxs = s.ctxs := rfl
@[simp] theorem setBlock_insts (s : State) (b : Block) : (s.setBlock b).insts = s.insts := rfl
@[simp] theorem setBlock_watch (s : State) (b : Block) : (s.setBlock b).watch = s.watch := rfl
@[simp] theorem setBlock_unarmed (s : State) (b : Block) : (s.setBlock b).unarmed = s.unarmed := rfl
@[simp] theorem setBlock_snooped (s : State) (b : Block) : (s.setBlock b).snooped = s.snooped := rfl
@[simp] theorem setBlock_closing (s : State) (b : Block) : (s.setBlock b).closing = s.closing := rfl
@[simp] theorem setBlock_packets (s : State) (b : Block) : (s.setBlock b).packets = s.packets := rfl
@[simp] theorem setBlock_launches (s : State) (b : Block) : (s.setBlock b).launches = s.launches := rfl
@[simp] theorem setBlock_clusters (s : State) (b : Block) : (s.setBlock b).clusters = s.clusters := rfl
@[simp] theorem setBlock_captured (s : State) (b : Block) : (s.setBlock b).captured = s.captured := rfl
@[simp] theorem setBlock_prods (s : State) (b : Block) : (s.setBlock b).prods = s.prods := rfl
@[simp] theorem setBlock_ops (s : State) (b : Block) : (s.setBlock b).ops = s.ops := rfl
@[simp] theorem setBlock_faults (s : State) (b : Block) : (s.setBlock b).faults = s.faults := rfl
@[simp] theorem setBlock_pents (s : State) (b : Block) : (s.setBlock b).pents = s.pents := rfl
@[simp] theorem setBlock_commissions (s : State) (b : Block) : (s.setBlock b).commissions = s.commissions := rfl
@[simp] theorem setBlock_nodes (s : State) (b : Block) : (s.setBlock b).nodes = s.nodes := rfl
@[simp] theorem setBlock_repairs (s : State) (b : Block) : (s.setBlock b).repairs = s.repairs := rfl
@[simp] theorem setBlock_dramWant (s : State) (b : Block) : (s.setBlock b).dramWant = s.dramWant := rfl
@[simp] theorem setBlock_marks (s : State) (b : Block) : (s.setBlock b).marks = s.marks := rfl
@[simp] theorem setBlock_fills (s : State) (b : Block) : (s.setBlock b).fills = s.fills := rfl
@[simp] theorem setBlock_icache (s : State) (b : Block) : (s.setBlock b).icache = s.icache := rfl
@[simp] theorem setBlock_caps (s : State) (b : Block) : (s.setBlock b).caps = s.caps := rfl
@[simp] theorem setBlock_fabricOut (s : State) (b : Block) : (s.setBlock b).fabricOut = s.fabricOut := rfl
@[simp] theorem setBlock_routes (s : State) (b : Block) : (s.setBlock b).routes = s.routes := rfl
@[simp] theorem setBlock_hostAnswer (s : State) (b : Block) : (s.setBlock b).hostAnswer = s.hostAnswer := rfl
@[simp] theorem setBlock_hdmBase (s : State) (b : Block) : (s.setBlock b).hdmBase = s.hdmBase := rfl
@[simp] theorem setBlock_firmware (s : State) (b : Block) : (s.setBlock b).firmware = s.firmware := rfl
@[simp] theorem setBlock_nextSeq (s : State) (b : Block) : (s.setBlock b).nextSeq = s.nextSeq := rfl
@[simp] theorem setBlock_outbound (s : State) (b : Block) : (s.setBlock b).outbound = s.outbound := rfl
@[simp] theorem setBlock_results (s : State) (b : Block) : (s.setBlock b).results = s.results := rfl
@[simp] theorem setBlock_reductions (s : State) (b : Block) : (s.setBlock b).reductions = s.reductions := rfl
@[simp] theorem setBlock_remoteHeld (s : State) (b : Block) : (s.setBlock b).remoteHeld = s.remoteHeld := rfl
@[simp] theorem setBlock_respHeld (s : State) (b : Block) : (s.setBlock b).respHeld = s.respHeld := rfl

@[simp] theorem setThread_cycle (s : State) (n : Nat) (acc : Bool) (t : Thread) : (s.setThread n acc t).cycle = s.cycle := rfl
@[simp] theorem setThread_time (s : State) (n : Nat) (acc : Bool) (t : Thread) : (s.setThread n acc t).time = s.time := rfl
@[simp] theorem setThread_freeCount (s : State) (n : Nat) (acc : Bool) (t : Thread) : (s.setThread n acc t).freeCount = s.freeCount := rfl
@[simp] theorem setThread_nextId (s : State) (n : Nat) (acc : Bool) (t : Thread) : (s.setThread n acc t).nextId = s.nextId := rfl
@[simp] theorem setThread_inbox (s : State) (n : Nat) (acc : Bool) (t : Thread) : (s.setThread n acc t).inbox = s.inbox := rfl
@[simp] theorem setThread_cur (s : State) (n : Nat) (acc : Bool) (t : Thread) : (s.setThread n acc t).cur = s.cur := rfl
@[simp] theorem setThread_group (s : State) (n : Nat) (acc : Bool) (t : Thread) : (s.setThread n acc t).group = s.group := rfl
@[simp] theorem setThread_picked (s : State) (n : Nat) (acc : Bool) (t : Thread) : (s.setThread n acc t).picked = s.picked := rfl
@[simp] theorem setThread_todo (s : State) (n : Nat) (acc : Bool) (t : Thread) : (s.setThread n acc t).todo = s.todo := rfl
@[simp] theorem setThread_mem (s : State) (n : Nat) (acc : Bool) (t : Thread) : (s.setThread n acc t).mem = s.mem := rfl
@[simp] theorem setThread_poison (s : State) (n : Nat) (acc : Bool) (t : Thread) : (s.setThread n acc t).poison = s.poison := rfl
@[simp] theorem setThread_atelier (s : State) (n : Nat) (acc : Bool) (t : Thread) : (s.setThread n acc t).atelier = s.atelier := rfl
@[simp] theorem setThread_atelierPoison (s : State) (n : Nat) (acc : Bool) (t : Thread) : (s.setThread n acc t).atelierPoison = s.atelierPoison := rfl
@[simp] theorem setThread_atlSlices (s : State) (n : Nat) (acc : Bool) (t : Thread) : (s.setThread n acc t).atlSlices = s.atlSlices := rfl
@[simp] theorem setThread_cores (s : State) (n : Nat) (acc : Bool) (t : Thread) : (s.setThread n acc t).cores = s.cores := rfl
@[simp] theorem setThread_parts (s : State) (n : Nat) (acc : Bool) (t : Thread) : (s.setThread n acc t).parts = s.parts := rfl
@[simp] theorem setThread_ctxs (s : State) (n : Nat) (acc : Bool) (t : Thread) : (s.setThread n acc t).ctxs = s.ctxs := rfl
@[simp] theorem setThread_insts (s : State) (n : Nat) (acc : Bool) (t : Thread) : (s.setThread n acc t).insts = s.insts := rfl
@[simp] theorem setThread_watch (s : State) (n : Nat) (acc : Bool) (t : Thread) : (s.setThread n acc t).watch = s.watch := rfl
@[simp] theorem setThread_unarmed (s : State) (n : Nat) (acc : Bool) (t : Thread) : (s.setThread n acc t).unarmed = s.unarmed := rfl
@[simp] theorem setThread_snooped (s : State) (n : Nat) (acc : Bool) (t : Thread) : (s.setThread n acc t).snooped = s.snooped := rfl
@[simp] theorem setThread_closing (s : State) (n : Nat) (acc : Bool) (t : Thread) : (s.setThread n acc t).closing = s.closing := rfl
@[simp] theorem setThread_packets (s : State) (n : Nat) (acc : Bool) (t : Thread) : (s.setThread n acc t).packets = s.packets := rfl
@[simp] theorem setThread_launches (s : State) (n : Nat) (acc : Bool) (t : Thread) : (s.setThread n acc t).launches = s.launches := rfl
@[simp] theorem setThread_clusters (s : State) (n : Nat) (acc : Bool) (t : Thread) : (s.setThread n acc t).clusters = s.clusters := rfl
@[simp] theorem setThread_captured (s : State) (n : Nat) (acc : Bool) (t : Thread) : (s.setThread n acc t).captured = s.captured := rfl
@[simp] theorem setThread_prods (s : State) (n : Nat) (acc : Bool) (t : Thread) : (s.setThread n acc t).prods = s.prods := rfl
@[simp] theorem setThread_ops (s : State) (n : Nat) (acc : Bool) (t : Thread) : (s.setThread n acc t).ops = s.ops := rfl
@[simp] theorem setThread_faults (s : State) (n : Nat) (acc : Bool) (t : Thread) : (s.setThread n acc t).faults = s.faults := rfl
@[simp] theorem setThread_pents (s : State) (n : Nat) (acc : Bool) (t : Thread) : (s.setThread n acc t).pents = s.pents := rfl
@[simp] theorem setThread_commissions (s : State) (n : Nat) (acc : Bool) (t : Thread) : (s.setThread n acc t).commissions = s.commissions := rfl
@[simp] theorem setThread_nodes (s : State) (n : Nat) (acc : Bool) (t : Thread) : (s.setThread n acc t).nodes = s.nodes := rfl
@[simp] theorem setThread_repairs (s : State) (n : Nat) (acc : Bool) (t : Thread) : (s.setThread n acc t).repairs = s.repairs := rfl
@[simp] theorem setThread_dramWant (s : State) (n : Nat) (acc : Bool) (t : Thread) : (s.setThread n acc t).dramWant = s.dramWant := rfl
@[simp] theorem setThread_marks (s : State) (n : Nat) (acc : Bool) (t : Thread) : (s.setThread n acc t).marks = s.marks := rfl
@[simp] theorem setThread_fills (s : State) (n : Nat) (acc : Bool) (t : Thread) : (s.setThread n acc t).fills = s.fills := rfl
@[simp] theorem setThread_icache (s : State) (n : Nat) (acc : Bool) (t : Thread) : (s.setThread n acc t).icache = s.icache := rfl
@[simp] theorem setThread_caps (s : State) (n : Nat) (acc : Bool) (t : Thread) : (s.setThread n acc t).caps = s.caps := rfl
@[simp] theorem setThread_fabricOut (s : State) (n : Nat) (acc : Bool) (t : Thread) : (s.setThread n acc t).fabricOut = s.fabricOut := rfl
@[simp] theorem setThread_routes (s : State) (n : Nat) (acc : Bool) (t : Thread) : (s.setThread n acc t).routes = s.routes := rfl
@[simp] theorem setThread_hostAnswer (s : State) (n : Nat) (acc : Bool) (t : Thread) : (s.setThread n acc t).hostAnswer = s.hostAnswer := rfl
@[simp] theorem setThread_hdmBase (s : State) (n : Nat) (acc : Bool) (t : Thread) : (s.setThread n acc t).hdmBase = s.hdmBase := rfl
@[simp] theorem setThread_firmware (s : State) (n : Nat) (acc : Bool) (t : Thread) : (s.setThread n acc t).firmware = s.firmware := rfl
@[simp] theorem setThread_nextSeq (s : State) (n : Nat) (acc : Bool) (t : Thread) : (s.setThread n acc t).nextSeq = s.nextSeq := rfl
@[simp] theorem setThread_outbound (s : State) (n : Nat) (acc : Bool) (t : Thread) : (s.setThread n acc t).outbound = s.outbound := rfl
@[simp] theorem setThread_results (s : State) (n : Nat) (acc : Bool) (t : Thread) : (s.setThread n acc t).results = s.results := rfl
@[simp] theorem setThread_reductions (s : State) (n : Nat) (acc : Bool) (t : Thread) : (s.setThread n acc t).reductions = s.reductions := rfl
@[simp] theorem setThread_remoteHeld (s : State) (n : Nat) (acc : Bool) (t : Thread) : (s.setThread n acc t).remoteHeld = s.remoteHeld := rfl
@[simp] theorem setThread_respHeld (s : State) (n : Nat) (acc : Bool) (t : Thread) : (s.setThread n acc t).respHeld = s.respHeld := rfl

@[simp] theorem onBlock_cycle (s : State) (n : Nat) (f : Block → Block) : (s.onBlock n f).cycle = s.cycle := rfl
@[simp] theorem onBlock_time (s : State) (n : Nat) (f : Block → Block) : (s.onBlock n f).time = s.time := rfl
@[simp] theorem onBlock_freeCount (s : State) (n : Nat) (f : Block → Block) : (s.onBlock n f).freeCount = s.freeCount := rfl
@[simp] theorem onBlock_nextId (s : State) (n : Nat) (f : Block → Block) : (s.onBlock n f).nextId = s.nextId := rfl
@[simp] theorem onBlock_inbox (s : State) (n : Nat) (f : Block → Block) : (s.onBlock n f).inbox = s.inbox := rfl
@[simp] theorem onBlock_cur (s : State) (n : Nat) (f : Block → Block) : (s.onBlock n f).cur = s.cur := rfl
@[simp] theorem onBlock_group (s : State) (n : Nat) (f : Block → Block) : (s.onBlock n f).group = s.group := rfl
@[simp] theorem onBlock_picked (s : State) (n : Nat) (f : Block → Block) : (s.onBlock n f).picked = s.picked := rfl
@[simp] theorem onBlock_todo (s : State) (n : Nat) (f : Block → Block) : (s.onBlock n f).todo = s.todo := rfl
@[simp] theorem onBlock_mem (s : State) (n : Nat) (f : Block → Block) : (s.onBlock n f).mem = s.mem := rfl
@[simp] theorem onBlock_poison (s : State) (n : Nat) (f : Block → Block) : (s.onBlock n f).poison = s.poison := rfl
@[simp] theorem onBlock_atelier (s : State) (n : Nat) (f : Block → Block) : (s.onBlock n f).atelier = s.atelier := rfl
@[simp] theorem onBlock_atelierPoison (s : State) (n : Nat) (f : Block → Block) : (s.onBlock n f).atelierPoison = s.atelierPoison := rfl
@[simp] theorem onBlock_atlSlices (s : State) (n : Nat) (f : Block → Block) : (s.onBlock n f).atlSlices = s.atlSlices := rfl
@[simp] theorem onBlock_cores (s : State) (n : Nat) (f : Block → Block) : (s.onBlock n f).cores = s.cores := rfl
@[simp] theorem onBlock_parts (s : State) (n : Nat) (f : Block → Block) : (s.onBlock n f).parts = s.parts := rfl
@[simp] theorem onBlock_ctxs (s : State) (n : Nat) (f : Block → Block) : (s.onBlock n f).ctxs = s.ctxs := rfl
@[simp] theorem onBlock_insts (s : State) (n : Nat) (f : Block → Block) : (s.onBlock n f).insts = s.insts := rfl
@[simp] theorem onBlock_watch (s : State) (n : Nat) (f : Block → Block) : (s.onBlock n f).watch = s.watch := rfl
@[simp] theorem onBlock_unarmed (s : State) (n : Nat) (f : Block → Block) : (s.onBlock n f).unarmed = s.unarmed := rfl
@[simp] theorem onBlock_snooped (s : State) (n : Nat) (f : Block → Block) : (s.onBlock n f).snooped = s.snooped := rfl
@[simp] theorem onBlock_closing (s : State) (n : Nat) (f : Block → Block) : (s.onBlock n f).closing = s.closing := rfl
@[simp] theorem onBlock_packets (s : State) (n : Nat) (f : Block → Block) : (s.onBlock n f).packets = s.packets := rfl
@[simp] theorem onBlock_launches (s : State) (n : Nat) (f : Block → Block) : (s.onBlock n f).launches = s.launches := rfl
@[simp] theorem onBlock_clusters (s : State) (n : Nat) (f : Block → Block) : (s.onBlock n f).clusters = s.clusters := rfl
@[simp] theorem onBlock_captured (s : State) (n : Nat) (f : Block → Block) : (s.onBlock n f).captured = s.captured := rfl
@[simp] theorem onBlock_prods (s : State) (n : Nat) (f : Block → Block) : (s.onBlock n f).prods = s.prods := rfl
@[simp] theorem onBlock_ops (s : State) (n : Nat) (f : Block → Block) : (s.onBlock n f).ops = s.ops := rfl
@[simp] theorem onBlock_faults (s : State) (n : Nat) (f : Block → Block) : (s.onBlock n f).faults = s.faults := rfl
@[simp] theorem onBlock_pents (s : State) (n : Nat) (f : Block → Block) : (s.onBlock n f).pents = s.pents := rfl
@[simp] theorem onBlock_commissions (s : State) (n : Nat) (f : Block → Block) : (s.onBlock n f).commissions = s.commissions := rfl
@[simp] theorem onBlock_nodes (s : State) (n : Nat) (f : Block → Block) : (s.onBlock n f).nodes = s.nodes := rfl
@[simp] theorem onBlock_repairs (s : State) (n : Nat) (f : Block → Block) : (s.onBlock n f).repairs = s.repairs := rfl
@[simp] theorem onBlock_dramWant (s : State) (n : Nat) (f : Block → Block) : (s.onBlock n f).dramWant = s.dramWant := rfl
@[simp] theorem onBlock_marks (s : State) (n : Nat) (f : Block → Block) : (s.onBlock n f).marks = s.marks := rfl
@[simp] theorem onBlock_fills (s : State) (n : Nat) (f : Block → Block) : (s.onBlock n f).fills = s.fills := rfl
@[simp] theorem onBlock_icache (s : State) (n : Nat) (f : Block → Block) : (s.onBlock n f).icache = s.icache := rfl
@[simp] theorem onBlock_caps (s : State) (n : Nat) (f : Block → Block) : (s.onBlock n f).caps = s.caps := rfl
@[simp] theorem onBlock_fabricOut (s : State) (n : Nat) (f : Block → Block) : (s.onBlock n f).fabricOut = s.fabricOut := rfl
@[simp] theorem onBlock_routes (s : State) (n : Nat) (f : Block → Block) : (s.onBlock n f).routes = s.routes := rfl
@[simp] theorem onBlock_hostAnswer (s : State) (n : Nat) (f : Block → Block) : (s.onBlock n f).hostAnswer = s.hostAnswer := rfl
@[simp] theorem onBlock_hdmBase (s : State) (n : Nat) (f : Block → Block) : (s.onBlock n f).hdmBase = s.hdmBase := rfl
@[simp] theorem onBlock_firmware (s : State) (n : Nat) (f : Block → Block) : (s.onBlock n f).firmware = s.firmware := rfl
@[simp] theorem onBlock_nextSeq (s : State) (n : Nat) (f : Block → Block) : (s.onBlock n f).nextSeq = s.nextSeq := rfl
@[simp] theorem onBlock_outbound (s : State) (n : Nat) (f : Block → Block) : (s.onBlock n f).outbound = s.outbound := rfl
@[simp] theorem onBlock_results (s : State) (n : Nat) (f : Block → Block) : (s.onBlock n f).results = s.results := rfl
@[simp] theorem onBlock_reductions (s : State) (n : Nat) (f : Block → Block) : (s.onBlock n f).reductions = s.reductions := rfl
@[simp] theorem onBlock_remoteHeld (s : State) (n : Nat) (f : Block → Block) : (s.onBlock n f).remoteHeld = s.remoteHeld := rfl
@[simp] theorem onBlock_respHeld (s : State) (n : Nat) (f : Block → Block) : (s.onBlock n f).respHeld = s.respHeld := rfl

@[simp] theorem put_cycle (h : Here) (s : State) (t : Thread) : (h.put s t).cycle = s.cycle := rfl
@[simp] theorem put_time (h : Here) (s : State) (t : Thread) : (h.put s t).time = s.time := rfl
@[simp] theorem put_freeCount (h : Here) (s : State) (t : Thread) : (h.put s t).freeCount = s.freeCount := rfl
@[simp] theorem put_nextId (h : Here) (s : State) (t : Thread) : (h.put s t).nextId = s.nextId := rfl
@[simp] theorem put_inbox (h : Here) (s : State) (t : Thread) : (h.put s t).inbox = s.inbox := rfl
@[simp] theorem put_cur (h : Here) (s : State) (t : Thread) : (h.put s t).cur = s.cur := rfl
@[simp] theorem put_group (h : Here) (s : State) (t : Thread) : (h.put s t).group = s.group := rfl
@[simp] theorem put_picked (h : Here) (s : State) (t : Thread) : (h.put s t).picked = s.picked := rfl
@[simp] theorem put_todo (h : Here) (s : State) (t : Thread) : (h.put s t).todo = s.todo := rfl
@[simp] theorem put_mem (h : Here) (s : State) (t : Thread) : (h.put s t).mem = s.mem := rfl
@[simp] theorem put_poison (h : Here) (s : State) (t : Thread) : (h.put s t).poison = s.poison := rfl
@[simp] theorem put_atelier (h : Here) (s : State) (t : Thread) : (h.put s t).atelier = s.atelier := rfl
@[simp] theorem put_atelierPoison (h : Here) (s : State) (t : Thread) : (h.put s t).atelierPoison = s.atelierPoison := rfl
@[simp] theorem put_atlSlices (h : Here) (s : State) (t : Thread) : (h.put s t).atlSlices = s.atlSlices := rfl
@[simp] theorem put_cores (h : Here) (s : State) (t : Thread) : (h.put s t).cores = s.cores := rfl
@[simp] theorem put_parts (h : Here) (s : State) (t : Thread) : (h.put s t).parts = s.parts := rfl
@[simp] theorem put_ctxs (h : Here) (s : State) (t : Thread) : (h.put s t).ctxs = s.ctxs := rfl
@[simp] theorem put_insts (h : Here) (s : State) (t : Thread) : (h.put s t).insts = s.insts := rfl
@[simp] theorem put_watch (h : Here) (s : State) (t : Thread) : (h.put s t).watch = s.watch := rfl
@[simp] theorem put_unarmed (h : Here) (s : State) (t : Thread) : (h.put s t).unarmed = s.unarmed := rfl
@[simp] theorem put_snooped (h : Here) (s : State) (t : Thread) : (h.put s t).snooped = s.snooped := rfl
@[simp] theorem put_closing (h : Here) (s : State) (t : Thread) : (h.put s t).closing = s.closing := rfl
@[simp] theorem put_packets (h : Here) (s : State) (t : Thread) : (h.put s t).packets = s.packets := rfl
@[simp] theorem put_launches (h : Here) (s : State) (t : Thread) : (h.put s t).launches = s.launches := rfl
@[simp] theorem put_clusters (h : Here) (s : State) (t : Thread) : (h.put s t).clusters = s.clusters := rfl
@[simp] theorem put_captured (h : Here) (s : State) (t : Thread) : (h.put s t).captured = s.captured := rfl
@[simp] theorem put_prods (h : Here) (s : State) (t : Thread) : (h.put s t).prods = s.prods := rfl
@[simp] theorem put_ops (h : Here) (s : State) (t : Thread) : (h.put s t).ops = s.ops := rfl
@[simp] theorem put_faults (h : Here) (s : State) (t : Thread) : (h.put s t).faults = s.faults := rfl
@[simp] theorem put_pents (h : Here) (s : State) (t : Thread) : (h.put s t).pents = s.pents := rfl
@[simp] theorem put_commissions (h : Here) (s : State) (t : Thread) : (h.put s t).commissions = s.commissions := rfl
@[simp] theorem put_nodes (h : Here) (s : State) (t : Thread) : (h.put s t).nodes = s.nodes := rfl
@[simp] theorem put_repairs (h : Here) (s : State) (t : Thread) : (h.put s t).repairs = s.repairs := rfl
@[simp] theorem put_dramWant (h : Here) (s : State) (t : Thread) : (h.put s t).dramWant = s.dramWant := rfl
@[simp] theorem put_marks (h : Here) (s : State) (t : Thread) : (h.put s t).marks = s.marks := rfl
@[simp] theorem put_fills (h : Here) (s : State) (t : Thread) : (h.put s t).fills = s.fills := rfl
@[simp] theorem put_icache (h : Here) (s : State) (t : Thread) : (h.put s t).icache = s.icache := rfl
@[simp] theorem put_caps (h : Here) (s : State) (t : Thread) : (h.put s t).caps = s.caps := rfl
@[simp] theorem put_fabricOut (h : Here) (s : State) (t : Thread) : (h.put s t).fabricOut = s.fabricOut := rfl
@[simp] theorem put_routes (h : Here) (s : State) (t : Thread) : (h.put s t).routes = s.routes := rfl
@[simp] theorem put_hostAnswer (h : Here) (s : State) (t : Thread) : (h.put s t).hostAnswer = s.hostAnswer := rfl
@[simp] theorem put_hdmBase (h : Here) (s : State) (t : Thread) : (h.put s t).hdmBase = s.hdmBase := rfl
@[simp] theorem put_firmware (h : Here) (s : State) (t : Thread) : (h.put s t).firmware = s.firmware := rfl
@[simp] theorem put_nextSeq (h : Here) (s : State) (t : Thread) : (h.put s t).nextSeq = s.nextSeq := rfl
@[simp] theorem put_outbound (h : Here) (s : State) (t : Thread) : (h.put s t).outbound = s.outbound := rfl
@[simp] theorem put_results (h : Here) (s : State) (t : Thread) : (h.put s t).results = s.results := rfl
@[simp] theorem put_reductions (h : Here) (s : State) (t : Thread) : (h.put s t).reductions = s.reductions := rfl
@[simp] theorem put_remoteHeld (h : Here) (s : State) (t : Thread) : (h.put s t).remoteHeld = s.remoteHeld := rfl
@[simp] theorem put_respHeld (h : Here) (s : State) (t : Thread) : (h.put s t).respHeld = s.respHeld := rfl

/-! ## Updates of a thread -/

@[simp] theorem setY_tid (t : Thread) (n : Nat) (v : Word) : (t.setY n v).tid = t.tid := rfl
@[simp] theorem setY_slot (t : Thread) (n : Nat) (v : Word) : (t.setY n v).slot = t.slot := rfl
@[simp] theorem setY_lane (t : Thread) (n : Nat) (v : Word) : (t.setY n v).lane = t.lane := rfl
@[simp] theorem setY_life (t : Thread) (n : Nat) (v : Word) : (t.setY n v).life = t.life := rfl
@[simp] theorem setY_spawned (t : Thread) (n : Nat) (v : Word) : (t.setY n v).spawned = t.spawned := rfl
@[simp] theorem setY_inHandler (t : Thread) (n : Nat) (v : Word) : (t.setY n v).inHandler = t.inHandler := rfl
@[simp] theorem setY_barsWait (t : Thread) (n : Nat) (v : Word) : (t.setY n v).barsWait = t.barsWait := rfl
@[simp] theorem setY_wb (t : Thread) (n : Nat) (v : Word) : (t.setY n v).wb = t.wb := rfl
@[simp] theorem setY_pc (t : Thread) (n : Nat) (v : Word) : (t.setY n v).pc = t.pc := rfl
@[simp] theorem setY_k (t : Thread) (n : Nat) (v : Word) : (t.setY n v).k = t.k := rfl
@[simp] theorem setY_lc (t : Thread) (n : Nat) (v : Word) : (t.setY n v).lc = t.lc := rfl
@[simp] theorem setY_rm (t : Thread) (n : Nat) (v : Word) : (t.setY n v).rm = t.rm := rfl
@[simp] theorem setY_fpst (t : Thread) (n : Nat) (v : Word) : (t.setY n v).fpst = t.fpst := rfl
@[simp] theorem setY_spth (t : Thread) (n : Nat) (v : Word) : (t.setY n v).spth = t.spth := rfl
@[simp] theorem setY_tvec (t : Thread) (n : Nat) (v : Word) : (t.setY n v).tvec = t.tvec := rfl
@[simp] theorem setY_tcause (t : Thread) (n : Nat) (v : Word) : (t.setY n v).tcause = t.tcause := rfl
@[simp] theorem setY_tpc (t : Thread) (n : Nat) (v : Word) : (t.setY n v).tpc = t.tpc := rfl
@[simp] theorem setY_tval (t : Thread) (n : Nat) (v : Word) : (t.setY n v).tval = t.tval := rfl
@[simp] theorem setY_outst (t : Thread) (n : Nat) (v : Word) : (t.setY n v).outst = t.outst := rfl
@[simp] theorem setY_wait (t : Thread) (n : Nat) (v : Word) : (t.setY n v).wait = t.wait := rfl
@[simp] theorem setY_since (t : Thread) (n : Nat) (v : Word) : (t.setY n v).since = t.since := rfl
@[simp] theorem setY_reconv (t : Thread) (n : Nat) (v : Word) : (t.setY n v).reconv = t.reconv := rfl
@[simp] theorem setY_parking (t : Thread) (n : Nat) (v : Word) : (t.setY n v).parking = t.parking := rfl
@[simp] theorem setY_poison (t : Thread) (n : Nat) (v : Word) : (t.setY n v).poison = t.poison := rfl
@[simp] theorem setY_halted (t : Thread) (n : Nat) (v : Word) : (t.setY n v).halted = t.halted := rfl
@[simp] theorem setY_touched (t : Thread) (n : Nat) (v : Word) : (t.setY n v).touched = t.touched := rfl
@[simp] theorem setY_cmsn (t : Thread) (n : Nat) (v : Word) : (t.setY n v).cmsn = t.cmsn := rfl

@[simp] theorem emptyY_tid (t : Thread) (n : Nat) : (t.emptyY n).tid = t.tid := rfl
@[simp] theorem emptyY_slot (t : Thread) (n : Nat) : (t.emptyY n).slot = t.slot := rfl
@[simp] theorem emptyY_lane (t : Thread) (n : Nat) : (t.emptyY n).lane = t.lane := rfl
@[simp] theorem emptyY_life (t : Thread) (n : Nat) : (t.emptyY n).life = t.life := rfl
@[simp] theorem emptyY_spawned (t : Thread) (n : Nat) : (t.emptyY n).spawned = t.spawned := rfl
@[simp] theorem emptyY_inHandler (t : Thread) (n : Nat) : (t.emptyY n).inHandler = t.inHandler := rfl
@[simp] theorem emptyY_barsWait (t : Thread) (n : Nat) : (t.emptyY n).barsWait = t.barsWait := rfl
@[simp] theorem emptyY_wb (t : Thread) (n : Nat) : (t.emptyY n).wb = t.wb := rfl
@[simp] theorem emptyY_regs (t : Thread) (n : Nat) : (t.emptyY n).regs = t.regs := rfl
@[simp] theorem emptyY_pc (t : Thread) (n : Nat) : (t.emptyY n).pc = t.pc := rfl
@[simp] theorem emptyY_k (t : Thread) (n : Nat) : (t.emptyY n).k = t.k := rfl
@[simp] theorem emptyY_lc (t : Thread) (n : Nat) : (t.emptyY n).lc = t.lc := rfl
@[simp] theorem emptyY_rm (t : Thread) (n : Nat) : (t.emptyY n).rm = t.rm := rfl
@[simp] theorem emptyY_fpst (t : Thread) (n : Nat) : (t.emptyY n).fpst = t.fpst := rfl
@[simp] theorem emptyY_spth (t : Thread) (n : Nat) : (t.emptyY n).spth = t.spth := rfl
@[simp] theorem emptyY_tvec (t : Thread) (n : Nat) : (t.emptyY n).tvec = t.tvec := rfl
@[simp] theorem emptyY_tcause (t : Thread) (n : Nat) : (t.emptyY n).tcause = t.tcause := rfl
@[simp] theorem emptyY_tpc (t : Thread) (n : Nat) : (t.emptyY n).tpc = t.tpc := rfl
@[simp] theorem emptyY_tval (t : Thread) (n : Nat) : (t.emptyY n).tval = t.tval := rfl
@[simp] theorem emptyY_outst (t : Thread) (n : Nat) : (t.emptyY n).outst = t.outst := rfl
@[simp] theorem emptyY_wait (t : Thread) (n : Nat) : (t.emptyY n).wait = t.wait := rfl
@[simp] theorem emptyY_since (t : Thread) (n : Nat) : (t.emptyY n).since = t.since := rfl
@[simp] theorem emptyY_reconv (t : Thread) (n : Nat) : (t.emptyY n).reconv = t.reconv := rfl
@[simp] theorem emptyY_parking (t : Thread) (n : Nat) : (t.emptyY n).parking = t.parking := rfl
@[simp] theorem emptyY_poison (t : Thread) (n : Nat) : (t.emptyY n).poison = t.poison := rfl
@[simp] theorem emptyY_halted (t : Thread) (n : Nat) : (t.emptyY n).halted = t.halted := rfl
@[simp] theorem emptyY_touched (t : Thread) (n : Nat) : (t.emptyY n).touched = t.touched := rfl
@[simp] theorem emptyY_cmsn (t : Thread) (n : Nat) : (t.emptyY n).cmsn = t.cmsn := rfl

@[simp] theorem goto_tid (t : Thread) (a : Word) : (t.goto a).tid = t.tid := rfl
@[simp] theorem goto_slot (t : Thread) (a : Word) : (t.goto a).slot = t.slot := rfl
@[simp] theorem goto_lane (t : Thread) (a : Word) : (t.goto a).lane = t.lane := rfl
@[simp] theorem goto_life (t : Thread) (a : Word) : (t.goto a).life = t.life := rfl
@[simp] theorem goto_spawned (t : Thread) (a : Word) : (t.goto a).spawned = t.spawned := rfl
@[simp] theorem goto_inHandler (t : Thread) (a : Word) : (t.goto a).inHandler = t.inHandler := rfl
@[simp] theorem goto_barsWait (t : Thread) (a : Word) : (t.goto a).barsWait = t.barsWait := rfl
@[simp] theorem goto_wb (t : Thread) (a : Word) : (t.goto a).wb = t.wb := rfl
@[simp] theorem goto_regs (t : Thread) (a : Word) : (t.goto a).regs = t.regs := rfl
@[simp] theorem goto_full (t : Thread) (a : Word) : (t.goto a).full = t.full := rfl
@[simp] theorem goto_k (t : Thread) (a : Word) : (t.goto a).k = t.k := rfl
@[simp] theorem goto_lc (t : Thread) (a : Word) : (t.goto a).lc = t.lc := rfl
@[simp] theorem goto_rm (t : Thread) (a : Word) : (t.goto a).rm = t.rm := rfl
@[simp] theorem goto_fpst (t : Thread) (a : Word) : (t.goto a).fpst = t.fpst := rfl
@[simp] theorem goto_spth (t : Thread) (a : Word) : (t.goto a).spth = t.spth := rfl
@[simp] theorem goto_tvec (t : Thread) (a : Word) : (t.goto a).tvec = t.tvec := rfl
@[simp] theorem goto_tcause (t : Thread) (a : Word) : (t.goto a).tcause = t.tcause := rfl
@[simp] theorem goto_tpc (t : Thread) (a : Word) : (t.goto a).tpc = t.tpc := rfl
@[simp] theorem goto_tval (t : Thread) (a : Word) : (t.goto a).tval = t.tval := rfl
@[simp] theorem goto_outst (t : Thread) (a : Word) : (t.goto a).outst = t.outst := rfl
@[simp] theorem goto_since (t : Thread) (a : Word) : (t.goto a).since = t.since := rfl
@[simp] theorem goto_reconv (t : Thread) (a : Word) : (t.goto a).reconv = t.reconv := rfl
@[simp] theorem goto_parking (t : Thread) (a : Word) : (t.goto a).parking = t.parking := rfl
@[simp] theorem goto_poison (t : Thread) (a : Word) : (t.goto a).poison = t.poison := rfl
@[simp] theorem goto_halted (t : Thread) (a : Word) : (t.goto a).halted = t.halted := rfl
@[simp] theorem goto_touched (t : Thread) (a : Word) : (t.goto a).touched = t.touched := rfl
@[simp] theorem goto_cmsn (t : Thread) (a : Word) : (t.goto a).cmsn = t.cmsn := rfl

@[simp] theorem writeX_tid (t : Thread) (x : Reg) (v : Word) : (t.writeX x v).tid = t.tid := by
  unfold Thread.writeX; split <;> rfl
@[simp] theorem writeX_slot (t : Thread) (x : Reg) (v : Word) : (t.writeX x v).slot = t.slot := by
  unfold Thread.writeX; split <;> rfl
@[simp] theorem writeX_lane (t : Thread) (x : Reg) (v : Word) : (t.writeX x v).lane = t.lane := by
  unfold Thread.writeX; split <;> rfl
@[simp] theorem writeX_life (t : Thread) (x : Reg) (v : Word) : (t.writeX x v).life = t.life := by
  unfold Thread.writeX; split <;> rfl
@[simp] theorem writeX_spawned (t : Thread) (x : Reg) (v : Word) : (t.writeX x v).spawned = t.spawned := by
  unfold Thread.writeX; split <;> rfl
@[simp] theorem writeX_inHandler (t : Thread) (x : Reg) (v : Word) : (t.writeX x v).inHandler = t.inHandler := by
  unfold Thread.writeX; split <;> rfl
@[simp] theorem writeX_barsWait (t : Thread) (x : Reg) (v : Word) : (t.writeX x v).barsWait = t.barsWait := by
  unfold Thread.writeX; split <;> rfl
@[simp] theorem writeX_wb (t : Thread) (x : Reg) (v : Word) : (t.writeX x v).wb = t.wb := by
  unfold Thread.writeX; split <;> rfl
@[simp] theorem writeX_pc (t : Thread) (x : Reg) (v : Word) : (t.writeX x v).pc = t.pc := by
  unfold Thread.writeX; split <;> rfl
@[simp] theorem writeX_k (t : Thread) (x : Reg) (v : Word) : (t.writeX x v).k = t.k := by
  unfold Thread.writeX; split <;> rfl
@[simp] theorem writeX_lc (t : Thread) (x : Reg) (v : Word) : (t.writeX x v).lc = t.lc := by
  unfold Thread.writeX; split <;> rfl
@[simp] theorem writeX_rm (t : Thread) (x : Reg) (v : Word) : (t.writeX x v).rm = t.rm := by
  unfold Thread.writeX; split <;> rfl
@[simp] theorem writeX_fpst (t : Thread) (x : Reg) (v : Word) : (t.writeX x v).fpst = t.fpst := by
  unfold Thread.writeX; split <;> rfl
@[simp] theorem writeX_spth (t : Thread) (x : Reg) (v : Word) : (t.writeX x v).spth = t.spth := by
  unfold Thread.writeX; split <;> rfl
@[simp] theorem writeX_tvec (t : Thread) (x : Reg) (v : Word) : (t.writeX x v).tvec = t.tvec := by
  unfold Thread.writeX; split <;> rfl
@[simp] theorem writeX_tcause (t : Thread) (x : Reg) (v : Word) : (t.writeX x v).tcause = t.tcause := by
  unfold Thread.writeX; split <;> rfl
@[simp] theorem writeX_tpc (t : Thread) (x : Reg) (v : Word) : (t.writeX x v).tpc = t.tpc := by
  unfold Thread.writeX; split <;> rfl
@[simp] theorem writeX_tval (t : Thread) (x : Reg) (v : Word) : (t.writeX x v).tval = t.tval := by
  unfold Thread.writeX; split <;> rfl
@[simp] theorem writeX_outst (t : Thread) (x : Reg) (v : Word) : (t.writeX x v).outst = t.outst := by
  unfold Thread.writeX; split <;> rfl
@[simp] theorem writeX_wait (t : Thread) (x : Reg) (v : Word) : (t.writeX x v).wait = t.wait := by
  unfold Thread.writeX; split <;> rfl
@[simp] theorem writeX_since (t : Thread) (x : Reg) (v : Word) : (t.writeX x v).since = t.since := by
  unfold Thread.writeX; split <;> rfl
@[simp] theorem writeX_reconv (t : Thread) (x : Reg) (v : Word) : (t.writeX x v).reconv = t.reconv := by
  unfold Thread.writeX; split <;> rfl
@[simp] theorem writeX_parking (t : Thread) (x : Reg) (v : Word) : (t.writeX x v).parking = t.parking := by
  unfold Thread.writeX; split <;> rfl
@[simp] theorem writeX_poison (t : Thread) (x : Reg) (v : Word) : (t.writeX x v).poison = t.poison := by
  unfold Thread.writeX; split <;> rfl
@[simp] theorem writeX_halted (t : Thread) (x : Reg) (v : Word) : (t.writeX x v).halted = t.halted := by
  unfold Thread.writeX; split <;> rfl
@[simp] theorem writeX_touched (t : Thread) (x : Reg) (v : Word) : (t.writeX x v).touched = t.touched := by
  unfold Thread.writeX; split <;> rfl
@[simp] theorem writeX_cmsn (t : Thread) (x : Reg) (v : Word) : (t.writeX x v).cmsn = t.cmsn := by
  unfold Thread.writeX; split <;> rfl

@[simp] theorem emptyX_tid (t : Thread) (x : Reg) : (t.emptyX x).tid = t.tid := by
  unfold Thread.emptyX; split <;> rfl
@[simp] theorem emptyX_slot (t : Thread) (x : Reg) : (t.emptyX x).slot = t.slot := by
  unfold Thread.emptyX; split <;> rfl
@[simp] theorem emptyX_lane (t : Thread) (x : Reg) : (t.emptyX x).lane = t.lane := by
  unfold Thread.emptyX; split <;> rfl
@[simp] theorem emptyX_life (t : Thread) (x : Reg) : (t.emptyX x).life = t.life := by
  unfold Thread.emptyX; split <;> rfl
@[simp] theorem emptyX_spawned (t : Thread) (x : Reg) : (t.emptyX x).spawned = t.spawned := by
  unfold Thread.emptyX; split <;> rfl
@[simp] theorem emptyX_inHandler (t : Thread) (x : Reg) : (t.emptyX x).inHandler = t.inHandler := by
  unfold Thread.emptyX; split <;> rfl
@[simp] theorem emptyX_barsWait (t : Thread) (x : Reg) : (t.emptyX x).barsWait = t.barsWait := by
  unfold Thread.emptyX; split <;> rfl
@[simp] theorem emptyX_wb (t : Thread) (x : Reg) : (t.emptyX x).wb = t.wb := by
  unfold Thread.emptyX; split <;> rfl
@[simp] theorem emptyX_regs (t : Thread) (x : Reg) : (t.emptyX x).regs = t.regs := by
  unfold Thread.emptyX; split <;> rfl
@[simp] theorem emptyX_pc (t : Thread) (x : Reg) : (t.emptyX x).pc = t.pc := by
  unfold Thread.emptyX; split <;> rfl
@[simp] theorem emptyX_k (t : Thread) (x : Reg) : (t.emptyX x).k = t.k := by
  unfold Thread.emptyX; split <;> rfl
@[simp] theorem emptyX_lc (t : Thread) (x : Reg) : (t.emptyX x).lc = t.lc := by
  unfold Thread.emptyX; split <;> rfl
@[simp] theorem emptyX_rm (t : Thread) (x : Reg) : (t.emptyX x).rm = t.rm := by
  unfold Thread.emptyX; split <;> rfl
@[simp] theorem emptyX_fpst (t : Thread) (x : Reg) : (t.emptyX x).fpst = t.fpst := by
  unfold Thread.emptyX; split <;> rfl
@[simp] theorem emptyX_spth (t : Thread) (x : Reg) : (t.emptyX x).spth = t.spth := by
  unfold Thread.emptyX; split <;> rfl
@[simp] theorem emptyX_tvec (t : Thread) (x : Reg) : (t.emptyX x).tvec = t.tvec := by
  unfold Thread.emptyX; split <;> rfl
@[simp] theorem emptyX_tcause (t : Thread) (x : Reg) : (t.emptyX x).tcause = t.tcause := by
  unfold Thread.emptyX; split <;> rfl
@[simp] theorem emptyX_tpc (t : Thread) (x : Reg) : (t.emptyX x).tpc = t.tpc := by
  unfold Thread.emptyX; split <;> rfl
@[simp] theorem emptyX_tval (t : Thread) (x : Reg) : (t.emptyX x).tval = t.tval := by
  unfold Thread.emptyX; split <;> rfl
@[simp] theorem emptyX_outst (t : Thread) (x : Reg) : (t.emptyX x).outst = t.outst := by
  unfold Thread.emptyX; split <;> rfl
@[simp] theorem emptyX_wait (t : Thread) (x : Reg) : (t.emptyX x).wait = t.wait := by
  unfold Thread.emptyX; split <;> rfl
@[simp] theorem emptyX_since (t : Thread) (x : Reg) : (t.emptyX x).since = t.since := by
  unfold Thread.emptyX; split <;> rfl
@[simp] theorem emptyX_reconv (t : Thread) (x : Reg) : (t.emptyX x).reconv = t.reconv := by
  unfold Thread.emptyX; split <;> rfl
@[simp] theorem emptyX_parking (t : Thread) (x : Reg) : (t.emptyX x).parking = t.parking := by
  unfold Thread.emptyX; split <;> rfl
@[simp] theorem emptyX_poison (t : Thread) (x : Reg) : (t.emptyX x).poison = t.poison := by
  unfold Thread.emptyX; split <;> rfl
@[simp] theorem emptyX_halted (t : Thread) (x : Reg) : (t.emptyX x).halted = t.halted := by
  unfold Thread.emptyX; split <;> rfl
@[simp] theorem emptyX_touched (t : Thread) (x : Reg) : (t.emptyX x).touched = t.touched := by
  unfold Thread.emptyX; split <;> rfl
@[simp] theorem emptyX_cmsn (t : Thread) (x : Reg) : (t.emptyX x).cmsn = t.cmsn := by
  unfold Thread.emptyX; split <;> rfl

@[simp] theorem writeN_tid (t : Thread) (n : Nat) (v : Word) : (t.writeN n v).tid = t.tid := by
  unfold Thread.writeN; split <;> rfl
@[simp] theorem writeN_slot (t : Thread) (n : Nat) (v : Word) : (t.writeN n v).slot = t.slot := by
  unfold Thread.writeN; split <;> rfl
@[simp] theorem writeN_lane (t : Thread) (n : Nat) (v : Word) : (t.writeN n v).lane = t.lane := by
  unfold Thread.writeN; split <;> rfl
@[simp] theorem writeN_life (t : Thread) (n : Nat) (v : Word) : (t.writeN n v).life = t.life := by
  unfold Thread.writeN; split <;> rfl
@[simp] theorem writeN_spawned (t : Thread) (n : Nat) (v : Word) : (t.writeN n v).spawned = t.spawned := by
  unfold Thread.writeN; split <;> rfl
@[simp] theorem writeN_inHandler (t : Thread) (n : Nat) (v : Word) : (t.writeN n v).inHandler = t.inHandler := by
  unfold Thread.writeN; split <;> rfl
@[simp] theorem writeN_barsWait (t : Thread) (n : Nat) (v : Word) : (t.writeN n v).barsWait = t.barsWait := by
  unfold Thread.writeN; split <;> rfl
@[simp] theorem writeN_wb (t : Thread) (n : Nat) (v : Word) : (t.writeN n v).wb = t.wb := by
  unfold Thread.writeN; split <;> rfl
@[simp] theorem writeN_pc (t : Thread) (n : Nat) (v : Word) : (t.writeN n v).pc = t.pc := by
  unfold Thread.writeN; split <;> rfl
@[simp] theorem writeN_k (t : Thread) (n : Nat) (v : Word) : (t.writeN n v).k = t.k := by
  unfold Thread.writeN; split <;> rfl
@[simp] theorem writeN_lc (t : Thread) (n : Nat) (v : Word) : (t.writeN n v).lc = t.lc := by
  unfold Thread.writeN; split <;> rfl
@[simp] theorem writeN_rm (t : Thread) (n : Nat) (v : Word) : (t.writeN n v).rm = t.rm := by
  unfold Thread.writeN; split <;> rfl
@[simp] theorem writeN_fpst (t : Thread) (n : Nat) (v : Word) : (t.writeN n v).fpst = t.fpst := by
  unfold Thread.writeN; split <;> rfl
@[simp] theorem writeN_spth (t : Thread) (n : Nat) (v : Word) : (t.writeN n v).spth = t.spth := by
  unfold Thread.writeN; split <;> rfl
@[simp] theorem writeN_tvec (t : Thread) (n : Nat) (v : Word) : (t.writeN n v).tvec = t.tvec := by
  unfold Thread.writeN; split <;> rfl
@[simp] theorem writeN_tcause (t : Thread) (n : Nat) (v : Word) : (t.writeN n v).tcause = t.tcause := by
  unfold Thread.writeN; split <;> rfl
@[simp] theorem writeN_tpc (t : Thread) (n : Nat) (v : Word) : (t.writeN n v).tpc = t.tpc := by
  unfold Thread.writeN; split <;> rfl
@[simp] theorem writeN_tval (t : Thread) (n : Nat) (v : Word) : (t.writeN n v).tval = t.tval := by
  unfold Thread.writeN; split <;> rfl
@[simp] theorem writeN_outst (t : Thread) (n : Nat) (v : Word) : (t.writeN n v).outst = t.outst := by
  unfold Thread.writeN; split <;> rfl
@[simp] theorem writeN_wait (t : Thread) (n : Nat) (v : Word) : (t.writeN n v).wait = t.wait := by
  unfold Thread.writeN; split <;> rfl
@[simp] theorem writeN_since (t : Thread) (n : Nat) (v : Word) : (t.writeN n v).since = t.since := by
  unfold Thread.writeN; split <;> rfl
@[simp] theorem writeN_reconv (t : Thread) (n : Nat) (v : Word) : (t.writeN n v).reconv = t.reconv := by
  unfold Thread.writeN; split <;> rfl
@[simp] theorem writeN_parking (t : Thread) (n : Nat) (v : Word) : (t.writeN n v).parking = t.parking := by
  unfold Thread.writeN; split <;> rfl
@[simp] theorem writeN_poison (t : Thread) (n : Nat) (v : Word) : (t.writeN n v).poison = t.poison := by
  unfold Thread.writeN; split <;> rfl
@[simp] theorem writeN_halted (t : Thread) (n : Nat) (v : Word) : (t.writeN n v).halted = t.halted := by
  unfold Thread.writeN; split <;> rfl
@[simp] theorem writeN_touched (t : Thread) (n : Nat) (v : Word) : (t.writeN n v).touched = t.touched := by
  unfold Thread.writeN; split <;> rfl
@[simp] theorem writeN_cmsn (t : Thread) (n : Nat) (v : Word) : (t.writeN n v).cmsn = t.cmsn := by
  unfold Thread.writeN; split <;> rfl

@[simp] theorem writeK_tid (t : Thread) (i : BitVec 3) (v : Byte) : (t.writeK i v).tid = t.tid := by
  unfold Thread.writeK; split <;> rfl
@[simp] theorem writeK_slot (t : Thread) (i : BitVec 3) (v : Byte) : (t.writeK i v).slot = t.slot := by
  unfold Thread.writeK; split <;> rfl
@[simp] theorem writeK_lane (t : Thread) (i : BitVec 3) (v : Byte) : (t.writeK i v).lane = t.lane := by
  unfold Thread.writeK; split <;> rfl
@[simp] theorem writeK_life (t : Thread) (i : BitVec 3) (v : Byte) : (t.writeK i v).life = t.life := by
  unfold Thread.writeK; split <;> rfl
@[simp] theorem writeK_spawned (t : Thread) (i : BitVec 3) (v : Byte) : (t.writeK i v).spawned = t.spawned := by
  unfold Thread.writeK; split <;> rfl
@[simp] theorem writeK_inHandler (t : Thread) (i : BitVec 3) (v : Byte) : (t.writeK i v).inHandler = t.inHandler := by
  unfold Thread.writeK; split <;> rfl
@[simp] theorem writeK_barsWait (t : Thread) (i : BitVec 3) (v : Byte) : (t.writeK i v).barsWait = t.barsWait := by
  unfold Thread.writeK; split <;> rfl
@[simp] theorem writeK_wb (t : Thread) (i : BitVec 3) (v : Byte) : (t.writeK i v).wb = t.wb := by
  unfold Thread.writeK; split <;> rfl
@[simp] theorem writeK_regs (t : Thread) (i : BitVec 3) (v : Byte) : (t.writeK i v).regs = t.regs := by
  unfold Thread.writeK; split <;> rfl
@[simp] theorem writeK_full (t : Thread) (i : BitVec 3) (v : Byte) : (t.writeK i v).full = t.full := by
  unfold Thread.writeK; split <;> rfl
@[simp] theorem writeK_pc (t : Thread) (i : BitVec 3) (v : Byte) : (t.writeK i v).pc = t.pc := by
  unfold Thread.writeK; split <;> rfl
@[simp] theorem writeK_lc (t : Thread) (i : BitVec 3) (v : Byte) : (t.writeK i v).lc = t.lc := by
  unfold Thread.writeK; split <;> rfl
@[simp] theorem writeK_rm (t : Thread) (i : BitVec 3) (v : Byte) : (t.writeK i v).rm = t.rm := by
  unfold Thread.writeK; split <;> rfl
@[simp] theorem writeK_fpst (t : Thread) (i : BitVec 3) (v : Byte) : (t.writeK i v).fpst = t.fpst := by
  unfold Thread.writeK; split <;> rfl
@[simp] theorem writeK_spth (t : Thread) (i : BitVec 3) (v : Byte) : (t.writeK i v).spth = t.spth := by
  unfold Thread.writeK; split <;> rfl
@[simp] theorem writeK_tvec (t : Thread) (i : BitVec 3) (v : Byte) : (t.writeK i v).tvec = t.tvec := by
  unfold Thread.writeK; split <;> rfl
@[simp] theorem writeK_tcause (t : Thread) (i : BitVec 3) (v : Byte) : (t.writeK i v).tcause = t.tcause := by
  unfold Thread.writeK; split <;> rfl
@[simp] theorem writeK_tpc (t : Thread) (i : BitVec 3) (v : Byte) : (t.writeK i v).tpc = t.tpc := by
  unfold Thread.writeK; split <;> rfl
@[simp] theorem writeK_tval (t : Thread) (i : BitVec 3) (v : Byte) : (t.writeK i v).tval = t.tval := by
  unfold Thread.writeK; split <;> rfl
@[simp] theorem writeK_outst (t : Thread) (i : BitVec 3) (v : Byte) : (t.writeK i v).outst = t.outst := by
  unfold Thread.writeK; split <;> rfl
@[simp] theorem writeK_wait (t : Thread) (i : BitVec 3) (v : Byte) : (t.writeK i v).wait = t.wait := by
  unfold Thread.writeK; split <;> rfl
@[simp] theorem writeK_since (t : Thread) (i : BitVec 3) (v : Byte) : (t.writeK i v).since = t.since := by
  unfold Thread.writeK; split <;> rfl
@[simp] theorem writeK_reconv (t : Thread) (i : BitVec 3) (v : Byte) : (t.writeK i v).reconv = t.reconv := by
  unfold Thread.writeK; split <;> rfl
@[simp] theorem writeK_parking (t : Thread) (i : BitVec 3) (v : Byte) : (t.writeK i v).parking = t.parking := by
  unfold Thread.writeK; split <;> rfl
@[simp] theorem writeK_poison (t : Thread) (i : BitVec 3) (v : Byte) : (t.writeK i v).poison = t.poison := by
  unfold Thread.writeK; split <;> rfl
@[simp] theorem writeK_halted (t : Thread) (i : BitVec 3) (v : Byte) : (t.writeK i v).halted = t.halted := by
  unfold Thread.writeK; split <;> rfl
@[simp] theorem writeK_touched (t : Thread) (i : BitVec 3) (v : Byte) : (t.writeK i v).touched = t.touched := by
  unfold Thread.writeK; split <;> rfl
@[simp] theorem writeK_cmsn (t : Thread) (i : BitVec 3) (v : Byte) : (t.writeK i v).cmsn = t.cmsn := by
  unfold Thread.writeK; split <;> rfl

/-- The end test moves the PC and the loop levels alone. -/
theorem endTest_rest (pc : Word) (len : Nat) : ∀ (n : Nat) (t : Thread),
    endTest pc len n t = { t with lc := (endTest pc len n t).lc, pc := (endTest pc len n t).pc }
  | 0, _ => rfl
  | n + 1, t => by
    unfold endTest
    split
    · simp only
      split
      · split
        · rfl
        · exact endTest_rest pc len n { t with lc := t.lc.set n { t.lc[n] with active := false, remaining := 0 } }
      · exact endTest_rest pc len n t
    · exact endTest_rest pc len n t

@[simp] theorem advance_tid (t : Thread) (n : Nat) : (t.advance n).tid = t.tid := by
  unfold Thread.advance; rw [endTest_rest]
@[simp] theorem advance_slot (t : Thread) (n : Nat) : (t.advance n).slot = t.slot := by
  unfold Thread.advance; rw [endTest_rest]
@[simp] theorem advance_lane (t : Thread) (n : Nat) : (t.advance n).lane = t.lane := by
  unfold Thread.advance; rw [endTest_rest]
@[simp] theorem advance_life (t : Thread) (n : Nat) : (t.advance n).life = t.life := by
  unfold Thread.advance; rw [endTest_rest]
@[simp] theorem advance_spawned (t : Thread) (n : Nat) : (t.advance n).spawned = t.spawned := by
  unfold Thread.advance; rw [endTest_rest]
@[simp] theorem advance_inHandler (t : Thread) (n : Nat) : (t.advance n).inHandler = t.inHandler := by
  unfold Thread.advance; rw [endTest_rest]
@[simp] theorem advance_barsWait (t : Thread) (n : Nat) : (t.advance n).barsWait = t.barsWait := by
  unfold Thread.advance; rw [endTest_rest]
@[simp] theorem advance_wb (t : Thread) (n : Nat) : (t.advance n).wb = t.wb := by
  unfold Thread.advance; rw [endTest_rest]
@[simp] theorem advance_regs (t : Thread) (n : Nat) : (t.advance n).regs = t.regs := by
  unfold Thread.advance; rw [endTest_rest]
@[simp] theorem advance_full (t : Thread) (n : Nat) : (t.advance n).full = t.full := by
  unfold Thread.advance; rw [endTest_rest]
@[simp] theorem advance_k (t : Thread) (n : Nat) : (t.advance n).k = t.k := by
  unfold Thread.advance; rw [endTest_rest]
@[simp] theorem advance_rm (t : Thread) (n : Nat) : (t.advance n).rm = t.rm := by
  unfold Thread.advance; rw [endTest_rest]
@[simp] theorem advance_fpst (t : Thread) (n : Nat) : (t.advance n).fpst = t.fpst := by
  unfold Thread.advance; rw [endTest_rest]
@[simp] theorem advance_spth (t : Thread) (n : Nat) : (t.advance n).spth = t.spth := by
  unfold Thread.advance; rw [endTest_rest]
@[simp] theorem advance_tvec (t : Thread) (n : Nat) : (t.advance n).tvec = t.tvec := by
  unfold Thread.advance; rw [endTest_rest]
@[simp] theorem advance_tcause (t : Thread) (n : Nat) : (t.advance n).tcause = t.tcause := by
  unfold Thread.advance; rw [endTest_rest]
@[simp] theorem advance_tpc (t : Thread) (n : Nat) : (t.advance n).tpc = t.tpc := by
  unfold Thread.advance; rw [endTest_rest]
@[simp] theorem advance_tval (t : Thread) (n : Nat) : (t.advance n).tval = t.tval := by
  unfold Thread.advance; rw [endTest_rest]
@[simp] theorem advance_outst (t : Thread) (n : Nat) : (t.advance n).outst = t.outst := by
  unfold Thread.advance; rw [endTest_rest]
@[simp] theorem advance_since (t : Thread) (n : Nat) : (t.advance n).since = t.since := by
  unfold Thread.advance; rw [endTest_rest]
@[simp] theorem advance_reconv (t : Thread) (n : Nat) : (t.advance n).reconv = t.reconv := by
  unfold Thread.advance; rw [endTest_rest]
@[simp] theorem advance_parking (t : Thread) (n : Nat) : (t.advance n).parking = t.parking := by
  unfold Thread.advance; rw [endTest_rest]
@[simp] theorem advance_poison (t : Thread) (n : Nat) : (t.advance n).poison = t.poison := by
  unfold Thread.advance; rw [endTest_rest]
@[simp] theorem advance_halted (t : Thread) (n : Nat) : (t.advance n).halted = t.halted := by
  unfold Thread.advance; rw [endTest_rest]
@[simp] theorem advance_touched (t : Thread) (n : Nat) : (t.advance n).touched = t.touched := by
  unfold Thread.advance; rw [endTest_rest]
@[simp] theorem advance_cmsn (t : Thread) (n : Nat) : (t.advance n).cmsn = t.cmsn := by
  unfold Thread.advance; rw [endTest_rest]

@[simp] theorem advance_wait (t : Thread) (n : Nat) : (t.advance n).wait = .ready := rfl

/-! ## Reading back -/

@[simp] theorem part_setPart (s : State) (p : Nat) (x : Part) : (s.setPart p x).part p = x := by
  simp [State.setPart, State.part]

theorem part_setPart_ne (s : State) {p q : Nat} (x : Part) (h : p % 8 ≠ q % 8) : (s.setPart p x).part q = s.part q := by
  simp [State.setPart, State.part, Vector.getElem_set_ne _ _ h]

@[simp] theorem setPart_setPart (s : State) (p : Nat) (x y : Part) : (s.setPart p x).setPart p y = s.setPart p y := by
  simp [State.setPart]

@[simp] theorem queue_setQueue (p : Part) (q : Nat) (x : Queue) : (p.setQueue q x).queue q = x := by
  simp [Part.setQueue, Part.queue]

theorem queue_setQueue_ne (p : Part) {q r : Nat} (x : Queue) (h : q % 64 ≠ r % 64) :
    (p.setQueue q x).queue r = p.queue r := by
  simp [Part.setQueue, Part.queue, Vector.getElem_set_ne _ _ h]

@[simp] theorem setQueue_setQueue (p : Part) (q : Nat) (x y : Queue) : (p.setQueue q x).setQueue q y = p.setQueue q y := by
  simp [Part.setQueue]

@[simp] theorem queue_of_setQueue (s : State) (p q : Nat) (x : Queue) : ((setQueue s p q x).part p).queue q = x := by
  simp [setQueue]

@[simp] theorem setQueue_twice (s : State) (p q : Nat) (x y : Queue) :
    setQueue (setQueue s p q x) p q y = setQueue s p q y := by
  simp [setQueue]

@[simp] theorem link_setLink (s : State) (l : Nat) (x : Link) : (s.setLink l x).link l = x := by
  simp [State.setLink, State.link]

@[simp] theorem filter_setFilter (s : State) (f : Nat) (x : Filter) : (s.setFilter f x).filter f = x := by
  simp [State.setFilter, State.filter]

theorem y_setY (t : Thread) (n m : Nat) (v : Word) :
    (t.setY n v).y m = if n % 256 = m % 256 then v else t.y m := by
  simp [Thread.setY, Thread.y, Vector.getElem_set]

theorem yFull_setY (t : Thread) (n m : Nat) (v : Word) :
    (t.setY n v).yFull m = if n % 256 = m % 256 then true else t.yFull m := by
  simp [Thread.setY, Thread.yFull, Vector.getElem_set]

theorem yFull_emptyY (t : Thread) (n m : Nat) :
    (t.emptyY n).yFull m = if n % 256 = m % 256 then false else t.yFull m := by
  simp [Thread.emptyY, Thread.yFull, Vector.getElem_set]

@[simp] theorem y_emptyY (t : Thread) (n m : Nat) : (t.emptyY n).y m = t.y m := rfl

/-- x0 reads zero and discards what is written to it (02 R36). -/
@[simp] theorem readX_zero (t : Thread) : t.readX 0 = 0 := rfl

@[simp] theorem writeX_zero (t : Thread) (v : Word) : t.writeX 0 v = t := rfl

@[simp] theorem readX_writeX (t : Thread) (x : Reg) (v : Word) (h : x ≠ 0) : (t.writeX x v).readX x = v := by
  rw [Thread.readX, if_neg h, Thread.writeX, if_neg h]
  simp [Thread.yOf, y_setY]

/-- A change of a block that keeps its number is what the block's number finds afterwards. -/
theorem block?_onBlock (s : State) (n : Nat) (f : Block → Block) (hf : ∀ b, (f b).bid = b.bid) :
    (s.onBlock n f).block? n = (s.block? n).map f := by
  simp only [State.block?, State.onBlock]
  induction s.blocks with
  | nil => rfl
  | cons b l ih =>
    simp only [List.map_cons, List.find?_cons]
    by_cases h : b.bid = n
    · simp [h, hf]
    · have h' : (b.bid == n) = false := by simp [h]
      simp [h, h', ih]


end Sys2Proof.Laws
end

