-- ==== Sys2Proof/Laws/Ops.lean ====
section
/-! SUPPORT. What the shared operations can do: the ways an issue ends, and which operations leave memory alone or canonical. -/

namespace Sys2Proof.Laws

open Sys2Proof.Machine

/-! ## The issue of an instruction -/

/-- Everything issue can answer (15 R418): no thread, the illegal-instruction response, a wait, EMPTY_READ, or the
instruction's own effect. -/
theorem issue_cases (s : State) (u : Use) (k : Here → Out) :
    (current s (pfxLen u.pfx) = none ∧ issue s u k = .fault .noThread)
    ∨ ∃ h, current s (pfxLen u.pfx) = some h
      ∧ ((u.legalFor h = false ∧ issue s u k = h.illegal)
        ∨ (u.legalFor h = true ∧ u.ready h.t = false ∧ issue s u k = h.wait (emptyWait h u))
        ∨ (u.legalFor h = true ∧ u.ready h.t = true ∧ ∃ x, u.trapping h.t = some x ∧ issue s u k = h.trap 1 (emptyReadVal h.t x))
        ∨ (u.legalFor h = true ∧ u.ready h.t = true ∧ u.trapping h.t = none ∧ issue s u k = k h)) := by
  unfold issue
  cases hc : current s (pfxLen u.pfx) with
  | none => exact .inl ⟨rfl, rfl⟩
  | some h =>
    refine .inr ⟨h, rfl, ?_⟩
    cases hl : u.legalFor h with
    | false => exact .inl ⟨rfl, by simp [hl]⟩
    | true =>
      cases hr : u.ready h.t with
      | false => exact .inr (.inl ⟨rfl, rfl, by simp [hl, hr]⟩)
      | true =>
        cases ht : u.trapping h.t with
        | some x => exact .inr (.inr (.inl ⟨rfl, rfl, x, rfl, by simp [hl, hr, ht]⟩))
        | none => exact .inr (.inr (.inr ⟨rfl, rfl, rfl, by simp [hl, hr, ht]⟩))

/-- An instruction that is legal, finds its registers full and has no empty trapping source has its own effect. -/
theorem issue_goes {s : State} {u : Use} {k : Here → Out} {h : Here} (hc : current s (pfxLen u.pfx) = some h)
    (hl : u.legalFor h = true) (hr : u.ready h.t = true) (ht : u.trapping h.t = none) : issue s u k = k h := by
  unfold issue
  simp [hc, hl, hr, ht]

/-- Full sources trap nowhere (02 R39). -/
theorem trapping_none {u : Use} {t : Thread} (hf : ∀ p ∈ u.srcs, t.xFull p.1 = true) : u.trapping t = none := by
  unfold Use.trapping
  rw [List.find?_eq_none.mpr]
  · rfl
  · intro p hp
    simp [hf p hp]

theorem ready_of_full {u : Use} {t : Thread} (hs : ∀ p ∈ u.srcs, t.xFull p.1 = true) (hd : ∀ x ∈ u.dsts, t.xFull x = true) :
    u.ready t = true := by
  unfold Use.ready
  rw [Bool.and_eq_true]
  exact ⟨List.all_eq_true.mpr fun p hp => by simp [hs p hp], List.all_eq_true.mpr hd⟩

/-- In the execute slice an instruction whose registers the thread has, all full, and whose own checks hold has its effect. -/
theorem issue_here {s : State} {u : Use} {k : Here → Out} {h : Here} (hc : current s (pfxLen u.pfx) = some h)
    (ha : h.acc = false) (hn : ∀ n ∈ u.regs, regOk h n = true) (hs : ∀ p ∈ u.srcs, h.t.xFull p.1 = true)
    (hd : ∀ x ∈ u.dsts, h.t.xFull x = true) (hl : u.legal h = true) : issue s u k = k h := by
  refine issue_goes hc ?_ (ready_of_full hs hd) (trapping_none hs)
  simp only [Use.legalFor, Bool.and_eq_true, List.all_eq_true]
  exact ⟨⟨hn, by simp [ha]⟩, hl⟩

/-- The issuing thread as current finds it: its state, its block and its thread. -/
theorem current_spec {s : State} {n : Nat} {h : Here} (hc : current s n = some h) :
    h.s = s ∧ h.len = n ∧ s.block? h.b.bid = some h.b ∧ h.b.thread? h.acc h.t.tid = some h.t
      ∧ s.cur = some { bid := h.b.bid, tid := h.t.tid, acc := h.acc } := by
  unfold current at hc
  split at hc <;> try contradiction
  rename_i c hcur
  split at hc <;> try contradiction
  rename_i b hb
  split at hc <;> try contradiction
  rename_i t ht
  cases hc
  have h1 : b.bid = c.bid := by
    have := List.find?_some hb
    simpa using this
  have h2 : t.tid = c.tid := by
    have := List.find?_some ht
    simpa using this
  exact ⟨rfl, rfl, by rw [h1]; exact hb, by rw [h2]; exact ht, by rw [h1, h2]; exact hcur⟩

/-! ## What leaves memory alone -/

/-- t holds the memory and the atelier of s. -/
structure SameMem (s t : State) : Prop where
  mem : t.mem = s.mem
  atelier : t.atelier = s.atelier

theorem SameMem.refl (s : State) : SameMem s s := ⟨rfl, rfl⟩

theorem SameMem.trans {s t u : State} (a : SameMem s t) (b : SameMem t u) : SameMem s u :=
  ⟨b.mem.trans a.mem, b.atelier.trans a.atelier⟩

theorem SameMem.canon {s t : State} (a : SameMem s t) (h : Canon s) : Canon t :=
  ⟨by rw [a.mem]; exact h.mem, by rw [a.atelier]; exact h.atelier⟩

theorem SameMem.bytes {s t : State} (a : SameMem s t) : SameBytes s t :=
  ⟨fun _ => by rw [a.mem], fun _ => by rw [a.atelier]⟩

/-- With the first of two changes said last, where only the second one's statement shows what it is. -/
theorem SameMem.after {s t u : State} (b : SameMem t u) (a : SameMem s t) : SameMem s u := a.trans b

theorem sameMem_foldl {α : Type} (f : State → α → State) (hf : ∀ s x, SameMem s (f s x)) :
    ∀ (l : List α) (s : State), SameMem s (l.foldl f s)
  | [], s => .refl s
  | x :: l, s => (hf s x).trans (sameMem_foldl f hf l (f s x))

theorem canon_foldl {α : Type} (f : State → α → State) (hf : ∀ s x, Canon s → Canon (f s x)) :
    ∀ (l : List α) (s : State), Canon s → Canon (l.foldl f s)
  | [], _, h => h
  | x :: l, s, h => canon_foldl f hf l (f s x) (hf s x h)

theorem sameMem_onBlock (s : State) (n : Nat) (f : Block → Block) : SameMem s (s.onBlock n f) := ⟨rfl, rfl⟩

theorem sameMem_put (h : Here) (s : State) (t : Thread) : SameMem s (h.put s t) := ⟨rfl, rfl⟩

theorem sameMem_setThread (s : State) (n : Nat) (acc : Bool) (t : Thread) : SameMem s (s.setThread n acc t) := ⟨rfl, rfl⟩

theorem sameMem_setPart (s : State) (p : Nat) (x : Part) : SameMem s (s.setPart p x) := ⟨rfl, rfl⟩

theorem sameMem_setBar (s : State) (b : Block) (x : Bar) : SameMem s (setBar s b x) := by
  unfold setBar
  split <;> exact ⟨rfl, rfl⟩

theorem sameMem_takePentimento (s : State) (i : Bool) (n : Nat) : SameMem s (takePentimento s i n) := by
  unfold takePentimento
  split <;> exact ⟨rfl, rfl⟩

theorem sameMem_blockBoundary (s : State) (b : Block) : SameMem s (blockBoundary s b) := by
  unfold blockBoundary
  split
  · exact sameMem_takePentimento s _ _
  · exact .refl s

theorem sameMem_clusterBoundary (s : State) (b : Block) : SameMem s (clusterBoundary s b) := by
  unfold clusterBoundary
  split
  · exact sameMem_takePentimento s _ _
  · exact sameMem_foldl _ (fun a x => sameMem_takePentimento a _ _) _ s

theorem sameMem_completePhase (s : State) (b : Block) (id : BarId) : SameMem s (completePhase s b id) := by
  unfold completePhase
  split
  · exact .refl s
  · rename_i x _
    have h1 := sameMem_setBar s b { x with arrived := 0, phase := !x.phase }
    have kb : ∀ u, SameMem s u → SameMem s (blockBoundary u b) := fun u hu => hu.trans (sameMem_blockBoundary u b)
    have kc : ∀ u, SameMem s u → SameMem s (clusterBoundary u b) := fun u hu => hu.trans (sameMem_clusterBoundary u b)
    cases id with
    | block n => exact kb _ ⟨h1.mem, h1.atelier⟩
    | cluster n => exact kc _ ⟨h1.mem, h1.atelier⟩
    | grid n => exact ⟨h1.mem, h1.atelier⟩
    | commit => exact kb _ ⟨h1.mem, h1.atelier⟩

theorem sameMem_tryPhase (s : State) (n : Nat) (id : BarId) : SameMem s (tryPhase s n id) := by
  unfold tryPhase
  split
  · exact .refl s
  · split
    · exact .refl s
    · split
      · split
        · exact (sameMem_completePhase _ _ _).after ⟨rfl, rfl⟩
        · exact sameMem_foldl _ (fun a i => sameMem_onBlock a i _) _ s
      · exact .refl s

theorem sameMem_arrive (s : State) (n tid : Nat) (id : BarId) : SameMem s (arrive s n tid id) := by
  unfold arrive
  split
  · exact .refl s
  · split
    · exact .refl s
    · exact (sameMem_setBar s _ _).trans ((sameMem_onBlock _ _ _).trans (sameMem_tryPhase _ _ _))

theorem sameMem_afterArrival (s : State) (n tid : Nat) (id : BarId) (len : Nat) :
    SameMem s (afterArrival s n tid id len) := by
  unfold afterArrival
  split
  · exact .refl s
  · split
    · exact .refl s
    · exact sameMem_setThread s _ _ _

theorem sameMem_leaveBar (s : State) (n : Nat) (o : List BarId) (id : BarId) : SameMem s (leaveBar s n o id) := by
  unfold leaveBar
  split
  · exact .refl s
  · split
    · exact .refl s
    · exact (sameMem_setBar s _ _).trans (sameMem_tryPhase _ _ _)

theorem sameMem_dropThreads (s : State) (n : Nat) (tids : List Nat) (life : Life) (leave : Bool) :
    SameMem s (dropThreads s n tids life leave) := by
  unfold dropThreads
  simp only
  cases leave with
  | false => exact ⟨rfl, rfl⟩
  | true =>
    refine .trans ?_ (sameMem_foldl _ (fun a o => sameMem_foldl _ (fun c id => sameMem_leaveBar c n o id) _ a) _ _)
    exact ⟨rfl, rfl⟩

theorem sameMem_killThreads (s : State) (n slot : Nat) : SameMem s (killThreads s n slot) := by
  unfold killThreads
  split
  · exact .refl s
  · exact (sameMem_dropThreads s _ _ _ _).trans ⟨rfl, rfl⟩

theorem sameMem_isrSet (s : State) (p bit : Nat) : SameMem s (isrSet s p bit) := ⟨rfl, rfl⟩

theorem sameMem_stick (s : State) (c : Nat) (b : Byte) : SameMem s (stick s c b) := ⟨rfl, rfl⟩

theorem sameMem_contextFault (s : State) (c : Nat) : SameMem s (contextFault s c) := by
  unfold contextFault
  split
  · exact .refl s
  · split
    · exact .refl s
    · exact ⟨rfl, rfl⟩

theorem sameMem_suspendFor (s : State) (b : Block) (va : Word) (cls level : Nat) (e : Word) (x : Site) :
    SameMem s (suspendFor s b va cls level e x) := by
  unfold suspendFor requestService
  split <;> exact ⟨rfl, rfl⟩

theorem sameMem_completeLoads (s : State) (n tid : Nat) : SameMem s (completeLoads s n tid) := ⟨rfl, rfl⟩

theorem sameMem_irrevocable (y : Bool) (h : Here) (s : State) : SameMem s (irrevocable y h s) := by
  unfold irrevocable
  split
  · exact sameMem_clusterBoundary s _
  · exact .refl s

/-! ## What writes a record keeps memory canonical -/

theorem canon_postRecord {s : State} (h : Canon s) (p : Nat) (r : List Byte) : Canon (postRecord s p r) := by
  unfold postRecord
  simp only
  split
  · split
    · exact h
    · exact ⟨h.mem, h.atelier⟩
  · exact ⟨wf_put _ _ h.mem, h.atelier⟩

theorem canon_commissionRecord {s : State} (h : Canon s) (b : Block) (i : CmsnInfo) (inner pc addr : Nat) :
    Canon (commissionRecord s b i inner pc addr) := by
  unfold commissionRecord
  split
  · exact h
  · refine (sameMem_stick _ _ _).canon ?_
    split
    · split
      · simp only
        split
        · exact canon_storeBytes _ _ _ (canon_storeBytes _ _ _ h)
        · exact canon_storeBytes _ _ _ h
      · exact h
    · exact h

theorem canon_illegalAt {s : State} (h : Canon s) (b : Block) (t : Thread) : Canon (illegalAt s b t) := by
  unfold illegalAt
  split
  · exact canon_commissionRecord ((sameMem_killThreads s _ _).canon h) _ _ _ _ _
  · exact (sameMem_stick _ _ _).canon ((sameMem_killThreads s _ _).canon h)

theorem canon_doubleFault {s : State} (h : Canon s) (b : Block) (t : Thread) (ipc : Word) (c : Nat) :
    Canon (doubleFault s b t ipc c) := by
  unfold doubleFault
  split
  · exact canon_commissionRecord ((sameMem_killThreads s _ _).canon h) _ _ _ _ _
  · exact canon_postRecord ((sameMem_stick _ _ _).canon ((sameMem_killThreads s _ _).canon h)) _ _

theorem canon_trapEntry {s : State} (h : Canon s) (n tid : Nat) (ipc : Word) (c : Nat) (tpc tval : Word) :
    Canon (trapEntry s n tid ipc c tpc tval) := by
  have h1 := (sameMem_completeLoads s n tid).canon h
  unfold trapEntry
  simp only
  split
  · exact h1
  · split
    · exact h1
    · split
      · exact canon_doubleFault h1 _ _ _ _
      · exact (sameMem_setThread _ _ _ _).canon h1

theorem canon_programFault {s : State} (h : Canon s) (b : Block) (t : Thread) (acc : Bool) (code : Nat) (pc addr : Word)
    (cls size : Nat) : Canon (programFault s b t acc code pc addr cls size) := by
  unfold programFault
  simp only
  have h1 := (sameMem_setThread s b.bid acc { t with tpc := pc, tval := addr }).canon h
  split
  · exact canon_commissionRecord ((sameMem_killThreads _ _ _).canon h1) _ _ _ _ _
  · exact canon_postRecord ((sameMem_contextFault _ _).canon h1) _ _

theorem sameMem_wantRepair (s : State) (m : MemBank) : SameMem s (wantRepair s m) := by
  unfold wantRepair wantDram wantRetire
  repeat' split
  all_goals exact ⟨rfl, rfl⟩

theorem sameMem_consume (s : State) (v : View) (f : AccFault) : SameMem s (consume s v f) :=
  sameMem_foldl _ (fun s m => SameMem.trans (t := { s with marks := s.marks.filter (· != m) }) ⟨rfl, rfl⟩ (sameMem_wantRepair _ _)) _ s

theorem canon_accessFault {s : State} (h : Canon s) (b : Block) (t : Thread) (acc : Bool) (f : AccFault) (pc : Word)
    (cls size : Nat) : Canon (accessFault s b t acc f pc cls size) := by
  unfold accessFault
  split
  · exact (sameMem_suspendFor s _ _ _ _ _ _).canon h
  · exact canon_programFault ((sameMem_consume s _ _).canon h) _ _ _ _ _ _ _ _

/-- An issue keeps memory canonical where the instruction's own effect does. -/
theorem canon_issue {s t : State} {u : Use} {k : Here → Out} (h : Canon s)
    (hk : ∀ x, x.s = s → k x = .next t → Canon t) (e : issue s u k = .next t) : Canon t := by
  rcases issue_cases s u k with ⟨_, e1⟩ | ⟨x, hx, e1⟩
  · rw [e1] at e
    contradiction
  · have hs := (current_spec hx).1
    rcases e1 with ⟨_, e1⟩ | ⟨_, _, e1⟩ | ⟨_, _, _, _, e1⟩ | ⟨_, _, _, e1⟩
    · rw [e1] at e
      cases e
      rw [hs]
      exact canon_illegalAt h _ _
    · rw [e1] at e
      cases e
      rw [hs]
      exact (sameMem_put _ _ _).canon h
    · rw [e1] at e
      cases e
      rw [hs]
      exact canon_trapEntry h _ _ _ _ _ _
    · exact hk x hs (e1 ▸ e)

end Sys2Proof.Laws
end

