-- ==== Sys2Proof/Laws/PerInstr.lean ====
section
/-! SUPPORT. One lemma per constructor of Instr about its encoding: an event has no words, an instruction one word, or two with
a prefix (06 R121, R122). -/

namespace Sys2Proof.Laws.Length

/-- The number of words of an instruction's encoding (06 R121, R122). -/
def Statement (i : Instr) : Prop :=
  (encode i).length = if i.isEvent then 0 else if i.pfx.isSome then 2 else 1

theorem add (p : Option Pfx) (rd : Reg) (ra : Reg) (rb : Reg) (fea : Bool) (feb : Bool) :
    Statement (.add p rd ra rb fea feb) := by cases p <;> rfl
theorem sub (p : Option Pfx) (rd : Reg) (ra : Reg) (rb : Reg) (fea : Bool) (feb : Bool) :
    Statement (.sub p rd ra rb fea feb) := by cases p <;> rfl
theorem and (p : Option Pfx) (rd : Reg) (ra : Reg) (rb : Reg) (fea : Bool) (feb : Bool) :
    Statement (.and p rd ra rb fea feb) := by cases p <;> rfl
theorem or (p : Option Pfx) (rd : Reg) (ra : Reg) (rb : Reg) (fea : Bool) (feb : Bool) :
    Statement (.or p rd ra rb fea feb) := by cases p <;> rfl
theorem xor (p : Option Pfx) (rd : Reg) (ra : Reg) (rb : Reg) (fea : Bool) (feb : Bool) :
    Statement (.xor p rd ra rb fea feb) := by cases p <;> rfl
theorem andn (p : Option Pfx) (rd : Reg) (ra : Reg) (rb : Reg) (fea : Bool) (feb : Bool) :
    Statement (.andn p rd ra rb fea feb) := by cases p <;> rfl
theorem shl (p : Option Pfx) (rd : Reg) (ra : Reg) (rb : Reg) (fea : Bool) (feb : Bool) :
    Statement (.shl p rd ra rb fea feb) := by cases p <;> rfl
theorem shr (p : Option Pfx) (rd : Reg) (ra : Reg) (rb : Reg) (fea : Bool) (feb : Bool) :
    Statement (.shr p rd ra rb fea feb) := by cases p <;> rfl
theorem sra (p : Option Pfx) (rd : Reg) (ra : Reg) (rb : Reg) (fea : Bool) (feb : Bool) :
    Statement (.sra p rd ra rb fea feb) := by cases p <;> rfl
theorem rot (p : Option Pfx) (rd : Reg) (ra : Reg) (rb : Reg) (fea : Bool) (feb : Bool) :
    Statement (.rot p rd ra rb fea feb) := by cases p <;> rfl
theorem min (p : Option Pfx) (rd : Reg) (ra : Reg) (rb : Reg) (fea : Bool) (feb : Bool) :
    Statement (.min p rd ra rb fea feb) := by cases p <;> rfl
theorem max (p : Option Pfx) (rd : Reg) (ra : Reg) (rb : Reg) (fea : Bool) (feb : Bool) :
    Statement (.max p rd ra rb fea feb) := by cases p <;> rfl
theorem minn (p : Option Pfx) (rd : Reg) (ra : Reg) (rb : Reg) (fea : Bool) (feb : Bool) :
    Statement (.minn p rd ra rb fea feb) := by cases p <;> rfl
theorem maxn (p : Option Pfx) (rd : Reg) (ra : Reg) (rb : Reg) (fea : Bool) (feb : Bool) :
    Statement (.maxn p rd ra rb fea feb) := by cases p <;> rfl
theorem slt (p : Option Pfx) (rd : Reg) (ra : Reg) (rb : Reg) (fea : Bool) (feb : Bool) :
    Statement (.slt p rd ra rb fea feb) := by cases p <;> rfl
theorem mul (p : Option Pfx) (rd : Reg) (ra : Reg) (rb : Reg) (fea : Bool) (feb : Bool) :
    Statement (.mul p rd ra rb fea feb) := by cases p <;> rfl
theorem mulh (p : Option Pfx) (rd : Reg) (ra : Reg) (rb : Reg) (fea : Bool) (feb : Bool) :
    Statement (.mulh p rd ra rb fea feb) := by cases p <;> rfl
theorem mulhn (p : Option Pfx) (rd : Reg) (ra : Reg) (rb : Reg) (fea : Bool) (feb : Bool) :
    Statement (.mulhn p rd ra rb fea feb) := by cases p <;> rfl
theorem div (p : Option Pfx) (rd : Reg) (ra : Reg) (rb : Reg) (fea : Bool) (feb : Bool) :
    Statement (.div p rd ra rb fea feb) := by cases p <;> rfl
theorem divn (p : Option Pfx) (rd : Reg) (ra : Reg) (rb : Reg) (fea : Bool) (feb : Bool) :
    Statement (.divn p rd ra rb fea feb) := by cases p <;> rfl
theorem rem (p : Option Pfx) (rd : Reg) (ra : Reg) (rb : Reg) (fea : Bool) (feb : Bool) :
    Statement (.rem p rd ra rb fea feb) := by cases p <;> rfl
theorem remn (p : Option Pfx) (rd : Reg) (ra : Reg) (rb : Reg) (fea : Bool) (feb : Bool) :
    Statement (.remn p rd ra rb fea feb) := by cases p <;> rfl
theorem sltn (p : Option Pfx) (rd : Reg) (ra : Reg) (rb : Reg) (fea : Bool) (feb : Bool) :
    Statement (.sltn p rd ra rb fea feb) := by cases p <;> rfl
theorem clz (p : Option Pfx) (rd : Reg) (ra : Reg) (fea : Bool) : Statement (.clz p rd ra fea) := by cases p <;> rfl
theorem ctz (p : Option Pfx) (rd : Reg) (ra : Reg) (fea : Bool) : Statement (.ctz p rd ra fea) := by cases p <;> rfl
theorem popc (p : Option Pfx) (rd : Reg) (ra : Reg) (fea : Bool) : Statement (.popc p rd ra fea) := by cases p <;> rfl
theorem brev (p : Option Pfx) (rd : Reg) (ra : Reg) (fea : Bool) : Statement (.brev p rd ra fea) := by cases p <;> rfl
theorem shli (p : Option Pfx) (rd : Reg) (ra : Reg) (sh : BitVec 6) (fea : Bool) :
    Statement (.shli p rd ra sh fea) := by cases p <;> rfl
theorem shri (p : Option Pfx) (rd : Reg) (ra : Reg) (sh : BitVec 6) (fea : Bool) :
    Statement (.shri p rd ra sh fea) := by cases p <;> rfl
theorem srai (p : Option Pfx) (rd : Reg) (ra : Reg) (sh : BitVec 6) (fea : Bool) :
    Statement (.srai p rd ra sh fea) := by cases p <;> rfl
theorem sel (p : Option Pfx) (rd : Reg) (ra : Reg) (rb : Reg) (fea : Bool) (feb : Bool) :
    Statement (.sel p rd ra rb fea feb) := by cases p <;> rfl
theorem addi (p : Option Pfx) (rd : Reg) (ra : Reg) (fea : Bool) (imm : BitVec 12) :
    Statement (.addi p rd ra fea imm) := by cases p <;> rfl
theorem andi (p : Option Pfx) (rd : Reg) (ra : Reg) (fea : Bool) (imm : BitVec 12) :
    Statement (.andi p rd ra fea imm) := by cases p <;> rfl
theorem slti (p : Option Pfx) (rd : Reg) (ra : Reg) (fea : Bool) (imm : BitVec 12) :
    Statement (.slti p rd ra fea imm) := by cases p <;> rfl
theorem sltni (p : Option Pfx) (rd : Reg) (ra : Reg) (fea : Bool) (imm : BitVec 12) :
    Statement (.sltni p rd ra fea imm) := by cases p <;> rfl
theorem ld (p : Option Pfx) (rd : Reg) (ra : Reg) (size : BitVec 2) (fe : Bool) (imm : BitVec 10) :
    Statement (.ld p rd ra size fe imm) := by cases p <;> rfl
theorem ldz (p : Option Pfx) (rd : Reg) (ra : Reg) (size : BitVec 2) (fe : Bool) (imm : BitVec 10) :
    Statement (.ldz p rd ra size fe imm) := by cases p <;> rfl
theorem st (p : Option Pfx) (rd : Reg) (ra : Reg) (size : BitVec 2) (fe : Bool) (imm : BitVec 10) :
    Statement (.st p rd ra size fe imm) := by cases p <;> rfl
theorem br (ra : Reg) (cond : BitVec 4) (disp : BitVec 16) : Statement (.br ra cond disp) := rfl
theorem loop (lc : BitVec 2) (ra : Reg) (disp : BitVec 18) : Statement (.loop lc ra disp) := rfl
theorem brspawn (ra : Reg) (rb : Reg) (cond : BitVec 3) (first : BitVec 6) (cnt : BitVec 4) :
    Statement (.brspawn ra rb cond first cnt) := rfl
theorem fadd (p : Option Pfx) (rd : Reg) (ra : Reg) (rb : Reg) (fea : Bool) (feb : Bool) (typ : BitVec 2) :
    Statement (.fadd p rd ra rb fea feb typ) := by cases p <;> rfl
theorem fsub (p : Option Pfx) (rd : Reg) (ra : Reg) (rb : Reg) (fea : Bool) (feb : Bool) (typ : BitVec 2) :
    Statement (.fsub p rd ra rb fea feb typ) := by cases p <;> rfl
theorem fmul (p : Option Pfx) (rd : Reg) (ra : Reg) (rb : Reg) (fea : Bool) (feb : Bool) (typ : BitVec 2) :
    Statement (.fmul p rd ra rb fea feb typ) := by cases p <;> rfl
theorem fma (p : Option Pfx) (rd : Reg) (ra : Reg) (rb : Reg) (fea : Bool) (feb : Bool) (typ : BitVec 2) :
    Statement (.fma p rd ra rb fea feb typ) := by cases p <;> rfl
theorem fmin (p : Option Pfx) (rd : Reg) (ra : Reg) (rb : Reg) (fea : Bool) (feb : Bool) (typ : BitVec 2) :
    Statement (.fmin p rd ra rb fea feb typ) := by cases p <;> rfl
theorem fmax (p : Option Pfx) (rd : Reg) (ra : Reg) (rb : Reg) (fea : Bool) (feb : Bool) (typ : BitVec 2) :
    Statement (.fmax p rd ra rb fea feb typ) := by cases p <;> rfl
theorem fdiv (p : Option Pfx) (rd : Reg) (ra : Reg) (rb : Reg) (fea : Bool) (feb : Bool) (typ : BitVec 2) :
    Statement (.fdiv p rd ra rb fea feb typ) := by cases p <;> rfl
theorem fcmplt (p : Option Pfx) (rd : Reg) (ra : Reg) (rb : Reg) (fea : Bool) (feb : Bool) (typ : BitVec 2) :
    Statement (.fcmplt p rd ra rb fea feb typ) := by cases p <;> rfl
theorem fcmpeq (p : Option Pfx) (rd : Reg) (ra : Reg) (rb : Reg) (fea : Bool) (feb : Bool) (typ : BitVec 2) :
    Statement (.fcmpeq p rd ra rb fea feb typ) := by cases p <;> rfl
theorem fcmple (p : Option Pfx) (rd : Reg) (ra : Reg) (rb : Reg) (fea : Bool) (feb : Bool) (typ : BitVec 2) :
    Statement (.fcmple p rd ra rb fea feb typ) := by cases p <;> rfl
theorem fcmpun (p : Option Pfx) (rd : Reg) (ra : Reg) (rb : Reg) (fea : Bool) (feb : Bool) (typ : BitVec 2) :
    Statement (.fcmpun p rd ra rb fea feb typ) := by cases p <;> rfl
theorem fcopysign (p : Option Pfx) (rd : Reg) (ra : Reg) (rb : Reg) (fea : Bool) (feb : Bool) (typ : BitVec 2) :
    Statement (.fcopysign p rd ra rb fea feb typ) := by cases p <;> rfl
theorem fsqrt (p : Option Pfx) (rd : Reg) (ra : Reg) (dst : BitVec 3) (src : BitVec 4) (fea : Bool) :
    Statement (.fsqrt p rd ra dst src fea) := by cases p <;> rfl
theorem frcp (p : Option Pfx) (rd : Reg) (ra : Reg) (dst : BitVec 3) (src : BitVec 4) (fea : Bool) :
    Statement (.frcp p rd ra dst src fea) := by cases p <;> rfl
theorem frsq (p : Option Pfx) (rd : Reg) (ra : Reg) (dst : BitVec 3) (src : BitVec 4) (fea : Bool) :
    Statement (.frsq p rd ra dst src fea) := by cases p <;> rfl
theorem fexp2 (p : Option Pfx) (rd : Reg) (ra : Reg) (dst : BitVec 3) (src : BitVec 4) (fea : Bool) :
    Statement (.fexp2 p rd ra dst src fea) := by cases p <;> rfl
theorem flog2 (p : Option Pfx) (rd : Reg) (ra : Reg) (dst : BitVec 3) (src : BitVec 4) (fea : Bool) :
    Statement (.flog2 p rd ra dst src fea) := by cases p <;> rfl
theorem fsin (p : Option Pfx) (rd : Reg) (ra : Reg) (dst : BitVec 3) (src : BitVec 4) (fea : Bool) :
    Statement (.fsin p rd ra dst src fea) := by cases p <;> rfl
theorem fcos (p : Option Pfx) (rd : Reg) (ra : Reg) (dst : BitVec 3) (src : BitVec 4) (fea : Bool) :
    Statement (.fcos p rd ra dst src fea) := by cases p <;> rfl
theorem ftanh (p : Option Pfx) (rd : Reg) (ra : Reg) (dst : BitVec 3) (src : BitVec 4) (fea : Bool) :
    Statement (.ftanh p rd ra dst src fea) := by cases p <;> rfl
theorem fabs (p : Option Pfx) (rd : Reg) (ra : Reg) (dst : BitVec 3) (src : BitVec 4) (fea : Bool) :
    Statement (.fabs p rd ra dst src fea) := by cases p <;> rfl
theorem fneg (p : Option Pfx) (rd : Reg) (ra : Reg) (dst : BitVec 3) (src : BitVec 4) (fea : Bool) :
    Statement (.fneg p rd ra dst src fea) := by cases p <;> rfl
theorem fclass (p : Option Pfx) (rd : Reg) (ra : Reg) (dst : BitVec 3) (src : BitVec 4) (fea : Bool) :
    Statement (.fclass p rd ra dst src fea) := by cases p <;> rfl
theorem fround (p : Option Pfx) (rd : Reg) (ra : Reg) (dst : BitVec 3) (src : BitVec 4) (fea : Bool) :
    Statement (.fround p rd ra dst src fea) := by cases p <;> rfl
theorem fcvt (p : Option Pfx) (rd : Reg) (ra : Reg) (dst : BitVec 3) (src : BitVec 4) (fea : Bool) :
    Statement (.fcvt p rd ra dst src fea) := by cases p <;> rfl
theorem ftoi (p : Option Pfx) (rd : Reg) (ra : Reg) (dst : BitVec 3) (src : BitVec 4) (fea : Bool) :
    Statement (.ftoi p rd ra dst src fea) := by cases p <;> rfl
theorem itof (p : Option Pfx) (rd : Reg) (ra : Reg) (dst : BitVec 3) (src : BitVec 4) (fea : Bool) :
    Statement (.itof p rd ra dst src fea) := by cases p <;> rfl
theorem fexpt (p : Option Pfx) (rd : Reg) (ra : Reg) (dst : BitVec 3) (src : BitVec 4) (fea : Bool) :
    Statement (.fexpt p rd ra dst src fea) := by cases p <;> rfl
theorem padd (p : Option Pfx) (rd : Reg) (ra : Reg) (rb : Reg) (fea : Bool) (feb : Bool) (width : BitVec 2) :
    Statement (.padd p rd ra rb fea feb width) := by cases p <;> rfl
theorem psub (p : Option Pfx) (rd : Reg) (ra : Reg) (rb : Reg) (fea : Bool) (feb : Bool) (width : BitVec 2) :
    Statement (.psub p rd ra rb fea feb width) := by cases p <;> rfl
theorem pmul (p : Option Pfx) (rd : Reg) (ra : Reg) (rb : Reg) (fea : Bool) (feb : Bool) (width : BitVec 2) :
    Statement (.pmul p rd ra rb fea feb width) := by cases p <;> rfl
theorem pmin (p : Option Pfx) (rd : Reg) (ra : Reg) (rb : Reg) (fea : Bool) (feb : Bool) (width : BitVec 2) :
    Statement (.pmin p rd ra rb fea feb width) := by cases p <;> rfl
theorem pmax (p : Option Pfx) (rd : Reg) (ra : Reg) (rb : Reg) (fea : Bool) (feb : Bool) (width : BitVec 2) :
    Statement (.pmax p rd ra rb fea feb width) := by cases p <;> rfl
theorem pavg (p : Option Pfx) (rd : Reg) (ra : Reg) (rb : Reg) (fea : Bool) (feb : Bool) (width : BitVec 2) :
    Statement (.pavg p rd ra rb fea feb width) := by cases p <;> rfl
theorem pcmpeq (p : Option Pfx) (rd : Reg) (ra : Reg) (rb : Reg) (fea : Bool) (feb : Bool) (width : BitVec 2) :
    Statement (.pcmpeq p rd ra rb fea feb width) := by cases p <;> rfl
theorem pcmplt (p : Option Pfx) (rd : Reg) (ra : Reg) (rb : Reg) (fea : Bool) (feb : Bool) (width : BitVec 2) :
    Statement (.pcmplt p rd ra rb fea feb width) := by cases p <;> rfl
theorem shfl (p : Option Pfx) (rd : Reg) (ra : Reg) (rb : Reg) (fea : Bool) (feb : Bool) :
    Statement (.shfl p rd ra rb fea feb) := by cases p <;> rfl
theorem shfli (p : Option Pfx) (rd : Reg) (ra : Reg) (mode : BitVec 2) (imm : BitVec 5) (fea : Bool) :
    Statement (.shfli p rd ra mode imm fea) := by cases p <;> rfl
theorem bcast (p : Option Pfx) (rd : Reg) (ra : Reg) (rb : Reg) (fea : Bool) (feb : Bool) :
    Statement (.bcast p rd ra rb fea feb) := by cases p <;> rfl
theorem gred (p : Option Pfx) (rd : Reg) (ra : Reg) (op : BitVec 3) (typ : BitVec 4) (fea : Bool) :
    Statement (.gred p rd ra op typ fea) := by cases p <;> rfl
theorem gscan (p : Option Pfx) (rd : Reg) (ra : Reg) (op : BitVec 3) (typ : BitVec 4) (fea : Bool) :
    Statement (.gscan p rd ra op typ fea) := by cases p <;> rfl
theorem vote (p : Option Pfx) (rd : Reg) (ra : Reg) (mode : BitVec 2) (fea : Bool) :
    Statement (.vote p rd ra mode fea) := by cases p <;> rfl
theorem matchKeys (p : Option Pfx) (rd : Reg) (ra : Reg) (byValue : Bool) (typ : BitVec 4) (fea : Bool) :
    Statement (.matchKeys p rd ra byValue typ fea) := by cases p <;> rfl
theorem join (rd : Reg) (ra : Reg) (fea : Bool) : Statement (.join rd ra fea) := rfl
theorem leave (ra : Reg) (fea : Bool) : Statement (.leave ra fea) := rfl
theorem grank (rd : Reg) (ra : Reg) (fea : Bool) : Statement (.grank rd ra fea) := rfl
theorem xsend (slot : BitVec 4) (ra : Reg) (rb : Reg) (fea : Bool) (feb : Bool) :
    Statement (.xsend slot ra rb fea feb) := rfl
theorem xrecv (rd : Reg) (slot : BitVec 4) : Statement (.xrecv rd slot) := rfl
theorem pshuf (p : Option Pfx) (rd : Reg) (ra : Reg) (width : BitVec 2) (fea : Bool) :
    Statement (.pshuf p rd ra width fea) := by cases p <;> rfl
theorem ppack (p : Option Pfx) (rd : Reg) (ra : Reg) (mode : BitVec 2) (half : Bool) (width : BitVec 2) (fea : Bool) :
    Statement (.ppack p rd ra mode half width fea) := by cases p <;> rfl
theorem punpk (p : Option Pfx) (rd : Reg) (ra : Reg) (zx : Bool) (half : Bool) (width : BitVec 2) (fea : Bool) :
    Statement (.punpk p rd ra zx half width fea) := by cases p <;> rfl
theorem segred (p : Option Pfx) (rd : Reg) (ra : Reg) (op : BitVec 3) (typ : BitVec 4) (fea : Bool) :
    Statement (.segred p rd ra op typ fea) := by cases p <;> rfl
theorem ldr (rd : Reg) (ra : Reg) (zx : Bool) (size : BitVec 2) (scope : BitVec 3) (fea : Bool) :
    Statement (.ldr rd ra zx size scope fea) := rfl
theorem str (size : BitVec 2) (scope : BitVec 3) (ra : Reg) (rb : Reg) (fea : Bool) (feb : Bool) :
    Statement (.str size scope ra rb fea feb) := rfl
theorem lda (rd : Reg) (ra : Reg) (zx : Bool) (size : BitVec 2) (scope : BitVec 3) (fea : Bool) :
    Statement (.lda rd ra zx size scope fea) := rfl
theorem stl (size : BitVec 2) (scope : BitVec 3) (ra : Reg) (rb : Reg) (fea : Bool) (feb : Bool) :
    Statement (.stl size scope ra rb fea feb) := rfl
theorem fence (uo : Bool) (scope : BitVec 3) : Statement (.fence uo scope) := rfl
theorem pref (ra : Reg) (fea : Bool) : Statement (.pref ra fea) := rfl
theorem ipref (ra : Reg) (fea : Bool) : Statement (.ipref ra fea) := rfl
theorem ragld (p : Option Pfx) (rd : Reg) (ra : Reg) (width : BitVec 2) (fea : Bool) :
    Statement (.ragld p rd ra width fea) := by cases p <;> rfl
theorem fqpop (rd : Reg) (q : BitVec 2) : Statement (.fqpop rd q) := rfl
theorem fqpush (q : BitVec 2) (ra : Reg) (fea : Bool) : Statement (.fqpush q ra fea) := rfl
theorem cwb (ra : Reg) (fea : Bool) : Statement (.cwb ra fea) := rfl
theorem cinv (ra : Reg) (fea : Bool) : Statement (.cinv ra fea) := rfl
theorem tileld (p : Option Pfx) (rd : Reg) (ra : Reg) (typ : BitVec 2) :
    Statement (.tileld p rd ra typ) := by cases p <;> rfl
theorem tilest (p : Option Pfx) (rd : Reg) (ra : Reg) : Statement (.tilest p rd ra) := by cases p <;> rfl
theorem copy (p : Option Pfx) (rd : Reg) (ra : Reg) : Statement (.copy p rd ra) := by cases p <;> rfl
theorem gather (p : Option Pfx) (rd : Reg) (ra : Reg) (width : BitVec 2) :
    Statement (.gather p rd ra width) := by cases p <;> rfl
theorem coll (p : Option Pfx) (rd : Reg) (ra : Reg) : Statement (.coll p rd ra) := by cases p <;> rfl
theorem waitc (nlo : Reg) (nhi : Bool) (cls : BitVec 2) : Statement (.waitc nlo nhi cls) := rfl
theorem aadd (p : Option Pfx) (rd : Reg) (ra : Reg) (rb : Reg) (scope : BitVec 2) :
    Statement (.aadd p rd ra rb scope) := by cases p <;> rfl
theorem amin (p : Option Pfx) (rd : Reg) (ra : Reg) (rb : Reg) (scope : BitVec 2) :
    Statement (.amin p rd ra rb scope) := by cases p <;> rfl
theorem amax (p : Option Pfx) (rd : Reg) (ra : Reg) (rb : Reg) (scope : BitVec 2) :
    Statement (.amax p rd ra rb scope) := by cases p <;> rfl
theorem aminn (p : Option Pfx) (rd : Reg) (ra : Reg) (rb : Reg) (scope : BitVec 2) :
    Statement (.aminn p rd ra rb scope) := by cases p <;> rfl
theorem amaxn (p : Option Pfx) (rd : Reg) (ra : Reg) (rb : Reg) (scope : BitVec 2) :
    Statement (.amaxn p rd ra rb scope) := by cases p <;> rfl
theorem aand (p : Option Pfx) (rd : Reg) (ra : Reg) (rb : Reg) (scope : BitVec 2) :
    Statement (.aand p rd ra rb scope) := by cases p <;> rfl
theorem aor (p : Option Pfx) (rd : Reg) (ra : Reg) (rb : Reg) (scope : BitVec 2) :
    Statement (.aor p rd ra rb scope) := by cases p <;> rfl
theorem axor (p : Option Pfx) (rd : Reg) (ra : Reg) (rb : Reg) (scope : BitVec 2) :
    Statement (.axor p rd ra rb scope) := by cases p <;> rfl
theorem axchg (p : Option Pfx) (rd : Reg) (ra : Reg) (rb : Reg) (scope : BitVec 2) :
    Statement (.axchg p rd ra rb scope) := by cases p <;> rfl
theorem acas (p : Option Pfx) (rd : Reg) (ra : Reg) (rb : Reg) (scope : BitVec 2) :
    Statement (.acas p rd ra rb scope) := by cases p <;> rfl
theorem acask (p : Pfx) (rd : Reg) (ra : Reg) (rb : Reg) (scope : BitVec 2) :
    Statement (.acask p rd ra rb scope) := rfl
theorem aincw (p : Option Pfx) (rd : Reg) (ra : Reg) (rb : Reg) (scope : BitVec 2) :
    Statement (.aincw p rd ra rb scope) := by cases p <;> rfl
theorem afadd (p : Option Pfx) (rd : Reg) (ra : Reg) (rb : Reg) (scope : BitVec 2) :
    Statement (.afadd p rd ra rb scope) := by cases p <;> rfl
theorem afmin (p : Option Pfx) (rd : Reg) (ra : Reg) (rb : Reg) (scope : BitVec 2) :
    Statement (.afmin p rd ra rb scope) := by cases p <;> rfl
theorem afmax (p : Option Pfx) (rd : Reg) (ra : Reg) (rb : Reg) (scope : BitVec 2) :
    Statement (.afmax p rd ra rb scope) := by cases p <;> rfl
theorem aaddW32 (p : Option Pfx) (rd : Reg) (ra : Reg) (rb : Reg) (scope : BitVec 2) :
    Statement (.aaddW32 p rd ra rb scope) := by cases p <;> rfl
theorem aminW32 (p : Option Pfx) (rd : Reg) (ra : Reg) (rb : Reg) (scope : BitVec 2) :
    Statement (.aminW32 p rd ra rb scope) := by cases p <;> rfl
theorem amaxW32 (p : Option Pfx) (rd : Reg) (ra : Reg) (rb : Reg) (scope : BitVec 2) :
    Statement (.amaxW32 p rd ra rb scope) := by cases p <;> rfl
theorem aminnW32 (p : Option Pfx) (rd : Reg) (ra : Reg) (rb : Reg) (scope : BitVec 2) :
    Statement (.aminnW32 p rd ra rb scope) := by cases p <;> rfl
theorem amaxnW32 (p : Option Pfx) (rd : Reg) (ra : Reg) (rb : Reg) (scope : BitVec 2) :
    Statement (.amaxnW32 p rd ra rb scope) := by cases p <;> rfl
theorem aandW32 (p : Option Pfx) (rd : Reg) (ra : Reg) (rb : Reg) (scope : BitVec 2) :
    Statement (.aandW32 p rd ra rb scope) := by cases p <;> rfl
theorem aorW32 (p : Option Pfx) (rd : Reg) (ra : Reg) (rb : Reg) (scope : BitVec 2) :
    Statement (.aorW32 p rd ra rb scope) := by cases p <;> rfl
theorem axorW32 (p : Option Pfx) (rd : Reg) (ra : Reg) (rb : Reg) (scope : BitVec 2) :
    Statement (.axorW32 p rd ra rb scope) := by cases p <;> rfl
theorem axchgW32 (p : Option Pfx) (rd : Reg) (ra : Reg) (rb : Reg) (scope : BitVec 2) :
    Statement (.axchgW32 p rd ra rb scope) := by cases p <;> rfl
theorem acasW32 (p : Option Pfx) (rd : Reg) (ra : Reg) (rb : Reg) (scope : BitVec 2) :
    Statement (.acasW32 p rd ra rb scope) := by cases p <;> rfl
theorem acaskW32 (p : Pfx) (rd : Reg) (ra : Reg) (rb : Reg) (scope : BitVec 2) :
    Statement (.acaskW32 p rd ra rb scope) := rfl
theorem aincwW32 (p : Option Pfx) (rd : Reg) (ra : Reg) (rb : Reg) (scope : BitVec 2) :
    Statement (.aincwW32 p rd ra rb scope) := by cases p <;> rfl
theorem afaddW32 (p : Option Pfx) (rd : Reg) (ra : Reg) (rb : Reg) (scope : BitVec 2) :
    Statement (.afaddW32 p rd ra rb scope) := by cases p <;> rfl
theorem afminW32 (p : Option Pfx) (rd : Reg) (ra : Reg) (rb : Reg) (scope : BitVec 2) :
    Statement (.afminW32 p rd ra rb scope) := by cases p <;> rfl
theorem afmaxW32 (p : Option Pfx) (rd : Reg) (ra : Reg) (rb : Reg) (scope : BitVec 2) :
    Statement (.afmaxW32 p rd ra rb scope) := by cases p <;> rfl
theorem mma (p : Option Pfx) (acc : BitVec 6) (cv : BitVec 4) (ra : Reg) (rb : Reg) (fmt : BitVec 3) :
    Statement (.mma p acc cv ra rb fmt) := by cases p <;> rfl
theorem cvdecl (n : BitVec 4) (ra : Reg) (fea : Bool) : Statement (.cvdecl n ra fea) := rfl
theorem acalloc (n : BitVec 6) : Statement (.acalloc n) := rfl
theorem acfree (n : BitVec 6) : Statement (.acfree n) := rfl
theorem azero (n : BitVec 6) : Statement (.azero n) := rfl
theorem acommit (ra : Reg) (fea : Bool) : Statement (.acommit ra fea) := rfl
theorem aload (p : Option Pfx) (f64 : Bool) (n : BitVec 6) (ra : Reg) (rb : Reg) (fea : Bool) (feb : Bool) :
    Statement (.aload p f64 n ra rb fea feb) := by cases p <;> rfl
theorem astore (p : Option Pfx) (f64 : Bool) (n : BitVec 6) (ra : Reg) (rb : Reg) (fea : Bool) (feb : Bool) :
    Statement (.astore p f64 n ra rb fea feb) := by cases p <;> rfl
theorem scacc (n : BitVec 6) (ra : Reg) (part : BitVec 6) : Statement (.scacc n ra part) := rfl
theorem amovr (rd : Reg) (n : BitVec 6) (rb : Reg) (feb : Bool) : Statement (.amovr rd n rb feb) := rfl
theorem bara (n : BitVec 6) : Statement (.bara n) := rfl
theorem barw (n : BitVec 6) : Statement (.barw n) := rfl
theorem bars (n : BitVec 6) : Statement (.bars n) := rfl
theorem cbara (n : BitVec 4) : Statement (.cbara n) := rfl
theorem cbarw (n : BitVec 4) : Statement (.cbarw n) := rfl
theorem gbara (n : BitVec 3) : Statement (.gbara n) := rfl
theorem gbarw (n : BitVec 3) : Statement (.gbarw n) := rfl
theorem gset (n : BitVec 4) : Statement (.gset n) := rfl
theorem gres (ra : Reg) (n : BitVec 4) (fea : Bool) : Statement (.gres ra n fea) := rfl
theorem tlaunch (rd : Reg) (ra : Reg) (fea : Bool) : Statement (.tlaunch rd ra fea) := rfl
theorem tnext (rd : Reg) : Statement (.tnext rd) := rfl
theorem jmpr (ra : Reg) (fea : Bool) : Statement (.jmpr ra fea) := rfl
theorem callr (rd : Reg) (ra : Reg) (fea : Bool) : Statement (.callr rd ra fea) := rfl
theorem ret (ra : Reg) (fea : Bool) : Statement (.ret ra fea) := rfl
theorem exit : Statement (.exit) := rfl
theorem yield : Statement (.yield) := rfl
theorem reconv (rd : Reg) (ra : Reg) (rb : Reg) (fea : Bool) (feb : Bool) :
    Statement (.reconv rd ra rb fea feb) := rfl
theorem lcset (lc : BitVec 2) (ra : Reg) (fea : Bool) : Statement (.lcset lc ra fea) := rfl
theorem trap (ra : Reg) (fea : Bool) : Statement (.trap ra fea) := rfl
theorem rte (ra : Reg) (fea : Bool) : Statement (.rte ra fea) := rfl
theorem brk : Statement (.brk) := rfl
theorem winbase (n : BitVec 3) : Statement (.winbase n) := rfl
theorem srd (rd : Reg) (n : BitVec 5) : Statement (.srd rd n) := rfl
theorem swr (ra : Reg) (n : BitVec 5) (fea : Bool) : Statement (.swr ra n fea) := rfl
theorem capq (rd : Reg) (n : BitVec 4) : Statement (.capq rd n) := rfl
theorem tstamp (rd : Reg) : Statement (.tstamp rd) := rfl
theorem udf (rd : Reg) (ra : Reg) (rb : Reg) (fea : Bool) (feb : Bool) : Statement (.udf rd ra rb fea feb) := rfl
theorem lih (rd : Reg) (imm : BitVec 20) : Statement (.lih rd imm) := rfl
theorem addpc (rd : Reg) (imm : BitVec 20) : Statement (.addpc rd imm) := rfl
theorem call (rd : Reg) (imm : BitVec 20) : Statement (.call rd imm) := rfl
theorem teamFormation (blk : Nat) (slot : Nat) : Statement (.teamFormation blk slot) := rfl
theorem teamFormTimeout (blk : Nat) (slot : Nat) : Statement (.teamFormTimeout blk slot) := rfl
theorem reconvTimeout (blk : Nat) (tid : Nat) : Statement (.reconvTimeout blk tid) := rfl
theorem longLatencyComplete (op : Nat) : Statement (.longLatencyComplete op) := rfl
theorem engineComplete (op : Nat) : Statement (.engineComplete op) := rfl
theorem icacheFillComplete (die : Nat) (core : Nat) (ctx : Nat) (line : Nat) :
    Statement (.icacheFillComplete die core ctx line) := rfl
theorem pageFaultService (req : Nat) : Statement (.pageFaultService req) := rfl
theorem faultServiceResume (blk : Nat) : Statement (.faultServiceResume blk) := rfl
theorem faultReservationTimeout (blk : Nat) : Statement (.faultReservationTimeout blk) := rfl
theorem commissionLaunch (die : Nat) (slice : Nat) : Statement (.commissionLaunch die slice) := rfl
theorem notifyWrite (part : Nat) (q : Nat) (value : Word) : Statement (.notifyWrite part q value) := rfl
theorem queueMap (part : Nat) (q : Nat) : Statement (.queueMap part q) := rfl
theorem packetParse (part : Nat) (q : Nat) : Statement (.packetParse part q) := rfl
theorem packetDispatch (part : Nat) : Statement (.packetDispatch part) := rfl
theorem nopPacket (part : Nat) (q : Nat) : Statement (.nopPacket part q) := rfl
theorem launchPacket (part : Nat) (q : Nat) : Statement (.launchPacket part q) := rfl
theorem deadlinePacket (part : Nat) (q : Nat) : Statement (.deadlinePacket part q) := rfl
theorem graphPacket (part : Nat) (q : Nat) : Statement (.graphPacket part q) := rfl
theorem copyPacket (part : Nat) (q : Nat) : Statement (.copyPacket part q) := rfl
theorem signalPacket (part : Nat) (q : Nat) : Statement (.signalPacket part q) := rfl
theorem waitPacket (part : Nat) (q : Nat) : Statement (.waitPacket part q) := rfl
theorem waitPacketTimeout (part : Nat) (q : Nat) : Statement (.waitPacketTimeout part q) := rfl
theorem indirectPacket (part : Nat) (q : Nat) : Statement (.indirectPacket part q) := rfl
theorem stampPacket (part : Nat) (q : Nat) : Statement (.stampPacket part q) := rfl
theorem fencePacket (part : Nat) (q : Nat) : Statement (.fencePacket part q) := rfl
theorem nodePlacement (part : Nat) : Statement (.nodePlacement part) := rfl
theorem easelCapture (blk : Nat) : Statement (.easelCapture blk) := rfl
theorem commitWindowClose (blk : Nat) : Statement (.commitWindowClose blk) := rfl
theorem canvasWriteComplete (blk : Nat) : Statement (.canvasWriteComplete blk) := rfl
theorem canvasRestore (part : Nat) (ctx : Nat) (addr : Word) : Statement (.canvasRestore part ctx addr) := rfl
theorem pentimentoComplete (blk : Nat) : Statement (.pentimentoComplete blk) := rfl
theorem redundantCompare (blk : Nat) : Statement (.redundantCompare blk) := rfl
theorem bankRetire (arr : BankArray) (die : Nat) (core : Nat) (bank : Nat) :
    Statement (.bankRetire arr die core bank) := rfl
theorem bankCutover (arr : BankArray) (die : Nat) (core : Nat) (bank : Nat) :
    Statement (.bankCutover arr die core bank) := rfl
theorem regionMigrate (die : Nat) : Statement (.regionMigrate die) := rfl
theorem assistTimeout (part : Nat) (seq : Nat) : Statement (.assistTimeout part seq) := rfl
theorem shootdownComplete (part : Nat) : Statement (.shootdownComplete part) := rfl
theorem unloadComplete (part : Nat) : Statement (.unloadComplete part) := rfl
theorem bringUp : Statement (.bringUp) := rfl
theorem thermalPowerOff : Statement (.thermalPowerOff) := rfl
theorem remoteRequest (req : RemoteReq) : Statement (.remoteRequest req) := rfl
theorem remoteRetransmit (op : Nat) : Statement (.remoteRetransmit op) := rfl
theorem remoteGiveUp (op : Nat) : Statement (.remoteGiveUp op) := rfl
theorem quorumTimeout (group : Nat) (step : Nat) : Statement (.quorumTimeout group step) := rfl
theorem uncorrectableError (site : ErrSite) : Statement (.uncorrectableError site) := rfl
theorem scrubberPass (site : ErrSite) (correctable : Bool) : Statement (.scrubberPass site correctable) := rfl
theorem coreLost (die : Nat) (core : Nat) : Statement (.coreLost die core) := rfl
theorem dramBankRemove (die : Nat) (bank : Nat) : Statement (.dramBankRemove die bank) := rfl
theorem assistResponse (part : Nat) (seq : Nat) (accept : Bool) (addr : Word) :
    Statement (.assistResponse part seq accept addr) := rfl
theorem partitionGo (part : Nat) : Statement (.partitionGo part) := rfl
theorem partitionReset (part : Nat) (scrub : Bool) : Statement (.partitionReset part scrub) := rfl
theorem functionLevelReset (part : Nat) : Statement (.functionLevelReset part) := rfl
theorem ctxCreate (part : Nat) (ctx : Nat) : Statement (.ctxCreate part ctx) := rfl
theorem ctxSuspend (part : Nat) (ctx : Nat) (expo : Bool) : Statement (.ctxSuspend part ctx expo) := rfl
theorem ctxResume (part : Nat) (ctx : Nat) : Statement (.ctxResume part ctx) := rfl
theorem ctxDestroy (part : Nat) (ctx : Nat) : Statement (.ctxDestroy part ctx) := rfl
theorem ctxClearerr (part : Nat) (ctx : Nat) (mask : BitVec 8) : Statement (.ctxClearerr part ctx mask) := rfl
theorem ctxReload (part : Nat) (ctx : Nat) : Statement (.ctxReload part ctx) := rfl
theorem ctxBadOp (part : Nat) (ctx : Nat) (op : BitVec 4) : Statement (.ctxBadOp part ctx op) := rfl
theorem queueEnable (part : Nat) (q : Nat) (value : Word) : Statement (.queueEnable part q value) := rfl
theorem queueDisable (part : Nat) (q : Nat) (value : Word) : Statement (.queueDisable part q value) := rfl
theorem queueRestart (part : Nat) (q : Nat) : Statement (.queueRestart part q) := rfl
theorem queueSkip (part : Nat) (q : Nat) : Statement (.queueSkip part q) := rfl
theorem shootdown (part : Nat) (value : Word) : Statement (.shootdown part value) := rfl
theorem objLoad (part : Nat) (req : Word) : Statement (.objLoad part req) := rfl
theorem objUnload (part : Nat) (req : Word) : Statement (.objUnload part req) := rfl
theorem objSetslot (part : Nat) (req : Word) : Statement (.objSetslot part req) := rfl
theorem objBadOp (part : Nat) (value : Word) : Statement (.objBadOp part value) := rfl
theorem attestationRequest (addr : Word) : Statement (.attestationRequest addr) := rfl
theorem ptpLatch : Statement (.ptpLatch) := rfl
theorem ptpStep (offset : Word) : Statement (.ptpStep offset) := rfl
theorem isrWrite (part : Nat) (value : Word) : Statement (.isrWrite part value) := rfl
theorem imaskWrite (part : Nat) (value : Word) : Statement (.imaskWrite part value) := rfl
theorem frtailWrite (part : Nat) (value : Word) : Statement (.frtailWrite part value) := rfl
theorem linkControlWrite (link : Nat) (value : Word) : Statement (.linkControlWrite link value) := rfl
theorem fidWrite (value : Word) : Statement (.fidWrite value) := rfl
theorem registerWrite (space : RegSpace) (off : Nat) (value : Word) :
    Statement (.registerWrite space off value) := rfl
theorem supplySag (group : Nat) (mhz : Nat) : Statement (.supplySag group mhz) := rfl
theorem thermalTrip : Statement (.thermalTrip) := rfl
theorem linkTraining (link : Nat) (peer : BitVec 12) : Statement (.linkTraining link peer) := rfl
theorem flitReplay (link : FlitError) : Statement (.flitReplay link) := rfl
theorem remoteResponse (resp : RemoteResp) : Statement (.remoteResponse resp) := rfl
theorem reduceContribution (con : Contribution) : Statement (.reduceContribution con) := rfl
theorem ingressFrame (link : Nat) (frame : RxFrame) : Statement (.ingressFrame link frame) := rfl
theorem ptpMessage (link : Nat) (frame : PtpPassing) : Statement (.ptpMessage link frame) := rfl
theorem hostMemAccess (addr : Nat) (wr : Option (List Byte)) (len : Nat) :
    Statement (.hostMemAccess addr wr len) := rfl
theorem hostSnoop (addr : Nat) : Statement (.hostSnoop addr) := rfl
theorem linkFailed (link : Nat) (failed : Bool) : Statement (.linkFailed link failed) := rfl
theorem modulePowerLimit (mhz : Nat) : Statement (.modulePowerLimit mhz) := rfl

end Sys2Proof.Laws.Length
end

