-- ==== Sys2Proof/Tests/Slice0.lean ====
section
/-! SUPPORT. Tests of the model: words decoded, ill-formed terms refused, single steps with results taken from the spec's examples
or calculated by hand from its rules. The witnesses of the statements are in Witness0 to Witness3. -/

namespace Sys2Proof.Tests

open Sys2Proof.Machine

set_option maxRecDepth 100000

/-! ## Decoding -/

/-- Words of the alu_a rows, their fields filled from the encoding tables of 06 R124 to R131. -/
theorem test_decode_alu_a :
    decodeTableWord 32 0x055558E1 = some (.add none 85 42 99 true false)
    ∧ decodeTableWord 32 0x055558E2 = some (.sub none 85 42 99 true false)
    ∧ decodeTableWord 32 0x055558E3 = some (.and none 85 42 99 true false)
    ∧ decodeTableWord 32 0x055558E4 = some (.or none 85 42 99 true false)
    ∧ decodeTableWord 32 0x055558E5 = some (.xor none 85 42 99 true false)
    ∧ decodeTableWord 32 0x055558E6 = some (.andn none 85 42 99 true false)
    ∧ decodeTableWord 32 0x055558E7 = some (.shl none 85 42 99 true false)
    ∧ decodeTableWord 32 0x055558E8 = some (.shr none 85 42 99 true false)
    ∧ decodeTableWord 32 0x055558E9 = some (.sra none 85 42 99 true false)
    ∧ decodeTableWord 32 0x055558EA = some (.rot none 85 42 99 true false)
    ∧ decodeTableWord 32 0x055558EB = some (.min none 85 42 99 true false)
    ∧ decodeTableWord 32 0x055558EC = some (.max none 85 42 99 true false)
    ∧ decodeTableWord 32 0x055558ED = some (.minn none 85 42 99 true false)
    ∧ decodeTableWord 32 0x055558EE = some (.maxn none 85 42 99 true false)
    ∧ decodeTableWord 32 0x055558EF = some (.slt none 85 42 99 true false) := by
  decide

/-- Words of the alu_b rows, their fields filled from the encoding tables of 06 R124 to R131. -/
theorem test_decode_alu_b :
    decodeTableWord 32 0x0D5558E0 = some (.mul none 85 42 99 true false)
    ∧ decodeTableWord 32 0x0D5558E1 = some (.mulh none 85 42 99 true false)
    ∧ decodeTableWord 32 0x0D5558E2 = some (.mulhn none 85 42 99 true false)
    ∧ decodeTableWord 32 0x0D5558E3 = some (.div none 85 42 99 true false)
    ∧ decodeTableWord 32 0x0D5558E4 = some (.divn none 85 42 99 true false)
    ∧ decodeTableWord 32 0x0D5558E5 = some (.rem none 85 42 99 true false)
    ∧ decodeTableWord 32 0x0D5558E6 = some (.remn none 85 42 99 true false)
    ∧ decodeTableWord 32 0x0D5558E7 = some (.sltn none 85 42 99 true false)
    ∧ decodeTableWord 32 0x0D554028 = some (.clz none 85 42 true)
    ∧ decodeTableWord 32 0x0D554029 = some (.ctz none 85 42 true)
    ∧ decodeTableWord 32 0x0D55402A = some (.popc none 85 42 true)
    ∧ decodeTableWord 32 0x0D55402B = some (.brev none 85 42 true)
    ∧ decodeTableWord 32 0x0D55496C = some (.shli none 85 42 37 true)
    ∧ decodeTableWord 32 0x0D55496D = some (.shri none 85 42 37 true)
    ∧ decodeTableWord 32 0x0D55496E = some (.srai none 85 42 37 true)
    ∧ decodeTableWord 32 0x0D5558EF = some (.sel none 85 42 99 true false) := by
  decide

/-- Words of the immediate rows, their fields filled from the encoding tables of 06 R124 to R131. -/
theorem test_decode_immediate :
    decodeTableWord 32 0x15555C36 = some (.addi none 85 42 true 3126)
    ∧ decodeTableWord 32 0x1D555C36 = some (.andi none 85 42 true 3126)
    ∧ decodeTableWord 32 0x25555C36 = some (.slti none 85 42 true 3126)
    ∧ decodeTableWord 32 0x2D555C36 = some (.sltni none 85 42 true 3126) := by
  decide

/-- Words of the loads_and_stores rows, their fields filled from the encoding tables of 06 R124 to R131. -/
theorem test_decode_loads_and_stores :
    decodeTableWord 32 0x35555436 = some (.ld none 85 42 2 true 54)
    ∧ decodeTableWord 32 0x3D555436 = some (.ldz none 85 42 2 true 54)
    ∧ decodeTableWord 32 0x45555436 = some (.st none 85 42 2 true 54) := by
  decide

/-- Words of the br_loop_brspawn rows, their fields filled from the encoding tables of 06 R124 to R131. -/
theorem test_decode_br_loop_brspawn :
    decodeTableWord 32 0x4AA4A5C5 = some (.br 42 4 42437)
    ∧ decodeTableWord 32 0x54AAA5C5 = some (.loop 2 42 173509)
    ∧ decodeTableWord 32 0x5AAC7216 = some (.brspawn 42 99 4 33 6) := by
  decide

/-- Words of the fp_a rows, their fields filled from the encoding tables of 06 R124 to R131. -/
theorem test_decode_fp_a :
    decodeTableWord 32 0x655558E2 = some (.fadd none 85 42 99 true false 2)
    ∧ decodeTableWord 32 0x655558E6 = some (.fsub none 85 42 99 true false 2)
    ∧ decodeTableWord 32 0x655558EA = some (.fmul none 85 42 99 true false 2)
    ∧ decodeTableWord 32 0x655558EE = some (.fma none 85 42 99 true false 2) := by
  decide

/-- Words of the fp_b rows, their fields filled from the encoding tables of 06 R124 to R131. -/
theorem test_decode_fp_b :
    decodeTableWord 32 0x6D5558E2 = some (.fmin none 85 42 99 true false 2)
    ∧ decodeTableWord 32 0x6D5558E6 = some (.fmax none 85 42 99 true false 2)
    ∧ decodeTableWord 32 0x6D5558EA = some (.fdiv none 85 42 99 true false 2)
    ∧ decodeTableWord 32 0x6D5558EE = some (.fcmplt none 85 42 99 true false 2) := by
  decide

/-- Words of the fp_c rows, their fields filled from the encoding tables of 06 R124 to R131. -/
theorem test_decode_fp_c :
    decodeTableWord 32 0x755558E2 = some (.fcmpeq none 85 42 99 true false 2)
    ∧ decodeTableWord 32 0x755558E6 = some (.fcmple none 85 42 99 true false 2)
    ∧ decodeTableWord 32 0x755558EA = some (.fcmpun none 85 42 99 true false 2)
    ∧ decodeTableWord 32 0x755558EE = some (.fcopysign none 85 42 99 true false 2) := by
  decide

/-- Words of the funary rows, their fields filled from the encoding tables of 06 R124 to R131. -/
theorem test_decode_funary :
    decodeTableWord 32 0x7D554460 = some (.fsqrt none 85 42 1 1 true)
    ∧ decodeTableWord 32 0x7D554461 = some (.frcp none 85 42 1 1 true)
    ∧ decodeTableWord 32 0x7D554462 = some (.frsq none 85 42 1 1 true)
    ∧ decodeTableWord 32 0x7D554463 = some (.fexp2 none 85 42 1 1 true)
    ∧ decodeTableWord 32 0x7D554464 = some (.flog2 none 85 42 1 1 true)
    ∧ decodeTableWord 32 0x7D554465 = some (.fsin none 85 42 1 1 true)
    ∧ decodeTableWord 32 0x7D554466 = some (.fcos none 85 42 1 1 true)
    ∧ decodeTableWord 32 0x7D554467 = some (.ftanh none 85 42 1 1 true)
    ∧ decodeTableWord 32 0x7D554468 = some (.fabs none 85 42 1 1 true)
    ∧ decodeTableWord 32 0x7D554469 = some (.fneg none 85 42 1 1 true)
    ∧ decodeTableWord 32 0x7D55446A = some (.fclass none 85 42 1 1 true)
    ∧ decodeTableWord 32 0x7D55446B = some (.fround none 85 42 1 1 true)
    ∧ decodeTableWord 32 0x7D5558EC = some (.fcvt none 85 42 6 3 true)
    ∧ decodeTableWord 32 0x7D5554ED = some (.ftoi none 85 42 5 3 true)
    ∧ decodeTableWord 32 0x7D554B6E = some (.itof none 85 42 2 13 true)
    ∧ decodeTableWord 32 0x7D55446F = some (.fexpt none 85 42 1 1 true) := by
  decide

/-- Words of the packed_a rows, their fields filled from the encoding tables of 06 R124 to R131. -/
theorem test_decode_packed_a :
    decodeTableWord 32 0x855558E1 = some (.padd none 85 42 99 true false 1)
    ∧ decodeTableWord 32 0x855558E5 = some (.psub none 85 42 99 true false 1)
    ∧ decodeTableWord 32 0x855558E9 = some (.pmul none 85 42 99 true false 1)
    ∧ decodeTableWord 32 0x855558ED = some (.pmin none 85 42 99 true false 1) := by
  decide

/-- Words of the packed_b rows, their fields filled from the encoding tables of 06 R124 to R131. -/
theorem test_decode_packed_b :
    decodeTableWord 32 0x8D5558E1 = some (.pmax none 85 42 99 true false 1)
    ∧ decodeTableWord 32 0x8D5558E5 = some (.pavg none 85 42 99 true false 1)
    ∧ decodeTableWord 32 0x8D5558E9 = some (.pcmpeq none 85 42 99 true false 1)
    ∧ decodeTableWord 32 0x8D5558ED = some (.pcmplt none 85 42 99 true false 1) := by
  decide

/-- Words of the group rows, their fields filled from the encoding tables of 06 R124 to R131. -/
theorem test_decode_group :
    decodeTableWord 32 0x955558E0 = some (.shfl none 85 42 99 true false)
    ∧ decodeTableWord 32 0x95554DA1 = some (.shfli none 85 42 1 22 true)
    ∧ decodeTableWord 32 0x955558E2 = some (.bcast none 85 42 99 true false)
    ∧ decodeTableWord 32 0x95554AA3 = some (.gred none 85 42 2 10 true)
    ∧ decodeTableWord 32 0x95555A64 = some (.gscan none 85 42 6 9 true)
    ∧ decodeTableWord 32 0x95554065 = some (.vote none 85 42 1 true)
    ∧ decodeTableWord 32 0x95554566 = some (.matchKeys none 85 42 true 5 true)
    ∧ decodeTableWord 32 0x95554027 = some (.join 85 42 true)
    ∧ decodeTableWord 32 0x90054028 = some (.leave 42 true)
    ∧ decodeTableWord 32 0x95554029 = some (.grank 85 42 true)
    ∧ decodeTableWord 32 0x909558EA = some (.xsend 9 42 99 true false)
    ∧ decodeTableWord 32 0x9550024B = some (.xrecv 85 9)
    ∧ decodeTableWord 32 0x9555406C = some (.pshuf none 85 42 1 true)
    ∧ decodeTableWord 32 0x9555436D = some (.ppack none 85 42 1 true 1 true)
    ∧ decodeTableWord 32 0x9555436E = some (.punpk none 85 42 true true 1 true)
    ∧ decodeTableWord 32 0x95554AAF = some (.segred none 85 42 2 10 true) := by
  decide

/-- Words of the memx rows, their fields filled from the encoding tables of 06 R124 to R131. -/
theorem test_decode_memx :
    decodeTableWord 32 0x9D554CE0 = some (.ldr 85 42 true 2 3 true)
    ∧ decodeTableWord 32 0x993558E1 = some (.str 2 3 42 99 true false)
    ∧ decodeTableWord 32 0x9D554CE2 = some (.lda 85 42 true 2 3 true)
    ∧ decodeTableWord 32 0x993558E3 = some (.stl 2 3 42 99 true false)
    ∧ decodeTableWord 32 0x980002C4 = some (.fence true 3)
    ∧ decodeTableWord 32 0x98054025 = some (.pref 42 true)
    ∧ decodeTableWord 32 0x98054026 = some (.ipref 42 true)
    ∧ decodeTableWord 32 0x9D554067 = some (.ragld none 85 42 1 true)
    ∧ decodeTableWord 32 0x9D500088 = some (.fqpop 85 2)
    ∧ decodeTableWord 32 0x98254029 = some (.fqpush 2 42 true)
    ∧ decodeTableWord 32 0x9805402A = some (.cwb 42 true)
    ∧ decodeTableWord 32 0x9805402B = some (.cinv 42 true) := by
  decide

/-- Words of the async rows, their fields filled from the encoding tables of 06 R124 to R131. -/
theorem test_decode_async :
    decodeTableWord 32 0xA5554080 = some (.tileld none 85 42 2)
    ∧ decodeTableWord 32 0xA5554001 = some (.tilest none 85 42)
    ∧ decodeTableWord 32 0xA5554002 = some (.copy none 85 42)
    ∧ decodeTableWord 32 0xA5554043 = some (.gather none 85 42 1)
    ∧ decodeTableWord 32 0xA5554004 = some (.coll none 85 42)
    ∧ decodeTableWord 32 0xA4D00185 = some (.waitc 77 true 2) := by
  decide

/-- Words of the atom64 rows, their fields filled from the encoding tables of 06 R124 to R131. -/
theorem test_decode_atom64 :
    decodeTableWord 32 0xAD5558F0 = some (.aadd none 85 42 99 3)
    ∧ decodeTableWord 32 0xAD5558F1 = some (.amin none 85 42 99 3)
    ∧ decodeTableWord 32 0xAD5558F2 = some (.amax none 85 42 99 3)
    ∧ decodeTableWord 32 0xAD5558F3 = some (.aminn none 85 42 99 3)
    ∧ decodeTableWord 32 0xAD5558F4 = some (.amaxn none 85 42 99 3)
    ∧ decodeTableWord 32 0xAD5558F5 = some (.aand none 85 42 99 3)
    ∧ decodeTableWord 32 0xAD5558F6 = some (.aor none 85 42 99 3)
    ∧ decodeTableWord 32 0xAD5558F7 = some (.axor none 85 42 99 3)
    ∧ decodeTableWord 32 0xAD5558F8 = some (.axchg none 85 42 99 3)
    ∧ decodeTableWord 32 0xAD5558F9 = some (.acas none 85 42 99 3)
    ∧ decodeTableWord 32 0xAD5558FB = some (.aincw none 85 42 99 3)
    ∧ decodeTableWord 32 0xAD5558FC = some (.afadd none 85 42 99 3)
    ∧ decodeTableWord 32 0xAD5558FD = some (.afmin none 85 42 99 3)
    ∧ decodeTableWord 32 0xAD5558FE = some (.afmax none 85 42 99 3) := by
  decide

/-- Words of the atom32 rows, their fields filled from the encoding tables of 06 R124 to R131. -/
theorem test_decode_atom32 :
    decodeTableWord 32 0xB55558F0 = some (.aaddW32 none 85 42 99 3)
    ∧ decodeTableWord 32 0xB55558F1 = some (.aminW32 none 85 42 99 3)
    ∧ decodeTableWord 32 0xB55558F2 = some (.amaxW32 none 85 42 99 3)
    ∧ decodeTableWord 32 0xB55558F3 = some (.aminnW32 none 85 42 99 3)
    ∧ decodeTableWord 32 0xB55558F4 = some (.amaxnW32 none 85 42 99 3)
    ∧ decodeTableWord 32 0xB55558F5 = some (.aandW32 none 85 42 99 3)
    ∧ decodeTableWord 32 0xB55558F6 = some (.aorW32 none 85 42 99 3)
    ∧ decodeTableWord 32 0xB55558F7 = some (.axorW32 none 85 42 99 3)
    ∧ decodeTableWord 32 0xB55558F8 = some (.axchgW32 none 85 42 99 3)
    ∧ decodeTableWord 32 0xB55558F9 = some (.acasW32 none 85 42 99 3)
    ∧ decodeTableWord 32 0xB55558FB = some (.aincwW32 none 85 42 99 3)
    ∧ decodeTableWord 32 0xB55558FC = some (.afaddW32 none 85 42 99 3)
    ∧ decodeTableWord 32 0xB55558FD = some (.afminW32 none 85 42 99 3)
    ∧ decodeTableWord 32 0xB55558FE = some (.afmaxW32 none 85 42 99 3) := by
  decide

/-- Words of the mma rows, their fields filled from the encoding tables of 06 R124 to R131. -/
theorem test_decode_mma :
    decodeTableWord 32 0xBDB6AB1D = some (.mma none 45 11 42 99 5) := by
  decide

/-- Words of the matrix_h rows, their fields filled from the encoding tables of 06 R124 to R131. -/
theorem test_decode_matrix_h :
    decodeTableWord 32 0xC0654020 = some (.cvdecl 6 42 true)
    ∧ decodeTableWord 32 0xC3600001 = some (.acalloc 54)
    ∧ decodeTableWord 32 0xC3600002 = some (.acfree 54)
    ∧ decodeTableWord 32 0xC3600003 = some (.azero 54)
    ∧ decodeTableWord 32 0xC0054024 = some (.acommit 42 true)
    ∧ decodeTableWord 32 0xC76558E5 = some (.aload none true 54 42 99 true false)
    ∧ decodeTableWord 32 0xC76558E6 = some (.astore none true 54 42 99 true false)
    ∧ decodeTableWord 32 0xC3654C87 = some (.scacc 54 42 50)
    ∧ decodeTableWord 32 0xC556D8C8 = some (.amovr 85 54 99 false) := by
  decide

/-- Words of the sync rows, their fields filled from the encoding tables of 06 R124 to R131. -/
theorem test_decode_sync :
    decodeTableWord 32 0xC8000D80 = some (.bara 54)
    ∧ decodeTableWord 32 0xC8000D81 = some (.barw 54)
    ∧ decodeTableWord 32 0xC8000D82 = some (.bars 54)
    ∧ decodeTableWord 32 0xC8000183 = some (.cbara 6)
    ∧ decodeTableWord 32 0xC8000184 = some (.cbarw 6)
    ∧ decodeTableWord 32 0xC8000185 = some (.gbara 6)
    ∧ decodeTableWord 32 0xC8000186 = some (.gbarw 6)
    ∧ decodeTableWord 32 0xC8000187 = some (.gset 6)
    ∧ decodeTableWord 32 0xC80541A8 = some (.gres 42 6 true)
    ∧ decodeTableWord 32 0xCD554029 = some (.tlaunch 85 42 true)
    ∧ decodeTableWord 32 0xCD50000A = some (.tnext 85) := by
  decide

/-- Words of the ctrl rows, their fields filled from the encoding tables of 06 R124 to R131. -/
theorem test_decode_ctrl :
    decodeTableWord 32 0xD0054020 = some (.jmpr 42 true)
    ∧ decodeTableWord 32 0xD5554021 = some (.callr 85 42 true)
    ∧ decodeTableWord 32 0xD0054022 = some (.ret 42 true)
    ∧ decodeTableWord 32 0xD0000003 = some (.exit)
    ∧ decodeTableWord 32 0xD0000004 = some (.yield)
    ∧ decodeTableWord 32 0xD55558E5 = some (.reconv 85 42 99 true false)
    ∧ decodeTableWord 32 0xD0254026 = some (.lcset 2 42 true)
    ∧ decodeTableWord 32 0xD0054027 = some (.trap 42 true)
    ∧ decodeTableWord 32 0xD0054028 = some (.rte 42 true)
    ∧ decodeTableWord 32 0xD0000009 = some (.brk)
    ∧ decodeTableWord 32 0xD00000CA = some (.winbase 3)
    ∧ decodeTableWord 32 0xD550054B = some (.srd 85 21)
    ∧ decodeTableWord 32 0xD00545AC = some (.swr 42 22 true)
    ∧ decodeTableWord 32 0xD550018D = some (.capq 85 6)
    ∧ decodeTableWord 32 0xD550000E = some (.tstamp 85)
    ∧ decodeTableWord 32 0xD55558EF = some (.udf 85 42 99 true false) := by
  decide

/-- Words of the u_group rows, their fields filled from the encoding tables of 06 R124 to R131. -/
theorem test_decode_u_group :
    decodeTableWord 32 0xE55A5C36 = some (.lih 85 678966)
    ∧ decodeTableWord 32 0xED5A5C36 = some (.addpc 85 678966)
    ∧ decodeTableWord 32 0xF55A5C36 = some (.call 85 678966) := by
  decide
/-- ACASK and ACASK_W32 need a prefix (06 R133); with one they decode. The first pair is 09 R220's example. -/
theorem test_decode_acask :
    decodeTableWord 64 0xA841026AD9E14000 = some (.acask
      { mask := 1, rm := 7, zero := false, rc := 10, fec := false, sat := false, sk := false, guard := 0 } 4 8 9 2)
    ∧ decodeTableWord 64 0xB041027AD9E14000 = some (.acaskW32
      { mask := 1, rm := 7, zero := false, rc := 10, fec := false, sat := false, sk := false, guard := 0 } 4 8 9 3)
    ∧ decodeTableWord 32 0xA841026A = none ∧ decodeTableWord 32 0xB041027A = none := by
  decide

/-- A prefix and its base word: FMA with a third source (06 R124), a guarded COPY (10 R241) and a saturating ADD. -/
theorem test_decode_prefixed :
    decodeTableWord 64 0x6070C21DDAF12000 = some (.fma
      (some { mask := 2, rm := 7, zero := true, rc := 9, fec := false, sat := false, sk := false, guard := 0 })
      7 6 8 false true 1)
    ∧ decodeTableWord 64 0xA1418002D8E00740 = some (.copy
      (some { mask := 0, rm := 7, zero := false, rc := 0, fec := false, sat := false, sk := true, guard := 13 }) 20 12)
    ∧ decodeTableWord 64 0x00308201D8E00800 = some (.add
      (some { mask := 0, rm := 7, zero := false, rc := 0, fec := false, sat := true, sk := false, guard := 0 })
      3 4 8 false false) := by
  decide

/-- Reserved words are refused (06 R136): UNUSED bits, "—" cells, a prefix after a prefix, a prefix with none accepted. -/
theorem test_decode_refused :
    decodeTableWord 32 0x00000000 = none ∧ decodeTableWord 32 0xD8000000 = none ∧ decodeTableWord 32 0xFFFFFFFF = none
    ∧ decodeTableWord 32 0xD0000083 = none ∧ decodeTableWord 32 0x50100000 = none
    ∧ decodeTableWord 64 0xD8E00000D8E00000 = none ∧ decodeTableWord 64 0xD0000004D8E00000 = none
    ∧ decodeTableWord 64 0x00308201D8E00001 = none ∧ decodeTableWord 64 0x00308203D8E00800 = none := by
  decide

/-! ## Well-formedness -/

/-- A prefix with the fields a test varies at their neutral values. -/
def pfx (mask rm : BitVec 3) (zero : Bool) : Pfx :=
  { mask := mask, rm := rm, zero := zero, rc := 0, fec := false, sat := false, sk := false, guard := 0 }

/-- The prefix checks (06 R132 to R135): a rounding mode of 5 or 6, a mask where none is enabling, zeroing without a mask, and
under the other roles, rm, sat, rc, sk and guard where they are not accepted, guard without sk; and a legal neighbour. -/
theorem test_wf_prefix :
    Instr.wf (.fadd (some (pfx 0 5 false)) 1 2 3 false false 1) = false
    ∧ Instr.wf (.fadd (some (pfx 0 6 false)) 1 2 3 false false 1) = false
    ∧ Instr.wf (.copy (some (pfx 1 7 false)) 1 2) = false
    ∧ Instr.wf (.add (some (pfx 0 7 true)) 1 2 3 false false) = false
    ∧ Instr.wf (.sel (some (pfx 1 7 true)) 1 2 3 false false) = false
    ∧ Instr.wf (.add (some (pfx 1 0 false)) 1 2 3 false false) = false
    ∧ Instr.wf (.and (some { pfx 1 7 false with sat := true }) 1 2 3 false false) = false
    ∧ Instr.wf (.add (some { pfx 1 7 false with rc := 4 }) 1 2 3 false false) = false
    ∧ Instr.wf (.add (some { pfx 1 7 false with fec := true }) 1 2 3 false false) = false
    ∧ Instr.wf (.add (some { pfx 1 7 false with sk := true }) 1 2 3 false false) = false
    ∧ Instr.wf (.copy (some { pfx 0 7 false with guard := 3 }) 1 2) = false
    ∧ Instr.wf (.copy (some { pfx 0 7 false with guard := 3, sk := true }) 1 2) = true
    ∧ Instr.wf (.add (some (pfx 1 7 true)) 1 2 3 false false) = true := by
  decide

/-- The field checks of 06 R136, each with an ill-formed term. -/
theorem test_wf_fields :
    Instr.wf (.br 8 6 0) = false ∧ Instr.wf (.br 1 8 0) = false ∧ Instr.wf (.br 0 9 0) = false
    ∧ Instr.wf (.loop 0 1 0) = false ∧ Instr.wf (.brspawn 1 2 6 1 0) = false ∧ Instr.wf (.brspawn 1 2 0 0 0) = false
    ∧ Instr.wf (.fsqrt none 1 2 4 4 false) = false ∧ Instr.wf (.fsqrt none 1 2 0 1 false) = false
    ∧ Instr.wf (.fabs none 1 2 0 8 false) = false ∧ Instr.wf (.fcvt none 1 2 1 1 false) = false
    ∧ Instr.wf (.ftoi none 1 2 1 8 false) = false ∧ Instr.wf (.itof none 1 2 1 7 false) = false
    ∧ Instr.wf (.gred none 1 2 3 1 false) = false ∧ Instr.wf (.gred none 1 2 6 9 false) = false
    ∧ Instr.wf (.gscan none 1 2 7 9 false) = false ∧ Instr.wf (.segred none 1 2 0 4 false) = false
    ∧ Instr.wf (.matchKeys none 1 2 true 8 false) = false
    ∧ Instr.wf (.ppack none 1 2 3 false 0 false) = false ∧ Instr.wf (.ppack none 1 2 0 false 3 false) = false
    ∧ Instr.wf (.punpk none 1 2 false false 3 false) = false
    ∧ Instr.wf (.ldr 1 2 false 0 5 false) = false ∧ Instr.wf (.stl 0 7 1 2 false false) = false
    ∧ Instr.wf (.fence false 5) = false ∧ Instr.wf (.tileld none 1 2 3) = false
    ∧ Instr.wf (.acask (pfx 1 7 false) 1 2 3 1) = false
    ∧ Instr.wf (.mma none 0 0 0 2 0) = false ∧ Instr.wf (.mma none 0 0 2 127 0) = false ∧ Instr.wf (.tnext 127) = false
    ∧ Instr.wf (.winbase 5) = false ∧ Instr.wf (.srd 1 14) = false ∧ Instr.wf (.srd 1 24) = false
    ∧ Instr.wf (.swr 1 18 false) = false := by
  decide

/-! ## Single steps -/

/-- A block of one thread with given values in x1, x2, …, that thread issuing; the device as withFetchWord leaves it. -/
def probe (xs : List Word) : State :=
  let s := State.reset.withFetchWord 32 0
  { s with
    cur := some { bid := 0, tid := 0, acc := false }
    blocks := s.blocks.map fun b => { b with threads := b.threads.map fun t => { t with regs := argRegs xs } } }

/-- The probe with its thread changed. -/
def probeT (xs : List Word) (f : Thread → Thread) : State :=
  (probe xs).onBlock 0 fun b => { b with threads := b.threads.map f }

/-- The state with no barrier declared: a team's end then leaves none. -/
def quiet (s : State) : State :=
  { s with
    clusters := [], launches := s.launches.map fun l => { l with bars := [] },
    blocks := s.blocks.map fun b => { b with bars := [] } }

/-- The probe's thread after an instruction. -/
def after (i : Instr) (s : State) : Option Thread :=
  match exec i s with
  | .next t => t.thread? 0 false 0
  | _ => none

/-- The value in a register after an instruction on the probe. -/
def result (i : Instr) (xs : List Word) (x : Reg) : Option Word := (after i (probe xs)).map (·.readX x)

/-- The value of the producer an instruction leaves on the probe. -/
def started (i : Instr) (xs : List Word) : Option Word :=
  match exec i (probe xs) with
  | .next t => (t.prods.getLast?).map (·.val)
  | _ => none

/-- Eight bytes of memory after an instruction. -/
def dwordAfter (i : Instr) (s : State) (a : Nat) : Option Nat :=
  match exec i s with
  | .next t => some (cellsRead t.mem a 8)
  | _ => none

/-- ALU-A (07 R149), calculated by hand: wraps, signs and saturation. -/
theorem test_alu_a :
    result (.add none 3 1 2 false false) [0xFFFFFFFFFFFFFFFF, 2] 3 = some 1
    ∧ result (.add (some { pfx 0 7 false with sat := true }) 3 1 2 false false) [0x7FFFFFFFFFFFFFFF, 2] 3
        = some 0x7FFFFFFFFFFFFFFF
    ∧ result (.sub none 3 1 2 false false) [1, 2] 3 = some 0xFFFFFFFFFFFFFFFF
    ∧ result (.andn none 3 1 2 false false) [0xFF, 0x0F] 3 = some 0xF0
    ∧ result (.shl (some { pfx 0 7 false with sat := true }) 3 1 2 false false) [0xFFFFFFFFFFFFFFFE, 63] 3
        = some 0x8000000000000000
    ∧ result (.shr none 3 1 2 false false) [0x8000000000000000, 127] 3 = some 1
    ∧ result (.sra none 3 1 2 false false) [0x8000000000000000, 63] 3 = some 0xFFFFFFFFFFFFFFFF
    ∧ result (.rot none 3 1 2 false false) [0x1, 4] 3 = some 0x1000000000000000
    ∧ result (.min none 3 1 2 false false) [0xFFFFFFFFFFFFFFFF, 0] 3 = some 0xFFFFFFFFFFFFFFFF
    ∧ result (.minn none 3 1 2 false false) [0xFFFFFFFFFFFFFFFF, 0] 3 = some 0
    ∧ result (.slt none 3 1 2 false false) [0xFFFFFFFFFFFFFFFF, 0] 3 = some 1 := by
  decide

/-- ALU-B and the immediate forms (07 R150, R152, R153). -/
theorem test_alu_b :
    result (.mulh none 3 1 2 false false) [0xFFFFFFFFFFFFFFFF, 2] 3 = some 0xFFFFFFFFFFFFFFFF
    ∧ result (.mulhn none 3 1 2 false false) [0xFFFFFFFFFFFFFFFF, 2] 3 = some 1
    ∧ result (.clz none 3 1 false) [1] 3 = some 63 ∧ result (.ctz none 3 1 false) [0] 3 = some 64
    ∧ result (.popc none 3 1 false) [0xF0F] 3 = some 8 ∧ result (.brev none 3 1 false) [2] 3 = some 0x4000000000000000
    ∧ result (.srai none 3 1 63 false) [0x8000000000000000] 3 = some 0xFFFFFFFFFFFFFFFF
    ∧ result (.sltni none 3 1 false 0xFFF) [5] 3 = some 1
    ∧ result (.sltni none 3 1 false 0xFFF) [0xFFFFFFFFFFFFFFFF] 3 = some 0
    ∧ result (.addi none 3 1 false 0xFFF) [5] 3 = some 4 ∧ result (.andi none 3 1 false 0xF80) [0x1234] 3 = some 0x1200 := by
  decide

/-- The division table of 07 R151, as values of the producers. -/
theorem test_divide :
    started (.div none 3 1 2 false false) [7, 0] = some 0xFFFFFFFFFFFFFFFF
    ∧ started (.div none 3 1 2 false false) [0x8000000000000000, 0xFFFFFFFFFFFFFFFF] = some 0x8000000000000000
    ∧ started (.rem none 3 1 2 false false) [0x8000000000000000, 0xFFFFFFFFFFFFFFFF] = some 0
    ∧ started (.rem none 3 1 2 false false) [0xFFFFFFFFFFFFFFF9, 2] = some 0xFFFFFFFFFFFFFFFF
    ∧ started (.divn none 3 1 2 false false) [0xFFFFFFFFFFFFFFF9, 2] = some 0x7FFFFFFFFFFFFFFC
    ∧ started (.remn none 3 1 2 false false) [7, 0] = some 7 := by
  decide

/-- The U group and the transfers (07 R154 to R156, R164): LIH's example, CALLR with link and target in one register. -/
theorem test_transfers :
    result (.lih 4 0x12346) [] 4 = some 0x12346000
    ∧ (after (.call 1 16) (probe [])).map (fun t => (t.pc, t.readX 1)) = some (0x4040, 0x4004)
    ∧ (after (.callr 5 5 false) (probe [0, 0, 0, 0, 0x7003])).map (fun t => (t.pc, t.readX 5)) = some (0x7000, 0x4004)
    ∧ (after (.br 1 4 0xFFFF) (probe [1])).map (·.pc) = some 0x3FFC
    ∧ (after (.br 1 4 0xFFFF) (probe [0])).map (·.pc) = some 0x4004 := by
  decide

/-- The loop example of 07 R160, pass by pass: LOOP starts the level, the end test sends the thread back, the last pass ends
it. -/
theorem test_loop :
    (after (.loop 0 4 3) (probe [0, 0, 0, 3])).map (fun t => (t.pc, t.lc[0]))
      = some (0x4004, { active := true, remaining := 3, start := 0x4004, stop := 0x400C })
    ∧ (after (.sub none 7 7 6 false false) (probeT [0, 0, 0, 0, 0, 2, 100] fun t => { t with
        pc := 0x400C, lc := t.lc.set 0 { active := true, remaining := 3, start := 0x4004, stop := 0x400C } })).map
          (fun t => (t.pc, t.lc[0].remaining, t.readX 7)) = some (0x4004, 2, 98)
    ∧ (after (.sub none 7 7 6 false false) (probeT [0, 0, 0, 0, 0, 2, 96] fun t => { t with
        pc := 0x400C, lc := t.lc.set 0 { active := true, remaining := 1, start := 0x4004, stop := 0x400C } })).map
          (fun t => (t.pc, t.lc[0].active)) = some (0x4010, false)
    ∧ (after (.loop 0 4 4) (probe [])).map (·.pc) = some 0x4014 := by
  decide

/-- TRAP, BRK, RTE (07 R168, R169): what a handler finds, and the return that skips the BRK. -/
theorem test_traps :
    (after .brk (probeT [] fun t => { t with tvec := 0x5000 })).map (fun t => (t.pc, t.tcause, t.tpc, t.tval, t.inHandler))
      = some (0x5000, 2, 0x4000, 0, true)
    ∧ (after (.trap 3 false) (probeT [0, 0, 9] fun t => { t with tvec := 0x5000 })).map
        (fun t => (t.pc, t.tcause, t.tpc, t.tval)) = some (0x5000, 3, 0x4004, 9)
    ∧ (after (.rte 5 false) (probeT [0, 0, 0, 0, 0x4007] fun t => { t with
        inHandler := true, tcause := 2, tpc := 0x4000 })).map
        (fun t => (t.pc, t.tcause, t.tpc, t.inHandler)) = some (0x4004, 0, 0x4000, false)
    ∧ (after .brk (quiet (probe []))).map (·.life) = some .exited
    ∧ (after (.rte 0 false) (quiet (probe []))).map (·.life) = some .exited := by
  decide

/-- Special registers (07 R171, 02 R44, R45): RSV bits read 0, sr.rm keeps its value on 5 to 7, a read-only number is illegal. -/
theorem test_special_registers :
    result (.srd 3 22) [] 3 = some 8 ∧ (after (.swr 1 22 false) (probe [0xFFFFFFFFFFFFFFFF])).map (·.spth) = some 31
    ∧ (after (.swr 1 20 false) (probe [4])).map (·.rm) = some 4 ∧ (after (.swr 1 20 false) (probe [6])).map (·.rm) = some 0
    ∧ (after (.swr 1 23 false) (probe [0x5007])).map (·.tvec) = some 0x5004
    ∧ (after (.swr 1 18 false) (quiet (probe [4]))).map (·.life) = some .exited
    ∧ (after (.winbase 4) (probe [])).map (·.wb) = some 128 ∧ result (.capq 3 6) [] 3 = some 0
    ∧ result (.capq 3 0) [] 3 = some 49152 := by
  decide

/-- A register that is empty makes the instruction wait, the trapping form traps (02 R39); x0 reads zero and is not written. -/
theorem test_empty_and_x0 :
    (after (.add none 3 1 2 false false) (probeT [5, 6] fun t => t.emptyX 1)).map (fun t => (t.pc, t.wait)) = some (0x4000, .engine)
    ∧ (after (.add none 3 1 2 true false) (probeT [5, 6] fun t => { t.emptyX 1 with tvec := 0x5000 })).map
        (fun t => (t.pc, t.tcause, t.tval)) = some (0x5000, 1, 0x101)
    ∧ result (.add none 0 1 2 false false) [5, 6] 0 = some 0 ∧ result (.add none 3 0 2 false false) [5, 6] 3 = some 6 := by
  decide

/-- Floating point (08 R178, 03 R53, R54, R62): 1 + 1, 300.0 and 500.0 to E4M3, 100.0 to TF8, a division by zero. -/
theorem test_float :
    result (.fadd none 3 1 2 false false 0) [0x3FF0000000000000, 0x3FF0000000000000] 3 = some 0x4000000000000000
    ∧ (after (.fcvt none 3 1 4 1 false) (probe [0x43960000])).map (fun t => (t.readX 3, t.fpst)) = some (0x79, 1)
    ∧ result (.fcvt none 3 1 4 1 false) [0x43FA0000] 3 = some 0x7F
    ∧ result (.fcvt (some { pfx 0 7 false with sat := true }) 3 1 4 1 false) [0x43FA0000] 3 = some 0x7E
    ∧ (after (.fcvt none 3 1 6 1 false) (probe [0x42C80000])).map (fun t => (t.readX 3, t.fpst)) = some (0x79, 1)
    ∧ (after (.fdiv none 3 1 2 false false 0) (probe [0x3FF0000000000000, 0])).map (·.readX 3) = some 0x7FF0000000000000
    ∧ result (.fabs none 3 1 1 1 false) [0x80000000BF800000] 3 = some 0x000000003F800000 := by
  decide

/-- FMA's addend (08 R179): the old rd without a prefix, rc with one; −0 + (+0) is +0. -/
theorem test_fma :
    result (.fma none 3 1 2 false false 0) [0x4000000000000000, 0x4008000000000000, 0x3FF0000000000000] 3
      = some 0x401C000000000000
    ∧ result (.fma (some (pfx 0 1 false)) 3 1 2 false false 0) [0x8000000000000000, 0x3FF0000000000000, 5] 3 = some 0 := by
  decide

/-- Packed integers (08 R187, R198): the examples of 0x7F + 1, of PAVG and of PPACK. -/
theorem test_packed :
    result (.padd none 3 1 2 false false 0) [0x7F, 1] 3 = some 0x80
    ∧ result (.padd (some { pfx 0 7 false with sat := true }) 3 1 2 false false 0) [0x7F, 1] 3 = some 0x7F
    ∧ result (.pavg none 3 1 2 false false 0) [0xFF, 0] 3 = some 0x80
    ∧ result (.pmin none 3 1 2 false false 1) [0x00018000, 0x00020001] 3 = some 0x00018000
    ∧ result (.ppack none 3 2 1 false 0 false) [0, 0x00000190FFF60005, 0xAAAAAAAA00000000] 3 = some 0xAAAAAAAA007FF605
    ∧ result (.ppack none 3 2 2 false 0 false) [0, 0x00000190FFF60005, 0] 3 = some 0x00FF0005
    ∧ result (.punpk none 3 1 false true 0 false) [0x80FF7F0100000000] 3 = some 0xFF80FFFF007F0001 := by
  decide

/-- SEL by bytes (07 R152): k1 without a prefix. -/
theorem test_sel :
    (after (.sel none 3 1 2 false false) (probeT [0x1111111111111111, 0x2222222222222222] fun t => t.writeK 1 0x81)).map
      (·.readX 3) = some 0x1122222222222211 := by
  decide

/-- A team alone in its set (08 R191 to R194): reduction, vote and rank answer for one member. -/
theorem test_sets_of_one :
    result (.gred none 3 0 0 11 false) [0, 0, 7] 3 = some 7 ∧ result (.vote none 3 0 3 false) [0, 0, 7] 3 = some 1
    ∧ result (.shfli none 3 0 0 0 false) [0, 0, 7] 3 = some 7 ∧ result (.grank 3 0 false) [] 3 = some 0x100000000
    ∧ result (.join 3 1 false) [5] 3 = some 1 ∧ result (.grank 3 1 false) [5] 3 = some 0xFFFFFFFF := by
  decide

/-- Weak and strong accesses (09 R200 to R202): LD's scaled offset and sign, little-endian stores, alignment of STR. -/
theorem test_accesses :
    started (.ld none 6 5 0 false 1) [0, 0, 0, 0, 0x1000] = some 0x20
    ∧ started (.ldz none 6 5 0 false 0) [0, 0, 0, 0, 0x3000] = some 0x1F
    ∧ dwordAfter (.st none 7 5 1 false 0x3FD) (probe [0, 0, 0, 0, 0x6006, 0, 0x1234]) 0x6000 = some 0x1234
    ∧ dwordAfter (.str 3 2 5 7 false false) (probe [0, 0, 0, 0, 0x6008, 0, 0x0102030405060708]) 0x6008
        = some 0x0102030405060708
    ∧ (match exec (.str 3 2 5 7 false false) (probe [0, 0, 0, 0, 0x6004]) with
        | .next t => (t.ctxs.head?).map (·.state)
        | _ => none) = some .faulted := by
  decide

/-- Atomics (09 R217, R219): the new value in memory and the old one for rd; ACAS leaves memory where the compare fails. -/
theorem test_atomics :
    dwordAfter (.aadd none 4 8 9 2) (probe [0, 0, 0, 0, 0, 0, 0, 0x1000, 1]) 0x1000 = some 0x2002
    ∧ started (.aadd none 4 8 9 2) [0, 0, 0, 0, 0, 0, 0, 0x6000, 1] = some 0
    ∧ dwordAfter (.aincw none 4 8 9 2) (probe [0, 0, 0, 0, 0, 0, 0, 0x6000, 0]) 0x6000 = some 0
    ∧ dwordAfter (.amin none 4 8 9 2) (probe [0, 0, 0, 0, 0, 0, 0, 0x6000, 0xFFFFFFFFFFFFFFFF]) 0x6000
        = some 0xFFFFFFFFFFFFFFFF
    ∧ dwordAfter (.acas none 4 8 9 2) (probe [0, 0, 0, 1, 0, 0, 0, 0x6000, 5]) 0x6000 = some 0
    ∧ dwordAfter (.acas none 4 8 9 2) (probe [0, 0, 0, 0, 0, 0, 0, 0x6000, 5]) 0x6000 = some 5
    ∧ dwordAfter (.axchgW32 none 4 8 9 2) (probe [0, 0, 0, 0, 0, 0, 0, 0x6004, 0x1FFFFFFFF]) 0x6000
        = some 0xFFFFFFFF00000000 := by
  decide

/-- TNEXT hands out the ranges of 10 R248's example, row by row: T = 10, G = 4, three blocks. -/
theorem test_tnext :
    nextRange 10 4 0 3 0 = (0, 3 + 2 ^ 33 + 2 ^ 48, 3) ∧ nextRange 10 4 0 3 3 = (10, 0, 3)
    ∧ nextRange 10 4 1 3 3 = (3, 1 + 2 ^ 32, 4) ∧ nextRange 10 4 1 3 4 = (4, 2 + 2 ^ 33 + 2 ^ 48, 6)
    ∧ nextRange 10 4 2 3 6 = (6, 2 + 2 ^ 32, 8) ∧ nextRange 10 4 2 3 8 = (8, 2, 10) := by
  decide

/-- Matrix handles (10 R235): a fresh tile is mapped and uncommitted; without a tile left ACALLOC traps with cause 7. -/
theorem test_handles :
    (match exec (.acalloc 3) (probe []) with
      | .next t => (t.block? 0).map fun b => ((b.handle 3).map, (b.handle 3).unc)
      | _ => none) = some (0, true)
    ∧ (match exec (.acalloc 3) ((probeT [] fun t => { t with tvec := 0x5000 }).onBlock 0 fun b =>
        { b with kernel := { b.kernel with acc := 0 } }) with
      | .next t => (t.thread? 0 false 0).map fun t => (t.tcause, t.tval)
      | _ => none) = some (7, 3) := by
  decide

/-- The last arrival at a barrier completes its phase at once (09 R222), and WAITC goes on at a counter of zero (09 R215). -/
theorem test_barrier_and_waitc :
    (match exec (.bars 0) (probe []) with
      | .next t => (t.block? 0).bind fun b => (b.bars.head?).map fun x => (x.arrived, x.phase)
      | _ => none) = some (0, true)
    ∧ (after (.bars 0) (probe [])).map (·.pc) = some 0x4004 ∧ (after (.waitc 0 false 1) (probe [])).map (·.pc) = some 0x4004 := by
  decide

/-- A COPY raises the team's counter and empties its token (09 R209, R212); 0 bytes end at once with token 0. -/
theorem test_copy_issue :
    (match exec (.copy none 20 12) (probe (List.replicate 11 0 ++ [0x3000, 0x6000, 8])) with
      | .next t => (t.block? 0).bind fun b => (b.team? 0).map fun tm => (tm.count 0, t.ops.length)
      | _ => none) = some (1, 1)
    ∧ (after (.copy none 20 12) (probe (List.replicate 11 0 ++ [0x3000, 0x6000, 8]))).map (·.xFull 20) = some false := by
  decide

/-- UDF ends the team and sets ILLEGAL (07 R174, 01 R30). -/
theorem test_udf :
    (match exec (.udf 1 2 3 true false) (quiet (probe [])) with
      | .next t => ((t.ctxs.head?).map (·.sticky), (t.thread? 0 false 0).map (·.life))
      | _ => (none, none)) = (some 1, some .exited) := by
  decide

/-- One step from the state in which a word is placed runs it (06 R121): ADDI and a branch. -/
theorem test_step_placed :
    (match step (State.reset.withFetchWord 32 0x10300005) with
      | .next t => (t.thread? 0 false 0).map fun t => (t.pc, t.readX 3)
      | _ => none) = some (0x4004, 5)
    ∧ (match step (State.reset.withFetchWord 32 0x48080004) with
      | .next t => (t.thread? 0 false 0).map (·.pc)
      | _ => none) = some 0x4010 := by
  decide

end Sys2Proof.Tests
end

