-- ==== Sys2Proof/Tests/Witness0.lean ====
section
/-! SUPPORT. Witnesses for the statements about instructions: for each, states and operands that meet its hypotheses together,
clause by clause, at the edges of their ranges. -/

namespace Sys2Proof.Tests

open Sys2Proof.Machine

set_option maxRecDepth 100000
set_option Elab.async false

/-! ## How a witness is shown -/

theorem runs_with {s : State} {p : Option Pfx} {names : List Nat} {full : Here → List Reg} {traps : List Bool}
    {P : Here → Prop} [DecidablePred P]
    (e : ((current s (pfxLen p)).toList.any fun h => (!h.acc || (p.isNone && traps.all (!·))) && names.all (regOk h)
      && (full h).all h.t.xFull && decide (P h)) = true) :
    ∃ h, Runs s p names (full h) traps h ∧ P h := by
  simp only [List.any_eq_true, Bool.and_eq_true, decide_eq_true_eq, List.all_eq_true, Option.mem_toList,
    Bool.or_eq_true, Bool.not_eq_true'] at e
  obtain ⟨h, hc, ⟨⟨ha, hn⟩, hf⟩, hp⟩ := e
  refine ⟨h, ⟨hc, hn, hf, fun h1 => ?_⟩, hp⟩
  rcases ha with ha | ha
  · rw [ha] at h1
    contradiction
  · exact ⟨Option.isNone_iff_eq_none.mp ha.1, ha.2⟩

theorem here_with {s : State} {p : Option Pfx} {names : List Nat} {full : Here → List Reg} {P : Here → Prop}
    [DecidablePred P]
    (e : ((current s (pfxLen p)).toList.any fun h => !h.acc && names.all (regOk h) && (full h).all h.t.xFull
      && decide (P h)) = true) :
    ∃ h, RunsHere s p names (full h) h ∧ P h := by
  simp only [List.any_eq_true, Bool.and_eq_true, decide_eq_true_eq, List.all_eq_true, Option.mem_toList,
    Bool.not_eq_true'] at e
  obtain ⟨h, hc, ⟨⟨ha, hn⟩, hf⟩, hp⟩ := e
  exact ⟨h, ⟨hc, ha, hn, hf⟩, hp⟩

theorem cur_with {s : State} {n : Nat} {P : Here → Prop} [DecidablePred P]
    (e : ((current s n).toList.any fun h => decide (P h)) = true) : ∃ h, current s n = some h ∧ P h := by
  simp only [List.any_eq_true, decide_eq_true_eq, Option.mem_toList] at e
  exact e

/-- The probe's thread as an access thread of its team, issuing. -/
def probeA (xs : List Word) : State :=
  let s := probe xs
  { s with
    cur := some { bid := 0, tid := 0, acc := true }
    blocks := s.blocks.map fun b => { b with access := b.threads } }

/-- The probe's block with a change. -/
def probeB (xs : List Word) (f : Block → Block) : State := (probe xs).onBlock 0 f

/-- A prefix that enables by k1, which is zero on the probe: the thread is inactive. -/
def off : Option Pfx := some (pfx 1 7 false)

/-! ## Integer instructions and transfers -/

theorem witness_AluAResults :
    (∃ h, Runs (probe [5, 6]) none [3, 1, 2] ([1, 2] ++ waitsFor none h 3) [true, true] h ∧ active none h.t = true)
    ∧ (∃ h, Runs (probe [5, 6]) off [3, 1, 2] ([1, 2] ++ waitsFor off h 3) [false, false] h ∧ active off h.t = false)
    ∧ (∃ h, Runs (probeA [5, 6]) none [0, 1, 31] ([1, 31] ++ waitsFor none h 0) [false, false] h ∧ h.acc = true) :=
  ⟨runs_with (by decide), runs_with (by decide), runs_with (by decide)⟩

theorem witness_AluBAndImmediateResults :
    (∃ h, Runs (probe [5]) none [0, 1, 127] ([1, 127] ++ waitsFor none h 0) [true, false] h ∧ active none h.t = true)
    ∧ (∃ h, Runs (probe [5]) off [3, 1] (1 :: waitsFor off h 3) [true] h ∧ active off h.t = false)
    ∧ (∃ h, RunsHere (probe [5, 6]) off [3, 1, 2] [1, 2, 3] h ∧ ∀ q, off = some q → q.zero = false) :=
  ⟨runs_with (by decide), runs_with (by decide), by
    obtain ⟨h, h1, -⟩ := here_with (s := probe [5, 6]) (p := off) (names := [3, 1, 2]) (full := fun _ => [1, 2, 3])
      (P := fun _ => True) (by decide)
    exact ⟨h, h1, fun q hq => by cases hq; rfl⟩⟩

theorem witness_UGroup :
    (∃ h, Runs (probe []) none [0] [0] [] h ∧ h.acc = false) ∧ ∃ h, Runs (probeA []) none [31] [31] [] h ∧ h.acc = true :=
  ⟨runs_with (by decide), runs_with (by decide)⟩

theorem witness_DivisionStarts :
    (∃ h, RunsHere (probe [0x8000000000000000, 0xFFFFFFFFFFFFFFFF]) none [3, 1, 2] ([1, 2] ++ waitsFor none h 3) h
      ∧ active none h.t = true ∧ (h.t.readX 1).toInt = -2 ^ 63 ∧ (h.t.readX 2).toInt = -1)
    ∧ ∃ h, RunsHere (probe [7]) none [0, 1, 2] ([1, 2] ++ waitsFor none h 0) h ∧ active none h.t = true ∧ h.t.readX 2 = 0 :=
  ⟨here_with (by decide), here_with (by decide)⟩

theorem witness_DivisionMasked :
    ∃ h, RunsHere (probe [7, 0]) off [0, 1, 2] ([1, 2] ++ waitsFor off h 0) h ∧ active off h.t = false :=
  here_with (by decide)

/-- Each condition taken and not taken; the mask conditions name a mask register, not a register. -/
theorem witness_BranchTarget :
    (∃ h, RunsHere (probe [0]) none [1] [1] h ∧ (h.t.readX 1).toInt = 0)
    ∧ (∃ h, RunsHere (probe [1]) none [1] [1] h ∧ 0 < (h.t.readX 1).toInt)
    ∧ (∃ h, RunsHere (probe [0xFFFFFFFFFFFFFFFF]) none [1] [1] h ∧ (h.t.readX 1).toInt < 0)
    ∧ (∃ h, RunsHere (probe []) none [] [] h ∧ (h.t.kReg 0).getLsbD 0 = true ∧ (h.t.kReg 1).getLsbD 0 = false) :=
  ⟨here_with (by decide), here_with (by decide), here_with (by decide), here_with (by decide)⟩

theorem witness_RegisterTransfers : ∃ h, RunsHere (probe [0x7003]) none [1, 1] [1, 1] h ∧ h.t.readX 1 = 0x7003 :=
  here_with (by decide)

/-- The line of the probe's code that holds an address. -/
def lineAt (h : Here) (a : Word) : ICLine := { die := h.b.die, core := h.b.core, ctx := h.b.ctx, line := a.toNat / 128 }

/-- A count with passes in each slice; a count of 0 with endpc in a line that is not there, in one that is, and on a page that
is not mapped. -/
theorem witness_LoopInstructions :
    (∃ h, Runs (probe [1]) none [1] [1] [] h ∧ h.acc = false ∧ (h.t.readX 1).setWidth 32 ≠ (0 : BitVec 32))
    ∧ (∃ h, Runs (probeA [1]) none [1] [1] [] h ∧ h.acc = true ∧ firstPoison h [1] = none)
    ∧ (∃ h, Runs { probe [0x100000000] with icache := [] } none [1] [1] [] h ∧ (h.t.readX 1).setWidth 32 = (0 : BitVec 32)
      ∧ (codeInst h.s h.b.ctx (h.t.pc + 4).toNat).all (fun x => !h.s.poisoned.contains x.1.hash) = true
      ∧ (match locateAll h.s h.b.view needX (addrs (h.t.pc + 4).toNat 4) with
          | .inl ls => !leafCode ls && (dataFault h.s ls (h.t.pc + 4).toNat).isNone
          | .inr _ => false) = true
      ∧ lineAt h (h.t.pc + 4) ∉ h.s.icache ∧ ∀ f ∈ h.s.fills, f.line ≠ lineAt h (h.t.pc + 4))
    ∧ (let s : State := { probe [] with icache := [{ die := 0, core := 0, ctx := 0, line := 128 }] }
      ∃ h, Runs s none [1] [1] [] h ∧ (h.t.readX 1).setWidth 32 = (0 : BitVec 32) ∧ lineAt h (h.t.pc + 4) ∈ h.s.icache)
    ∧ ∃ h, Runs (probeT [] fun t => { t with pc := 0x3FFFFFFC }) none [1] [1] [] h
      ∧ (h.t.readX 1).setWidth 32 = (0 : BitVec 32)
      ∧ (locateAll h.s h.b.view needX (addrs (h.t.pc + 4).toNat 4)).isLeft = false :=
  ⟨runs_with (by decide), runs_with (by decide), runs_with (by decide), runs_with (by decide), runs_with (by decide)⟩

/-- No level ends; one ends with its last pass; one has a pass left; and two end at one place, the higher one with its last. -/
theorem witness_LoopEndRules :
    let t := { probeThread 0 with pc := 0x4000 }
    let ends := fun (t : Thread) (n : Fin 4) =>
      t.lc[n].active && decide ((t.lc[n].stop - t.pc).toNat < 4) && (t.lc[n].stop - t.pc).toNat % 4 == 0
    let level := fun (k : BitVec 32) => ({ active := true, remaining := k, start := 0x3000, stop := 0x4000 } : Loop)
    let last := { t with lc := t.lc.set 3 (level 1) }
    let both := { t with lc := (t.lc.set 3 (level 1)).set 2 (level 2) }
    (∀ n : Fin 4, ends t n = false)
    ∧ (ends last 3 = true ∧ ∀ n : Fin 4, ends last n = true → last.lc[n].remaining.toNat ≤ 1)
    ∧ (ends both 2 = true ∧ 1 < both.lc[(2 : Fin 4)].remaining.toNat ∧ ends both 3 = true
      ∧ ∀ m : Fin 4, 2 < m → ends both m = true → both.lc[m].remaining.toNat ≤ 1) := by
  decide

/-! ## Issue, traps, the illegal-instruction response -/

theorem witness_EmptyRegisterWaits :
    (∃ h, current (probeT [5, 6] fun t => t.emptyX 1) 4 = some h ∧ h.acc = false
      ∧ (∀ x ∈ [(3 : Reg), 1, 2], regOk h x.toNat = true) ∧ h.t.xFull 1 = false)
    ∧ (∃ h, current (probeT [5, 6] fun t => t.emptyX 3) 4 = some h ∧ h.acc = false
      ∧ (∀ x ∈ [(3 : Reg), 1, 2], regOk h x.toNat = true) ∧ h.t.xFull 3 = false ∧ srReadable (23 : BitVec 5).toNat = true) :=
  ⟨cur_with (by decide), cur_with (by decide)⟩

theorem witness_EmptyReadTraps :
    (∃ h, current (probeT [5, 6] fun t => t.emptyX 1) 4 = some h ∧ h.acc = false
      ∧ (∀ x ∈ [(3 : Reg), 1, 2], regOk h x.toNat = true) ∧ h.t.xFull 3 = true ∧ h.t.xFull 1 = false ∧ h.t.xFull 2 = true)
    ∧ ∃ h, current (probeT [5, 6] fun t => t.emptyX 2) 4 = some h ∧ h.acc = false
      ∧ (∀ x ∈ [(3 : Reg), 1, 2], regOk h x.toNat = true) ∧ h.t.xFull 3 = true ∧ h.t.xFull 1 = true ∧ h.t.xFull 2 = false :=
  ⟨cur_with (by decide), cur_with (by decide)⟩

theorem witness_TrapEntryEffect :
    ∃ b ∈ (completeLoads (probeT [] fun t => { t with tvec := 0x5000 }) 0 0).block? 0,
      ∃ t ∈ b.thread? false 0, t.inHandler = false ∧ t.tvec ≠ 0 := by
  decide

theorem witness_DoubleFaultKills :
    (∃ b ∈ (completeLoads (probe []) 0 0).block? 0, ∃ t ∈ b.thread? false 0, b.commission = none ∧ t.tvec = 0)
    ∧ ∃ b ∈ (completeLoads (probeT [] fun t => { t with inHandler := true, tvec := 0x5000 }) 0 0).block? 0,
      ∃ t ∈ b.thread? false 0, b.commission = none ∧ t.inHandler = true := by
  decide

theorem witness_TrapBrkAndReturn :
    (∃ h, RunsHere (probe []) none [1] [1] h ∧ h.t.inHandler = false)
    ∧ ∃ h, RunsHere (probeT [] fun t => { t with inHandler := true }) none [0] [0] h ∧ h.t.inHandler = true :=
  ⟨here_with (by decide), here_with (by decide)⟩

theorem witness_UdfIsIllegal : ∃ h, current (probe []) 4 = some h ∧ h.b.commission = none := cur_with (by decide)

/-- A block with a thread in each of two team slots, and an access thread. -/
def twoTeams : State :=
  probeB [] fun b => { b with
    threads := b.threads ++ b.threads.map fun t => { t with tid := 32, slot := 1 }
    access := b.threads
    teams := b.teams ++ b.teams.map fun t => { t with slot := 1 } }

theorem witness_IllegalKillsTeam :
    ∃ b ∈ twoTeams.block? 0, ∃ t ∈ b.threads, b.bid = 0 ∧ b.commission = none ∧ (twoTeams.blocks.map (·.bid)).Nodup
      ∧ (b.threads.map (·.tid)).Nodup ∧ (∃ x ∈ b.threads, x.slot ≠ t.slot) ∧ ∃ x ∈ b.access, x.slot = t.slot := by
  decide

theorem witness_IllegalHere :
    (∃ h, current (probeB [] fun b => { b with kernel := { b.kernel with regs := 96 } }) 4 = some h
      ∧ regOk h (96 : Reg).toNat = false ∧ regOk h (95 : Reg).toNat = true ∧ h.b.kernel.regs ≤ 32 * (3 : BitVec 3).toNat)
    ∧ (∃ h, current (probe []) 4 = some h ∧ 5 ≤ (5 : BitVec 3).toNat) ∧ ∃ h, current (probeA []) 4 = some h ∧ h.acc = true :=
  ⟨cur_with (by decide), cur_with (by decide), cur_with (by decide)⟩

/-! ## Control and special registers -/

theorem witness_YieldWinbaseCapq :
    (∃ h, RunsHere (probe []) none [3] [3] h ∧ 32 * (4 : BitVec 3).toNat < h.b.kernel.regs)
    ∧ ∃ h, RunsHere (probe []) none [0] [0] h ∧ 32 * (0 : BitVec 3).toNat < h.b.kernel.regs ∧ 6 ≤ (6 : BitVec 4).toNat :=
  ⟨here_with (by decide), here_with (by decide)⟩

/-- The producer of a special function in flight. -/
def flying : Prod :=
  { id := 9, bid := 0, tid := 0, acc := false, y := some 5, val := 0, poison := none, flags := 0, kind := .special,
    ready := true, due := 5, desc := noDesc }

theorem witness_SpecialRegisterAccess :
    (∃ h, RunsHere (probe [6]) none [1] [1] h ∧ flagsPending h = false ∧ (∃ c ∈ (probe [6]).ctx? h.b.ctx, c.id = 0)
      ∧ 5 ≤ (h.t.readX 1).toNat % 8)
    ∧ (∃ h, RunsHere (probe [4]) none [1] [1] h ∧ (h.t.readX 1).toNat % 8 < 5)
    ∧ ∃ h, RunsHere { probe [] with prods := [flying] } none [1] [1] h ∧ flagsPending h = true :=
  ⟨here_with (by decide), here_with (by decide), here_with (by decide)⟩

theorem witness_TimestampStarts : ∃ h, RunsHere (probe []) none [3] [3] h ∧ (probe []).ptpNs < 10 ^ 9 :=
  here_with (by decide)

/-- A handle mapped and not committed: the block is inside a restart region. -/
def region (b : Block) : Block := { b with handles := b.handles.set 0 { map := 0, unc := true, skp := false, tile := [] } }

theorem witness_ExitEnds :
    (∃ h, current (probeA []) 4 = some h ∧ h.acc = true)
    ∧ (∃ h, current (probe []) 4 = some h ∧ h.acc = false ∧ uncommitted h.b = false)
    ∧ ∃ h, current (probeB [] region) 4 = some h ∧ h.acc = false ∧ uncommitted h.b = true :=
  ⟨cur_with (by decide), cur_with (by decide), cur_with (by decide)⟩

/-- The probe's block with a second thread of its team, running elsewhere. -/
def mate (b : Block) : Block :=
  { b with threads := b.threads ++ b.threads.map fun t => { t with tid := 1, lane := 1, pc := 0x4800 } }

/-- The block with its issuing thread put to wait at a RECONV on the set it names. -/
def waiting (h : Here) (rd : Reg) (key : Option Word) (limit : Nat) (s : State) : Block :=
  h.b.setThread false { h.t with wait := .reconv, reconv := some { issued := h.b.clk s, key := key, rd := rd, limit := limit } }

theorem witness_ReconvStatus :
    (∃ h, RunsHere (probe [5]) none [3, 1, 2] [1, 2, 3] h
      ∧ setMembers h.b h.t.slot (if (1 : Reg) = 0 then none else some (h.t.readX 1)) = none)
    ∧ (∃ h, RunsHere (probeB [5] fun b => { b with groups := [{ key := 5, members := [1] }] }) none [3, 1, 2] [1, 2, 3] h
      ∧ ∃ ms ∈ setMembers h.b h.t.slot (some (h.t.readX 1)), h.t.tid ∉ ms)
    ∧ (∃ h, RunsHere (probe [5]) none [3, 0, 2] [0, 2, 3] h
      ∧ ∃ ms ∈ setMembers h.b h.t.slot none, h.t.tid ∈ ms ∧ (h.b.threads.map (·.tid)).Nodup
        ∧ allAtReconv (waiting h 3 none 5 (probe [5])) ms h.t.pc = true)
    ∧ (∃ h, RunsHere (probeB [5, 0x100000000] mate) none [3, 0, 2] [0, 2, 3] h
      ∧ ∃ ms ∈ setMembers h.b h.t.slot none, h.t.tid ∈ ms ∧ (h.b.threads.map (·.tid)).Nodup
        ∧ allAtReconv (waiting h 3 none 0 (probe [])) ms h.t.pc = false ∧ (h.t.readX 2).toNat % 2 ^ 32 = 0)
    ∧ ∃ h, RunsHere (probeB [5, 1] mate) none [3, 0, 2] [0, 2, 3] h
      ∧ ∃ ms ∈ setMembers h.b h.t.slot none, h.t.tid ∈ ms ∧ (h.b.threads.map (·.tid)).Nodup
        ∧ allAtReconv (waiting h 3 none 1 (probe [])) ms h.t.pc = false ∧ (h.t.readX 2).toNat % 2 ^ 32 ≠ 0 :=
  ⟨here_with (by decide), here_with (by decide), here_with (by decide), here_with (by decide), here_with (by decide)⟩

/-- Three threads of a team at one PC, in one issue group, with a free team slot beside it: the first is in the minority. -/
def trio : State :=
  let s := probeB [5, 0x7000] fun b => { b with
    kernel := { b.kernel with s := 1 }
    teams := b.teams ++ b.teams.map (fun t => { t with slot := 1, held := false })
    threads := b.threads ++ b.threads.map (fun t => { t with tid := 1, lane := 1, regs := argRegs [0, 0x7000] })
      ++ b.threads.map (fun t => { t with tid := 2, lane := 2, regs := argRegs [0, 0x7000] }) }
  { s with group := (List.range 3).map fun n => { bid := 0, tid := n, acc := false } }

theorem witness_SpawningBranch :
    (∃ h, RunsHere (probe [5, 0x7000]) none ([1, 2] ++ (List.range 1).map (10 + ·)) [1, 2] h ∧ h.t.parking = none
      ∧ condHolds 1 (h.t.readX 1) = true)
    ∧ (∃ h, RunsHere (probe [0, 0x7000]) none ([1, 2] ++ (List.range 16).map (63 + ·)) [1, 2] h ∧ h.t.parking = none
      ∧ condHolds 1 (h.t.readX 1) = false)
    ∧ (∃ h, RunsHere (trio.onBlock 0 fun b => { b with threads := b.threads.map (·.emptyX 13) }) none
        ([1, 2] ++ (List.range 4).map (10 + ·)) [1, 2] h
      ∧ spawnSlot h.b 0x7000 = some 1 ∧ liveFull h.t 10 4 = false)
    ∧ ∃ h, RunsHere trio none ([1, 2] ++ (List.range 4).map (10 + ·)) [1, 2] h ∧ h.t.parking = none
      ∧ condHolds 1 (h.t.readX 1) = true
      ∧ ((h.b.threads.filter fun x => condHolds 1 (x.readX 1)).length, h.b.threads.length) = (1, 3)
      ∧ (h.b.threads.all fun x => x.xFull 1 && x.xFull 2
        && (x.tid == h.t.tid || trio.group.contains { bid := h.b.bid, tid := x.tid, acc := false })) = true
      ∧ 1 ≤ h.t.spth.toNat ∧ h.t.inHandler = false ∧ spawnSlot h.b 0x7000 = some 1 ∧ liveFull h.t 10 4 = true :=
  ⟨here_with (by decide), here_with (by decide), here_with (by decide), here_with (by decide)⟩

end Sys2Proof.Tests
end

