-- ==== Sys2Proof/Tests/Witness1.lean ====
section
/-! SUPPORT. Witnesses for the statements about floating point, sets, memory, atomics, engines, the matrix unit, barriers and
tasks: states and operands that meet their hypotheses, clause by clause. -/

namespace Sys2Proof.Tests

open Sys2Proof.Machine

set_option maxRecDepth 100000
set_option Elab.async false

/-! ## Floating point and packed integers -/

theorem witness_FloatResults :
    (∃ h, RunsHere (probe [5, 6]) none [3, 1, 2] [1, 2, 3] h ∧ regOk h 0 = true)
    ∧ ∃ h, RunsHere (probe [5, 6]) (some { pfx 0 7 false with rc := 127 }) [0, 1, 2] [1, 2, 0] h
      ∧ regOk h (127 : Reg).toNat = true ∧ h.t.xFull 127 = true :=
  ⟨here_with (by decide +kernel), here_with (by decide +kernel)⟩

theorem witness_UnaryFloatAndSpecialFunctions :
    (∃ h, RunsHere (probe [5]) none [3, 1] [1, 3] h ∧ 8 ≤ (8 : BitVec 4).toNat
      ∧ ∃ m < 64 / (Fmt.ofCode 0).slot, elemOn (enableMask none h.t) m (Fmt.ofCode 0).slot = true)
    ∧ (∃ h, RunsHere (probe [5]) off [3, 1] [1, 3] h
      ∧ ¬∃ m < 64 / (Fmt.ofCode 2).slot, elemOn (enableMask off h.t) m (Fmt.ofCode 2).slot = true)
    ∧ ∃ h, RunsHere (probeT [5] fun t => t.writeK 1 0x40) off [3, 1] [1, 3] h
      ∧ ∃ m < 64 / (Fmt.ofCode 2).slot, elemOn (enableMask off h.t) m (Fmt.ofCode 2).slot = true :=
  ⟨here_with (by decide +kernel), here_with (by decide +kernel), here_with (by decide +kernel)⟩

/-- Codes of binary32 for each clause: two NaNs, of which one is signalling, a number either way round, the two zeros, the
infinities, and the smallest and the largest number; a product below every number and a sum beyond them all. -/
theorem witness_FloatingPointValues :
    let d := decodeNum .f32
    let v := Claim.value .f32
    let top := (v 0x7F7FFFFF).getD 0
    ((d 0x7FC00000).isNaN = true ∧ (d 0x7F800001).isSNaN = true ∧ (d 0x3F800000).isNaN = false
      ∧ d 0x80000000 = .zero true ∧ d 0 = .zero false ∧ (d 0xFF800000).isInf = true ∧ (d 0x7F800000).isInf = true)
    ∧ (v 1 = some (2 ^ 925) ∧ v 0x3F800000 = some (2 ^ 1074) ∧ v 0 = some 0 ∧ (v 0x7F800000).isNone = true
      ∧ Claim.rank .f32 0x7F800000 = some (2 ^ 3000) ∧ (Claim.rank .f32 0x7FC00000).isNone = true)
    ∧ (2 * top + (top - (v 0x7F7FFFFE).getD 0)) * 1 ≤ 2 * (top + top)
    ∧ 4 * (2 ^ 925 * 2 ^ 925) < (4 * (v 0x800000).getD 0 - 2 ^ 925) * 2 ^ 1074
    ∧ ((decodeNum .tf8 0x80).isNaN = true ∧ (Claim.value .tf8 1).isSome = true)
    ∧ ((255 : Nat) < 2 ^ intWidth 8 ∧ (BitVec.ofNat (intWidth 8) 255).toInt = -1) := by
  decide +kernel

/-- Rows of one length: with a NaN, with an infinity, and of numbers whose sum is 0 and is not. -/
theorem witness_MatrixElementValues :
    [0x7FC00000].length = [1].length ∧ (decodeNum .f32 0x7FC00000).isNaN = true
    ∧ (decodeNum .f32 0x7F800000).isInf = true ∧ (decodeNum .f32 0x3F800000).isZero = false
    ∧ (Claim.value .f32 0x3F800000).getD 0 * (Claim.value .f32 0x80000000).getD 0 = 0
    ∧ (Claim.value .f32 0x3F800000).getD 0 * (Claim.value .f32 0x3F800000).getD 0 ≠ 0 := by
  decide +kernel

theorem witness_PackedMode :
    (∃ h, RunsHere (probe [5, 6]) none [3, 1, 2] [1, 2, 3] h ∧ (0 : BitVec 2).toNat < 3)
    ∧ ∃ h, RunsHere (probe [5, 6]) off [3, 1] [1, 3] h ∧ (2 : BitVec 2).toNat < 3 :=
  ⟨here_with (by decide +kernel), here_with (by decide +kernel)⟩

/-! ## Sets, groups, rendezvous -/

theorem witness_SetArrival :
    (∃ h, RunsHere (probe [5]) none [3, 0, 2] [0, 2, 3] h ∧ (h.b.arrivals.any fun a => a.tid == h.t.tid) = false)
    ∧ ∃ h, RunsHere (probeB [5] fun b => { b with groups := [{ key := 5, members := [0] }] }) none [3, 1, 2] [1, 2, 3] h
      ∧ (h.b.arrivals.any fun a => a.tid == h.t.tid) = false ∧ ∃ g ∈ h.b.groups, g.key = h.t.readX 1 ∧ h.t.tid ∈ g.members :=
  ⟨here_with (by decide +kernel), here_with (by decide +kernel)⟩

/-- An arrival of thread tid with value v. -/
def arrival (tid : Nat) (i : Instr) (v : Word) : Arrival :=
  { tid := tid, instr := i, key := none, rdVal := v, raVal := 0, rbVal := 0, mask := 0xFF, rm := 0 }

/-- Two threads of a team, both arrived at the same reduction. -/
def arrived : State :=
  probeB [] fun b => { mate b with
    arrivals := [arrival 0 (.gred none 3 0 0 11 false) 7, arrival 1 (.gred none 3 0 0 11 false) 8] }

theorem witness_SetCompletes :
    ∃ b ∈ arrived.block? 0, ∃ ms ∈ gathered b 0 none, ms.length = 2 ∧ (ms.map (·.a.tid)).Nodup
      ∧ (∀ m ∈ ms, m.a.instr = .gred none 3 0 0 11 false ∧ (setSig m.a.instr).isSome = true)
      ∧ ∀ m ∈ ms, ∃ t ∈ b.threads, t.tid = m.a.tid ∧ ∃ r ∈ setResults ms, r.tid = t.tid := by
  decide +kernel

theorem witness_SetMismatch :
    setSig (.gred none 3 0 0 11 false) ≠ setSig (.gred none 3 0 1 11 false)
    ∧ setSig (.vote none 3 0 0 false) ≠ setSig (.shfli none 3 0 0 0 false) := by
  decide +kernel

/-- A member of a rank, with values in rd and the other operand and a mask. -/
def member (rank : Nat) (v x : Word) (mask : Byte) : Member :=
  { rank := rank, a := { arrival rank (.shfl none 3 0 2 false false) v with raVal := x, rbVal := x, mask := mask } }

/-- Ranks 0, 1 and 32; the last is beyond the members that take part in votes and shuffles, and the second is not enabled. -/
def ranked : List Member := [member 0 7 32 0xFF, member 1 8 0 0, member 32 9 0 0xFF]

theorem witness_ReductionAndVote :
    ranked.length ≤ 1024 ∧ (ranked.map (·.rank)).Nodup ∧ ranked.filter (·.active) ≠ [] ∧ ranked.any (!·.active) = true := by
  decide +kernel

/-- Sources in range and beyond it, an inactive source, and a reader of rank 32. -/
theorem witness_Exchanges :
    (ranked.map (·.rank)).Pairwise (· < ·)
    ∧ (∃ m ∈ ranked, (32 : Int) ≤ m.a.rbVal.toNat) ∧ (∃ m ∈ ranked, ¬m.rank < 32)
    ∧ (∃ m ∈ ranked, m.rank < 32 ∧ ∃ x ∈ ranked, x.active = true ∧ x.rank = m.a.rbVal.toNat)
    ∧ (∃ m ∈ ranked, shfliRank 2 1 m.rank = 1 ∧ ∀ x ∈ ranked, x.active = true → (x.rank : Int) ≠ 1)
    ∧ (ranked.filter (·.active)).head? = some (member 0 7 32 0xFF) ∧ (ranked.length : Int) ≤ (32 % 1024 : Nat) := by
  decide +kernel

theorem witness_Scans :
    6 < 7 ∧ 15 < 16 ∧ (ranked.map (·.rank)).Pairwise (· < ·)
    ∧ (ranked.filter (·.active))[1]? = some (member 32 9 0 0xFF) ∧ 0 < 64 / codeWidth 15 := by
  decide +kernel

theorem witness_Matches : (ranked.map (·.rank)).Nodup := by decide +kernel

/-- Four lanes of bytes: an index of a live lane's element, one whose lane is not live, one whose mask lacks it, and one of an
element that is not enabled. -/
theorem witness_Permutes :
    let ms := [member 0 1 0xFF20_0800_0000_0001 0x7F, member 1 2 0 0xFE]
    3 < 4 ∧ (ms.map (·.rank)).Pairwise (· < ·)
    ∧ (let j := fun (i : Nat) => elem (0xFF20_0800_0000_0001 : Word) i 8 % 256
      elemOn (0x7F : Byte) 0 8 = true ∧ j 0 / 8 = 0 ∧ j 5 / 8 = 1 ∧ elemOn (0xFE : Byte) (j 5 % 8) 8 = false
      ∧ j 6 / 8 = 4 ∧ elemOn (0x7F : Byte) 7 8 = false) := by
  decide +kernel

theorem witness_SegmentReductions :
    let ms := [member 0 1 5 0x01, member 31 2 6 0x10]
    5 < 6 ∧ 15 < 16 ∧ (ms.map (·.rank)).Pairwise (· < ·) ∧ ∀ m ∈ ms, m.rank < 32 := by
  decide +kernel

theorem witness_NotAMember :
    (∃ h, RunsHere (probe [5]) none [3, 1, 2] [1, 2, 3] h ∧ (1 : Reg) ≠ 0
      ∧ ∀ g ∈ h.b.groups, g.key = h.t.readX 1 → h.t.tid ∉ g.members)
    ∧ ∃ h, RunsHere (probeB [5] fun b => { b with groups := [{ key := 5, members := [1] }] }) off [0, 1, 2] [1, 2, 0] h
      ∧ ∀ g ∈ h.b.groups, g.key = h.t.readX 1 → h.t.tid ∉ g.members :=
  ⟨here_with (by decide +kernel), here_with (by decide +kernel)⟩

/-- The base of the block's own scratchpad window. -/
def scratch0 : Word := 0xFFFFFF0000000000

/-- Two threads of a team, both arrived at RAGLDs of one width, their descriptor at the base of the scratchpad. -/
def ragged : State :=
  let load := fun (tid : Nat) => { arrival tid (.ragld none 3 1 3 false) 0 with raVal := scratch0 }
  probeB [] fun b => { mate b with arrivals := [load 0, load 1] }

/-- A RAGLD without rows, and one of a row that begins at 0x1000 with its length there: the walk meets no fault. -/
theorem witness_RagldCompletes :
    (∃ b ∈ (probe []).block? 0, ∃ t ∈ b.thread? false 0, t.tid = 0 ∧ scratch0.toNat % 8 = 0
      ∧ ownScratch b scratch0.toNat 24 = some 0 ∧ uncommitted b = false ∧ Memory.wf b.scratch = true
      ∧ (walkElems (probe []) b 8 32 0 false { data := 0, lenp := 0, off := 0, rows := 0 }).isLeft = true
      ∧ (walkElems (probe []) b 8 2 0 false { data := 0x1000, lenp := 0x1000, off := 0, rows := 1 }).isLeft = true)
    ∧ ∃ b ∈ ragged.block? 0, ∃ ms ∈ gathered b 0 none, ms.length = 2 ∧ (ms.map (·.a.tid)).Nodup
      ∧ ∀ m ∈ ms, m.a.instr = .ragld none 3 1 3 false := by
  decide +kernel

theorem witness_GroupMembership :
    let g := fun (l : List Group) => probeB [5] fun b => { b with groups := l }
    (∃ h, RunsHere (g [{ key := 5, members := [0] }]) none [3, 1] [1, 3] h
      ∧ ∃ x ∈ h.b.groups.find? (fun g => g.key == h.t.readX 1), h.t.tid ∈ x.members)
    ∧ (∃ h, RunsHere (g [{ key := 5, members := [1] }]) none [3, 1] [1, 3] h
      ∧ (∃ x ∈ h.b.groups.find? (fun g => g.key == h.t.readX 1), h.t.tid ∉ x.members)
      ∧ ∀ a ∈ h.b.arrivals, a.key ≠ some (h.t.readX 1))
    ∧ (∃ h, RunsHere (g ((List.range 63).map fun i => { key := BitVec.ofNat 64 (100 + i), members := [1] })) none [3, 1] [1, 3] h
      ∧ h.b.groups.find? (fun g => g.key == h.t.readX 1) = none ∧ h.b.groups.length < 64)
    ∧ (∃ h, RunsHere (g ((List.range 64).map fun i => { key := BitVec.ofNat 64 (100 + i), members := [1] })) none [3, 1] [1, 3] h
      ∧ h.b.groups.find? (fun g => g.key == h.t.readX 1) = none ∧ 64 ≤ h.b.groups.length)
    ∧ ∃ h, RunsHere (probe [5]) none [3, 0] [0, 3] h ∧ ∃ ms ∈ setMembers h.b h.t.slot none, h.t.tid ∈ ms :=
  ⟨here_with (by decide +kernel), here_with (by decide +kernel), here_with (by decide +kernel), here_with (by decide +kernel), here_with (by decide +kernel)⟩

/-- The probe with its one team changed. -/
def probeTeam (xs : List Word) (f : Team → Team) : State := probeB xs fun b => { b with teams := b.teams.map f }

/-- A send to lane 1, which is not live; to lane 0 with a claim, with an empty cell, to a full cell, and behind
another sender; a receive from a full cell and an empty one. -/
theorem witness_Rendezvous :
    (∃ h, RunsHere (probe [5, 32]) none [3, 1, 2] [1, 2, 3] h ∧ (h.b.team? ((h.t.readX 2).toNat % 32)).isSome = true
      ∧ (h.b.team? h.t.slot).isSome = true ∧ ((h.b.live 0).any fun x => x.lane == (h.t.readX 2).toNat / 32 % 32) = false)
    ∧ (∃ h, RunsHere (probeTeam [5, 0] fun tm => { tm with claims := [(32 * 15, 4)] }) none [3, 1, 2] [1, 2, 3] h
      ∧ ∃ tm ∈ h.b.team? 0, ((h.b.live 0).any fun x => x.lane == (h.t.readX 2).toNat / 32 % 32) = true
        ∧ tm.claims.find? (fun c => c.1 == 32 * 15) = some (32 * 15, 4))
    ∧ (∃ h, RunsHere (probe [5, 0]) none [3, 1, 2] [1, 2, 3] h
      ∧ ∃ tm ∈ h.b.team? 0, tm.claims.find? (fun c => c.1 == 0) = none ∧ (tm.cells.any fun x => x.1 == 0) = false
        ∧ (tm.claims.any fun c => c.1 == 32 * (0 : BitVec 4).toNat + h.t.lane) = false
        ∧ tm.senders.find? (fun x => x.1 == 0) = none)
    ∧ (∃ h, RunsHere (probeTeam [5, 0] fun tm => { tm with cells := [(0, 77)] }) none [3, 1, 2] [1, 2, 3] h
      ∧ ∃ tm ∈ h.b.team? 0, tm.claims.find? (fun c => c.1 == 0) = none ∧ (tm.cells.any fun x => x.1 == 0) = true)
    ∧ (∃ h, RunsHere (probeTeam [5, 0] fun tm => { tm with senders := [(0, 1)] }) none [3, 1, 2] [1, 2, 3] h
      ∧ ∃ tm ∈ h.b.team? 0, tm.claims.find? (fun c => c.1 == 0) = none ∧ tm.senders.find? (fun x => x.1 == 0) = some (0, 1)
        ∧ h.t.tid ≠ 1)
    ∧ ∃ h, RunsHere (probeTeam [5, 0] fun tm => { tm with cells := [(0, 77)] }) none [0, 1, 2] [1, 2, 0] h
      ∧ ∃ tm ∈ h.b.team? 0, (tm.claims.any fun c => c.1 == 0) = false ∧ tm.cells.find? (fun x => x.1 == 0) = some (0, 77) :=
  ⟨here_with (by decide +kernel), here_with (by decide +kernel), here_with (by decide +kernel), here_with (by decide +kernel),
    here_with (by decide +kernel), here_with (by decide +kernel)⟩

/-! ## Memory -/

theorem witness_LoadsAndMaskedAccesses :
    (∃ h, RunsHere (probe [0x3010]) none [3, 1] (1 :: waitsFor none h 3) h ∧ h.b.held = [] ∧ active none h.t = true
      ∧ (loadAt (probe [0x3010]) h.b.view (h.t.readX 1 + BitVec.ofInt 64 ((0x3FE : BitVec 10).toInt * 8)).toNat 8).isLeft = true)
    ∧ (∃ h, RunsHere (probe [scratch0]) none [3, 1] (1 :: waitsFor none h 3) h ∧ h.b.held = [] ∧ active none h.t = true
      ∧ (loadAt (probe [scratch0]) h.b.view (h.t.readX 1).toNat 1).isLeft = true)
    ∧ (∃ h, RunsHere (probe [0x3004]) none [3, 1] [1, 3] h ∧ h.b.held = [] ∧ (h.t.readX 1).toNat % 4 = 0
      ∧ (loadAt (probe [0x3004]) h.b.view (h.t.readX 1).toNat 4).isLeft = true)
    ∧ ∃ h, RunsHere (probe [5]) off [3, 1] [3, 1] h ∧ active off h.t = false :=
  ⟨here_with (by decide +kernel), here_with (by decide +kernel), here_with (by decide +kernel), here_with (by decide +kernel)⟩

theorem witness_StoreResults :
    (∃ h, RunsHere (probe [0x6001]) none [3, 1] [3, 1] h ∧ twinned h.b = false ∧ uncommitted h.b = false
      ∧ active none h.t = true ∧ windowFault (probe [0x6001]) h.b.view (h.t.readX 1).toNat 8 = none
      ∧ (locateAll (probe [0x6001]) h.b.view needW (addrs (h.t.readX 1).toNat 8)).isLeft = true)
    ∧ ∃ h, RunsHere (probe [scratch0 + 65528]) none [1, 2] [1, 2] h ∧ twinned h.b = false ∧ uncommitted h.b = false
      ∧ (h.t.readX 1).toNat % 8 = 0 ∧ windowFault (probe [scratch0 + 65528]) h.b.view (h.t.readX 1).toNat 8 = none
      ∧ (locateAll (probe [scratch0 + 65528]) h.b.view needW (addrs (h.t.readX 1).toNat 8)).isLeft = true :=
  ⟨here_with (by decide +kernel), here_with (by decide +kernel)⟩

/-- The last 8 bytes of the block's scratchpad. -/
theorem witness_ScratchStoreThenLoad :
    ∃ b ∈ (probe []).block? 0, b.bid = 0 ∧ Memory.wf b.scratch = true ∧ 65528 + 8 ≤ b.kernel.scratch
      ∧ b.kernel.scratch ≤ 2 ^ 24 ∧ (storeAt (probe []) b.view (0xFFFFFF0000000000 + 65528) 8 (2 ^ 64 - 1)).isLeft = true := by
  decide +kernel

/-- Eight bytes that can be read, and eight that an atomic reads and writes, across the end of a page and in the scratchpad. -/
theorem witness_PhysicalAccess :
    (let s := probe [];
      Memory.wf s.mem = true ∧ Memory.wf s.atelier = true ∧ ∀ b ∈ s.blocks, Memory.wf b.scratch = true)
    ∧ ∃ b ∈ (probe []).block? 0,
      (windowFault (probe []) b.view 0x3FFC 8 = none ∧ (match locateAll (probe []) b.view needR (addrs 0x3FFC 8) with
        | .inl ls => ls.all (fun l => !placePoisoned (probe []) l.place)
        | .inr _ => false) = true)
      ∧ (windowFault (probe []) b.view 0x6000 8 = none ∧ (match locateAll (probe []) b.view needRW (addrs 0x6000 8) with
        | .inl ls => ls.all (fun l => !placePoisoned (probe []) l.place) && decide ((ls.map (·.place)).Nodup)
        | .inr _ => false) = true) := by
  decide +kernel

/-- Does an address hold a byte that can be read without a change of the page tables? -/
def readable (s : State) (b : Block) (a : Nat) : Bool :=
  match locate s b.view needR a with
  | .ok l => !placePoisoned s l.place && (match l.place with
      | .scratch _ _ => false
      | _ => true) && l.leaf.all fun f => f.entry.getLsbD 8
  | .bad _ => false

/-- The probe with the A bits of its pages set, and slice 768 of die 0 its context's. -/
def warmed : State :=
  let s : State := { probe [] with ctxs := (probe []).ctxs.map fun c => { c with atl := [(0, 0, 768)] } }
  match (s.block? 0).bind fun b => (loadBytes s b.view 0x3000 8).getLeft? with
  | some x => x.2
  | none => s

theorem witness_EngineTransfers :
    (∃ b ∈ (probe []).block? 0, b.bid = 0 ∧ b.kernel.scratch ≤ 2 ^ 24 ∧ 65528 + 8 ≤ b.kernel.scratch
      ∧ (match loadBytes (probe []) b.view 0x3000 9 with
        | .inl (bs, s1) => (storeBytes s1 b.view 0x6001 bs).2.isNone
        | .inr _ => false) = true)
    ∧ (∃ b ∈ warmed.block? 0, ∀ i < 2, ∀ j < 2, readable warmed b (0x3000 + 4 * i + j) = true)
    ∧ (∃ b ∈ warmed.block? 0, ∀ i < 8, (match locate warmed b.view needW (0xFFFFFE0000000000 + i) with
        | .ok l => (match l.place with
          | .atelier _ => true
          | _ => false) && l.leaf.isNone
        | .bad _ => false) = true) := by
  decide +kernel

theorem witness_AlignmentFaults :
    ∃ h, RunsHere (probe [0x3001]) none [3, 1, 2] [1, 2, 3] h ∧ (h.t.readX 1).toNat % 2 ^ (1 : BitVec 2).toNat ≠ 0
      ∧ (h.t.readX 1).toNat % 8 ≠ 0 ∧ (h.t.readX 1).toNat % 4 ≠ 0 :=
  here_with (by decide +kernel)

/-- A store, atomic, release and task at an address outside the staging, and a COPY of the last length that writes outside it. -/
theorem witness_RestartRegionTraps :
    (∃ h, RunsHere (probeB [0x6000] region) none [3, 1, 2] [3, 1, 2] h ∧ uncommitted h.b = true
      ∧ windowFault h.s h.b.view (h.t.readX 1).toNat 8 = none ∧ windowFault h.s h.b.view (h.t.readX 1).toNat 64 = none
      ∧ regionStoreOk h.b (h.t.readX 1).toNat 8 = false ∧ (h.t.readX 1).toNat % 64 = 0)
    ∧ ∃ h, RunsHere (probeB [0x3000, 0x6000, 2 ^ 40] region) none [3, 1, 2] [3, 1, 2] h ∧ uncommitted h.b = true
      ∧ (∃ tm ∈ h.b.team? h.t.slot, tm.count 0 < 255) ∧ (∀ j < 3, regOk h (1 + j) = true) ∧ (∀ j < 3, h.t.nFull (1 + j) = true)
      ∧ regionStoreOk h.b (h.t.readN 2).toNat (h.t.readN 3).toNat = false ∧ (h.t.readN 3).toNat ≤ 2 ^ 40 :=
  ⟨here_with (by decide +kernel), here_with (by decide +kernel)⟩

theorem witness_ProgramFaultEffect :
    (∃ b ∈ (probe []).blocks, b.commission = none ∧ ∃ c ∈ (probe []).ctx? b.ctx, c.part = 0 ∧ c.state = .active)
    ∧ (let s := (probe []).setPart 0 { (probe []).part 0 with ccmdBusy := true, ccmdOp := 3, ccmdCtx := 0 };
      ∃ b ∈ s.blocks, ∃ c ∈ s.ctx? b.ctx, resuming s { c with state := .suspended } = true) := by
  decide +kernel

theorem witness_ServiceableFaultSuspends :
    (∃ b ∈ (probe []).blocks, b.state = .running)
    ∧ ∃ b ∈ (probeB [] fun b => { b with state := .asked true 0 }).blocks, b.state = .asked true 0 := by
  decide +kernel

theorem witness_FenceAndHints :
    (∃ h, RunsHere (probe [0x3000]) none [1] [1] h ∧ twinned h.b = false ∧ uncommitted h.b = false)
    ∧ ∃ h, RunsHere (probeB [0x3000] region) none [1] [1] h ∧ twinned h.b = false ∧ uncommitted h.b = true :=
  ⟨here_with (by decide +kernel), here_with (by decide +kernel)⟩

theorem witness_AtomicMasked : ∃ h, RunsHere (probe [5, 6]) off [3, 1, 2] [3, 1, 2] h ∧ active off h.t = false :=
  here_with (by decide +kernel)

theorem witness_AtomicResults :
    (∃ h, RunsHere (probe [0x6000, 5]) none [3, 1, 2] [3, 1, 2] h ∧ active none h.t = true ∧ twinned h.b = false
      ∧ uncommitted h.b = false ∧ (h.t.readX 1).toNat % 8 = 0
      ∧ (atomicAt (probe [0x6000, 5]) h.b.view (h.t.readX 1).toNat 8 (fun o => some ((o + 5) % 2 ^ 64))).isLeft = true
      ∧ (atomicAt (probe [0x6000, 5]) h.b.view (h.t.readX 1).toNat 8 (fun o => if o = 0 then some 5 else none)).isLeft = true)
    ∧ ∃ h, RunsHere (probe [scratch0 + 4, 5]) none [0, 1, 2] [0, 1, 2] h ∧ active none h.t = true ∧ twinned h.b = false
      ∧ uncommitted h.b = false ∧ (h.t.readX 1).toNat % 4 = 0
      ∧ (match atomicAt (probe [scratch0 + 4, 5]) h.b.view (h.t.readX 1).toNat 4 (fun o => some (min o 5)) with
          | .inl x => decide (x.1 < 2 ^ 32)
          | .inr _ => false) = true :=
  ⟨here_with (by decide +kernel), here_with (by decide +kernel)⟩

/-- The probe's memory, with a kernel parameter block at 0x20000 and a commission descriptor at 0x21000. -/
def kernelMem : List Host.Cell :=
  [(0x1000, 0x01), (0x1001, 0x20), (0x2000, 0x01), (0x2001, 0x30), (0x3000, 0x1F), (0x3001, 0x03), (0x20001, 0x01), (0x20018, 0x20),
    (0x2001A, 0x01), (0x20026, 0x01), (0x21000, 0x01), (0x21002, 0x02)]

/-- A state whose context holds a kernel parameter block at 0x20000 and a commission table of one entry that names it. -/
def withKernel (s : State) : State :=
  let i : Inst :=
    { iid := 1, part := 0, hash := [], base := 0x20000, image := 4096, gotBytes := 0, slots := [], ext := [], refs := 1,
      ctxs := [0], file := 0, imgOff := 0, hashOff := 0, fileSize := 0, kernels := [{ name := [], entry := 0, kpb := 0 }],
      globals := [], relocs := [], codePages := [], pages := [], unloading := [], checked := [] }
  { s with
    mem := kernelMem, insts := [i]
    ctxs := s.ctxs.map fun c => { c with cmsnTab := 0x21000, cmsnN := 1, atl := [(0, 0, 768)] } }

/-- The prefix of an ACASK whose descriptor is in x10. -/
def kpfx : Pfx := { pfx 1 7 false with rc := 10 }

/-- An atelier address of the probe's context: slice 768 of die 0. -/
def atl0 : Word := 0xFFFFFE0000000000

/-- A reserved launch entry of the slice at atl0. -/
def reserved (i : Nat) : Commission :=
  { id := i, part := 0, ctx := 0, die := 0, slice := 768, old := 0, kpb := 0x20000, info := { addr := atl0, desc := 0, grid := 0, blk := i },
    scope := 2, launch := 0, pid := none }

def askState (v desc : Word) (n : Nat) : State :=
  { withKernel (probe [atl0, v, 5, 0, 0, 0, 0, 0, 0, desc]) with commissions := (List.range n).map reserved }

/-- An invalid descriptor (index 1 of a table of one entry); a valid one whose compare succeeds with 15 entries reserved and
with all 16, and one whose compare fails. -/
theorem witness_CommissionedSwap :
    (∃ h, RunsHere (askState 0 1 0) (some kpfx) [2, 1, 3, kpfx.rc.toNat] [2, 1, 3, kpfx.rc] h
      ∧ cmsnCheck h (h.t.readX 1).toNat (h.t.readX kpfx.rc) = .invalid)
    ∧ (∃ h, RunsHere (askState 0 0 15) (some kpfx) [2, 1, 3, kpfx.rc.toNat] [2, 1, 3, kpfx.rc] h
      ∧ cmsnCheck h (h.t.readX 1).toNat (h.t.readX kpfx.rc) = .valid ∧ h.t.cmsn = none ∧ twinned h.b = false
      ∧ uncommitted h.b = false ∧ (h.t.readX 1).toNat % 8 = 0
      ∧ sliceLoad (askState 0 0 15) (sliceOf (askState 0 0 15) h.b (h.t.readX 1).toNat) = 15
      ∧ (atomicAt (askState 0 0 15) h.b.view (h.t.readX 1).toNat 8 fun o => if o = 0 then some 5 else none).isLeft = true)
    ∧ (∃ h, RunsHere (askState 0 0 16) (some kpfx) [2, 1, 3, kpfx.rc.toNat] [2, 1, 3, kpfx.rc] h
      ∧ cmsnCheck h (h.t.readX 1).toNat (h.t.readX kpfx.rc) = .valid
      ∧ sliceLoad (askState 0 0 16) (sliceOf (askState 0 0 16) h.b (h.t.readX 1).toNat) = 16)
    ∧ ∃ h, RunsHere (askState 1 0 0) (some kpfx) [2, 1, 3, kpfx.rc.toNat] [2, 1, 3, kpfx.rc] h
      ∧ cmsnCheck h (h.t.readX 1).toNat (h.t.readX kpfx.rc) = .valid ∧ (h.t.readX 1).toNat % 4 = 0
      ∧ (atomicAt (askState 1 0 0) h.b.view (h.t.readX 1).toNat 4 fun _ => none).isLeft = true :=
  ⟨here_with (by decide +kernel), here_with (by decide +kernel), here_with (by decide +kernel), here_with (by decide +kernel)⟩

/-! ## Feed queues, engines -/

def cell (v : Word) : FqCell := { val := v, poison := none, touched := [] }

/-- The access probe with n cells in column 0. -/
def queued (s : State) (n : Nat) : State :=
  s.onBlock 0 fun b => { b with teams := b.teams.map fun tm => { tm with fq := tm.fq.set 0 (List.replicate n (cell 7)) } }

theorem witness_FeedQueues :
    (∃ h, Runs (queued (probeA [5]) 15) none [1] [1] [] h ∧ h.acc = true
      ∧ ∃ tm ∈ h.b.team? h.t.slot, tm.drop[column 0 h.t.lane] = 0 ∧ tm.fq[column 0 h.t.lane].length < 16)
    ∧ (∃ h, Runs (queued (probeA [5]) 16) none [1] [1] [] h ∧ h.acc = true
      ∧ ∃ tm ∈ h.b.team? h.t.slot, tm.drop[column 0 h.t.lane] = 0 ∧ 16 ≤ tm.fq[column 0 h.t.lane].length)
    ∧ (∃ h, RunsHere (queued (probe []) 1) none [3] [3] h ∧ h.b.kernel.access.isSome = true
      ∧ ∃ tm ∈ h.b.team? h.t.slot, tm.fq[column 0 h.t.lane] = [cell 7])
    ∧ ∃ h, RunsHere (probe []) none [3] [3] h ∧ h.b.kernel.access.isSome = true ∧ (∀ t ∈ h.b.access, t.halted = none)
      ∧ ∃ tm ∈ h.b.team? h.t.slot, tm.fq[column 0 h.t.lane] = [] :=
  ⟨runs_with (by decide +kernel), runs_with (by decide +kernel), here_with (by decide +kernel), here_with (by decide +kernel)⟩

/-- A poison descriptor. -/
def poison : Poison := { addr := 0x9000, size := 8, zx := false, fault := { kind := .program 1, addr := 0x9000 } }

/-- The probe's access thread with a register that holds poison. -/
def spoiled : State :=
  (probeA [5]).onBlock 0 fun b => { b with access := b.access.map fun t => { t with poison := [(1, poison)] } }

theorem witness_AccessSlice :
    (∃ h, Runs (probeA [5]) none [3, 1, 2] [3, 1, 2] [] h ∧ h.acc = true ∧ firstPoison h [1] = none
      ∧ condHolds 0 (h.t.readX 1) = false ∧ condHolds 1 (h.t.readX 1) = true
      ∧ ∃ x ∈ h.b.threads, x.slot = h.t.slot ∧ x.lane = h.t.lane ∧ x.life = .running
        ∧ ∀ y ∈ h.b.threads, y.slot = h.t.slot → y.lane = h.t.lane → y.life = .running → y.tid = x.tid)
    ∧ ∃ h, Runs spoiled none [3, 1, 2] [3, 1, 2] [] h ∧ h.acc = true ∧ firstPoison h [1] = some poison :=
  ⟨runs_with (by decide +kernel), runs_with (by decide +kernel)⟩

/-- The probe's access thread reading at an address. -/
def probing (s : State) : State :=
  { s with
    cur := some { bid := 0, tid := 0, acc := true }
    blocks := s.blocks.map fun b => { b with access := b.threads } }

/-- A good load, one from an address outside every window, one from a page that is not mapped, and one through a poisoned address. -/
theorem witness_AccessSliceLoads :
    (∃ h, Runs (probing (probe [0x3000])) none [3, 1] [3, 1] [] h ∧ h.acc = true ∧ h.b.held = [] ∧ firstPoison h [1] = none
      ∧ windowFault h.s h.b.view (h.t.readX 1).toNat 8 = none
      ∧ (match locateAll h.s h.b.view needR (addrs (h.t.readX 1).toNat 8) with
          | .inl ls => !onSO ls && (dataFault h.s ls (h.t.readX 1).toNat).isNone
          | .inr _ => false) = true)
    ∧ (∃ h, Runs (probing (probe [2 ^ 56])) none [3, 1] [3, 1] [] h
      ∧ (windowFault h.s h.b.view (h.t.readX 1).toNat 8).isSome = true)
    ∧ (∃ h, Runs (probing (probe [0x40000000])) none [0, 1] [0, 1] [] h
      ∧ windowFault h.s h.b.view (h.t.readX 1).toNat 8 = none
      ∧ (locateAll h.s h.b.view needR (addrs (h.t.readX 1).toNat 8)).isLeft = false)
    ∧ (∃ h, Runs (probing { probe [0x6000] with poison := [0x6007] }) none [3, 1] [3, 1] [] h
      ∧ (match locateAll h.s h.b.view needR (addrs (h.t.readX 1).toNat 8) with
          | .inl ls => (dataFault h.s ls (h.t.readX 1).toNat).isSome
          | .inr _ => false) = true)
    ∧ ∃ h, Runs spoiled none [3, 1] [3, 1] [] h ∧ h.acc = true ∧ h.b.held = [] ∧ firstPoison h [1] = some poison :=
  ⟨runs_with (by decide +kernel), runs_with (by decide +kernel), runs_with (by decide +kernel), runs_with (by decide +kernel),
    runs_with (by decide +kernel)⟩

/-- Operands of the four engine instructions in x12 to x15, at the edges: one row of one byte, a COPY of 0 and of 2 ^ 40 bytes,
a GATHER of 0 elements. -/
def engine (src dst n m : Word) : State := probe (List.replicate 11 0 ++ [src, dst, n, m])

theorem witness_EngineIssue :
    (∃ h, RunsHere (engine 0x3000 scratch0 0 0x100000001) none (20 :: (List.range 4).map (12 + ·)) [20] h
      ∧ (∀ j < 4, h.t.nFull (12 + j) = true) ∧ tileLimits (lo32 (h.t.readN 15)) (hi32 (h.t.readN 15)) (lo32 (h.t.readN 14))
        (hi32 (h.t.readN 14)) 0 = true
      ∧ engOk h.s h.b.view (.tileld (h.t.readN 12) (h.t.readN 13) 0 0 1 1 0) = true
      ∧ (∃ tm ∈ h.b.team? h.t.slot, tm.count 0 < 255) ∧ twinned h.b = false ∧ uncommitted h.b = false)
    ∧ (∃ h, RunsHere (engine 0x3000 0x6000 (2 ^ 40) 0) none (20 :: (List.range 3).map (12 + ·)) [20] h
      ∧ (∀ j < 3, h.t.nFull (12 + j) = true) ∧ (h.t.readN 14).toNat ≤ 2 ^ 40
      ∧ engOk h.s h.b.view (.copy (h.t.readN 12) (h.t.readN 13) (h.t.readN 14).toNat) = true)
    ∧ ∃ h, RunsHere (probeTeam (List.replicate 11 0 ++ [0x3000, 0x6000, scratch0 + 65535, 2])
          fun tm => tm.setCount 2 254) none (20 :: (List.range 4).map (12 + ·)) [20] h
      ∧ (h.t.readN 12).toNat % 4 = 0 ∧ (h.t.readN 15).toNat ≤ 16777216 ∧ (∃ tm ∈ h.b.team? h.t.slot, tm.count 2 < 255)
      ∧ engOk h.s h.b.view (.gather (h.t.readN 12) (h.t.readN 13) (h.t.readN 14) 2 1) = false :=
  ⟨here_with (by decide +kernel), here_with (by decide +kernel), here_with (by decide +kernel)⟩

/-- A fabric group of two devices in entry 0 of a table at 0x22000, and a PUT of 8 bytes to the other one at 0x23000. -/
def fabric (s : State) : State :=
  { s.setPart 0 { s.part 0 with fgtBase := 0x22000, fgtN := 1 } with
    mem := cellsWrite (cellsWrite (cellsWrite (cellsWrite s.mem 0x22000 2 2) 0x23006 2 0xFF01) 0x23010 8 0x6000) 0x23020 8 8 }

theorem witness_CollectiveIssue :
    ∃ h, RunsHere (fabric (probe [0x23000])) none [3, 1] [3, 1] h ∧ (∃ tm ∈ h.b.team? h.t.slot, tm.count 3 < 255)
      ∧ twinned h.b = false ∧ uncommitted h.b = false ∧ (h.t.readX 1).toNat % 64 = 0
      ∧ windowFault h.s h.b.view (h.t.readX 1).toNat 64 = none
      ∧ (match loadBytes h.s h.b.view (h.t.readX 1).toNat 64 with
          | .inl (d, _) => (fabricGroup h.s h.b.part (parseColl d).group).any fun g => collOk (parseColl d) g
          | .inr _ => false) = true :=
  here_with (by decide +kernel)

theorem witness_WaitForCounter :
    (∃ h, RunsHere (probeTeam [] fun tm => tm.setCount 1 200) none [] [] h
      ∧ ∃ tm ∈ h.b.team? h.t.slot, tm.count (1 : BitVec 2).toNat ≤ (72 : Reg).toNat + 128)
    ∧ ∃ h, RunsHere (probeTeam [] fun tm => tm.setCount 1 201) none [] [] h
      ∧ ∃ tm ∈ h.b.team? h.t.slot, (72 : Reg).toNat + 128 < tm.count (1 : BitVec 2).toNat :=
  ⟨here_with (by decide +kernel), here_with (by decide +kernel)⟩

/-- An engine operation of the probe's team whose result is known. -/
def signalling : EngOp :=
  { id := 7, bid := 0, ctx := 0, slot := 0, tid := 0, cls := 0, kind := .copy 0x3000 0x6000 8, tok := some 20, binding := .go,
    progress := 0, after := true, result := some 8, orphan := false, due := 0, xlat := [], desc := { noDesc with operands := [] } }

/-- The probe with one engine operation, which is as given. -/
def operating (o : EngOp) : State := { probe [] with ops := [o] }

/-- Its turn has come. -/
def turn (o : EngOp) : Bool :=
  (operating o).ops.find? (fun x => x.id == o.id) == some o
    && ((operating o).block? o.bid).any fun b => opReady (operating o) b o && !twinned b

/-- A result that is known, a discarded operation, a transfer that ends, and matrix work that is performed. -/
theorem witness_EngineSignals :
    let copy : EngOp := { signalling with result := none }
    let zero : EngOp := { copy with cls := 1, kind := .aload 0 false 0x3000 64 }
    turn signalling = true ∧ turn { copy with binding := .discard } = true
    ∧ (turn copy = true ∧ copy.isMatrix = false ∧ ∃ b ∈ (operating copy).block? 0,
      (match transfer (operating copy) b.view copy.kind copy.progress false with
        | (_, .ended _) => true
        | _ => false) = true)
    ∧ (turn zero = true ∧ zero.isMatrix = true ∧ ∃ b ∈ (operating zero).block? 0,
      (match performMatrix (operating zero) b zero with
        | (_, .done) => true
        | _ => false) = true)
    ∧ ∃ b ∈ (operating signalling).block? 0, (∃ t ∈ b.threads, t.tid = signalling.tid)
      ∧ ∃ tm ∈ b.teams, tm.slot ∈ opSlots signalling := by
  decide +kernel

theorem witness_ProducerDelivers :
    let s : State := { probe [] with prods := [{ flying with y := some 255 }] }
    s.prods.find? (fun x => x.id == 9 && x.ready) = some { flying with y := some 255 }
    ∧ ∃ b ∈ s.block? 0, (b.thread? false 0).isSome = true := by
  decide +kernel

/-! ## The matrix unit -/

/-- Handle 0 mapped and committed. -/
def mapped (b : Block) : Block := b.setHandle 0 { map := 0, unc := false, skp := false, tile := List.replicate 128 0 }

theorem witness_HandleManagement :
    (∃ h, RunsHere (probe [5]) none [1] [1] h ∧ h.b.kind = .mCore ∧ h.b.rounds.any (fun r => r.cv == 15) = false
      ∧ (h.b.handle 63).map = 2 ∧ tilesUsed h.b < h.b.kernel.acc)
    ∧ (∃ h, RunsHere (probeB [5] mapped) none [0] [0] h ∧ h.b.kind = .mCore ∧ (h.b.handle 0).map ≠ 2
      ∧ pendingOn h.s h.b.bid 0 = [] ∧ ∀ w ∈ h.b.shadows, w.handle ≠ 0)
    ∧ ∃ h, RunsHere (probeB [5] fun b => { mapped b with kernel := { b.kernel with acc := 1 } }) none [1] [1] h
      ∧ h.b.kind = .mCore ∧ (h.b.handle 1).map = 2 ∧ h.b.kernel.acc ≤ tilesUsed h.b :=
  ⟨here_with (by decide +kernel), here_with (by decide +kernel), here_with (by decide +kernel)⟩

theorem witness_UncountedMatrixWork :
    (∃ h, RunsHere (probeB [] mapped) none [] [] h ∧ h.b.kind = .mCore ∧ (h.b.handle 0).map ≠ 2)
    ∧ (∃ h, RunsHere (probe [0x6000, scratch0]) none [1, 1 + 1] [1] h ∧ h.t.nFull (1 + 1) = true
      ∧ (h.t.readX 1).toNat % 4 = 0 ∧ (h.t.readN (1 + 1)).toNat % 4 = 0
      ∧ windowFault h.s h.b.view (h.t.readX 1).toNat 64 = none ∧ windowFault h.s h.b.view (h.t.readN (1 + 1)).toNat 64 = none)
    ∧ ∃ h, RunsHere (probe [0x100]) none [0, 1] [1, 0] h ∧ (h.t.readX 1).getLsbD 8 = true :=
  ⟨here_with (by decide +kernel), here_with (by decide +kernel), here_with (by decide +kernel)⟩

/-- Uncounted work on a mapped handle that is alone and may be performed, and that stands behind older counted work. -/
theorem witness_MatrixDrains :
    let o : EngOp := { signalling with cls := 4, kind := .azero 0, tok := none, result := none }
    let s : State := { probeB [] mapped with ops := [o] }
    let u : State := { probeB [] mapped with ops := [{ o with id := 6, cls := 1, kind := .aload 0 false 0x3000 64 }, o] }
    (s.ops.filter fun x => x.bid == o.bid && x.cls == 4) = [o] ∧ (u.ops.filter fun x => x.bid == o.bid && x.cls == 4) = [o]
    ∧ o.binding = .go ∧ o.void = false
    ∧ (∃ b ∈ s.block? 0, (b.handle 0).map ≠ 2 ∧ mayPerform s b o = true ∧ (match performMatrix s b o with
        | (_, .done) => true
        | _ => false) = true)
    ∧ ∃ b ∈ u.block? 0, mayPerform u b o = false := by
  decide +kernel

/-- An FP64 MMA whose operands lie in the scratchpad, all zeros, B transposed: every element can be read, and no state changes. -/
theorem witness_MatrixProduct :
    let o : EngOp := { signalling with
      cls := 1, kind := .mma 0 0 [scratch0, 64, scratch0, 0x8000000000000040] 0 [0], tok := none, result := none }
    let s : State := { probeB [] mapped with ops := [o] }
    ∃ b ∈ s.block? 0, o.binding = .go ∧ o.void = false ∧ o.progress = 0 ∧ o.xlat = [] ∧ (b.handle 0).map = 0
      ∧ (b.handle 0).tile.length = 128
      ∧ ∀ i < 8, ∀ j < 8, loadAt s b.view (scratch0.toNat + i * 64 + j * 8) 8 = .inl (0, s) := by
  decide +kernel

theorem witness_TileMoves :
    (∃ h, RunsHere (probeTeam [0x6000, 64] fun tm => tm.setCount 1 254) none [1, 2] [1, 2] h ∧ h.b.kind = .mCore
      ∧ (∃ tm ∈ h.b.team? h.t.slot, tm.count 1 < 255) ∧ (h.t.readX 1).toNat % 8 = 0 ∧ (h.t.readX 2).toNat % 8 = 0
      ∧ 64 ≤ (h.t.readX 2).toNat ∧ (h.t.readX 2).toNat < 2 ^ 32 ∧ twinned h.b = false ∧ uncommitted h.b = false)
    ∧ ∃ h, RunsHere (probe [0x6004, 60]) none [1, 2] [1, 2] h ∧ h.b.kind = .mCore
      ∧ (∃ tm ∈ h.b.team? h.t.slot, tm.count 1 < 255) ∧ ¬64 ≤ (h.t.readX 2).toNat ∧ (h.t.readX 1).toNat % 8 ≠ 0 :=
  ⟨here_with (by decide +kernel), here_with (by decide +kernel)⟩

/-- A round on convergence register 1 in the team of slot 0, signed by thread 1. -/
def oneSigned : Round :=
  { cv := 1, slot := some 0, first := 1, pfx := none, base := mmaWord 3 1 1 3 1, acc := 3, fmt := 1, pairs := [0, 0, 0, 0], signers := [1] }

/-- A prefix that makes a sketch under guard 1. -/
def sketchPfx : Pfx := { pfx 0 7 false with sk := true, guard := 1 }

/-- The probe's only tile is held by handle 3, and guard 1 is PENDING: a sketch on handle 3 finds no tile. -/
def sketching : State :=
  probeB [] fun b => { b.setHandle 3 { map := 0, unc := false, skp := false, tile := List.replicate 128 0 } with
    kernel := { b.kernel with acc := 1 }
    conv := b.conv.set 1 .team
    teams := b.teams.map fun tm => { tm with guards := tm.guards.set 1 { state := .pending, episode := 3 } } }

theorem witness_MmaSigning :
    let team := fun (b : Block) => { mate b with conv := b.conv.set 1 .team }
    (∃ h, RunsHere (probeB [] fun b => { b with conv := b.conv.set 1 (.group 5) }) none [1, 3, 2, 4] [1, 3] h
      ∧ h.b.kind = .mCore ∧ h.t.nFull 2 = true ∧ h.t.nFull 4 = true ∧ convSet h.b h.t h.b.conv[1] = none
      ∧ h.b.conv[1] ≠ .undeclared)
    ∧ (∃ h, RunsHere (probeB [] team) none [1, 3, 2, 4] [1, 3] h ∧ h.b.kind = .mCore ∧ h.t.nFull 2 = true ∧ h.t.nFull 4 = true
      ∧ convSet h.b h.t h.b.conv[1] = some (some 0, [0, 1]) ∧ h.b.rounds.find? (fun r => r.cv == 1 && r.slot == some 0) = none
      ∧ sketchOver h.s h.b oneSigned = false)
    ∧ (∃ h, RunsHere (probeB [] fun b => { team b with rounds := [oneSigned] }) none [1, 3, 2, 4] [1, 3] h
      ∧ h.b.rounds.find? (fun r => r.cv == 1 && r.slot == some 0) = some oneSigned ∧ h.t.tid ∉ oneSigned.signers
      ∧ oneSigned.base = mmaWord 3 1 1 3 1 ∧ oneSigned.pfx = none
      ∧ sketchOver h.s h.b { oneSigned with signers := oneSigned.signers ++ [h.t.tid] } = false)
    ∧ (∃ h, RunsHere sketching (some sketchPfx) [1, 3, 2, 4] [1, 3] h
      ∧ convSet h.b h.t h.b.conv[1] = some (some 0, [0]) ∧ h.b.rounds.find? (fun r => r.cv == 1 && r.slot == some 0) = none
      ∧ sketchOver h.s h.b { oneSigned with pfx := some sketchPfx, first := 0, signers := [0] } = true)
    ∧ (∃ h, RunsHere (probe []) none [1, 3, 2, 4] [1, 3] h ∧ h.b.kind = .mCore ∧ h.b.conv[1] = .undeclared)
    ∧ oneSigned.base ≠ mmaWord 3 1 1 3 2 :=
  ⟨here_with (by decide +kernel), here_with (by decide +kernel), here_with (by decide +kernel), here_with (by decide +kernel), here_with (by decide +kernel), by decide +kernel⟩

/-- The team of one thread, all signed, for an f64 MMA. -/
def allSigned : Round :=
  { cv := 1, slot := some 0, first := 0, pfx := none, base := mmaWord 3 1 1 3 0, acc := 3, fmt := 0,
    pairs := [scratch0, 64, scratch0, 64], signers := [0] }

theorem witness_RoundIssues :
    let s := probeB [] fun b => { b with rounds := [allSigned], conv := b.conv.set 1 .team }
    ∃ b ∈ s.block? 0, b.bid = 0 ∧ (b.rounds.find? fun x => x.cv == 1 && x.slot == some 0) = some allSigned
      ∧ (∀ m ∈ roundMembers b allSigned, m ∈ allSigned.signers) ∧ sketchOver s b allSigned = false
      ∧ mmaCheck s b allSigned = none ∧ ∀ tm ∈ b.teams, tm.count 1 < 255 := by
  decide +kernel

/-- The commit barrier of the probe's block with one thread to come, whose label operand is known. -/
theorem witness_LastArrivalCommits :
    let s := probeB [] fun b => { b with bars := freshBar 1 .commit :: b.bars.filter (fun x => x.id != .commit), commitVals := [(0, 0x4103)] }
    ∃ b ∈ s.block? 0, b.bid = 0 ∧ (b.bars.find? fun y => y.id == .commit) = some (freshBar 1 .commit)
      ∧ (freshBar 1 .commit).expected ≤ (freshBar 1 .commit).arrived + 1 ∧ matrixBusy s 0 = false ∧ twinned b = false
      ∧ ∀ t ∈ b.threads, ∃ v ∈ b.commitVals, v.1 = t.tid := by
  decide +kernel

theorem witness_CommitBarrier :
    (∃ h, RunsHere (probe [0x4103]) none [1] [1] h ∧ h.b.kind = .mCore ∧ h.t.inHandler = false ∧ h.t.barsWait = false
      ∧ liveFull h.t h.b.kernel.restartFirst h.b.kernel.restartCount = true)
    ∧ (∃ h, RunsHere (probeT [] fun t => { t with inHandler := true }) none [1] [1] h ∧ h.b.kind = .mCore
      ∧ h.t.inHandler = true)
    ∧ let vs : List (Nat × Word) := [(4, 8), (2, 0x103), (3, 0)]
      (2, 0x103) ∈ vs ∧ (∀ w ∈ vs, w.1 = 2 → w = (2, 0x103)) ∧ ∀ w ∈ vs, 2 ≤ w.1 :=
  ⟨here_with (by decide +kernel), here_with (by decide +kernel), by decide +kernel⟩

theorem witness_Guards :
    (∃ h, RunsHere (probe [0]) none [1] [1] h ∧ ∃ tm ∈ h.b.team? h.t.slot, tm.guards[15].state ≠ .pending)
    ∧ ∃ h, RunsHere (probeTeam [1] fun tm => { tm with guards := tm.guards.set 15 { state := .pending, episode := 3 } })
        none [1] [1] h ∧ ∃ tm ∈ h.b.team? h.t.slot, tm.guards[15].state = .pending :=
  ⟨here_with (by decide +kernel), here_with (by decide +kernel)⟩

/-! ## Barriers, tasks -/

theorem witness_BarrierInstructions :
    (∃ h, RunsHere (probe []) none [] [] h ∧ twinned h.b = false ∧ barLegal (.block 63) h = true
      ∧ barLegal (.cluster 15) h = true ∧ barLegal (.grid 7) h = true ∧ BarId.block 63 ∉ h.t.outst
      ∧ uncommitted h.b = false ∧ h.t.barsWait = false)
    ∧ (∃ h, RunsHere (probeT [] fun t => { t with outst := [.block 0, .cluster 0, .grid 0] }) none [] [] h
      ∧ BarId.block 0 ∈ h.t.outst ∧ BarId.cluster 0 ∈ h.t.outst ∧ BarId.grid 0 ∈ h.t.outst)
    ∧ (∃ h, RunsHere (probeB [] region) none [] [] h ∧ uncommitted h.b = true ∧ BarId.cluster 15 ∉ h.t.outst)
    ∧ (∃ h, RunsHere (probeT [] fun t => { t with barsWait := true }) none [] [] h ∧ h.t.barsWait = true
      ∧ BarId.block 0 ∉ h.t.outst)
    ∧ ∃ h, RunsHere (probeB [] fun b => { b with
          coresident := false, kernel := { b.kernel with blockBars := 0, clusterBars := 0 } }) none [] [] h
      ∧ barLegal (.block 0) h = false ∧ barLegal (.cluster 0) h = false ∧ barLegal (.grid 0) h = false :=
  ⟨here_with (by decide +kernel), here_with (by decide +kernel), here_with (by decide +kernel), here_with (by decide +kernel), here_with (by decide +kernel)⟩

/-- Barrier 0 expecting one thread, and two: the arrival is the last, and is not. -/
theorem witness_BarrierPhase :
    (∃ b ∈ (probe []).block? 0, b.bid = 0 ∧ b.threads ≠ [] ∧ (b.bars.map (·.id)).Nodup ∧ twinned b = false
      ∧ ∃ x ∈ b.bars, x.id = .block 0 ∧ x.expected ≤ x.arrived + 1)
    ∧ ∃ b ∈ (probeB [] fun b => { b with bars := [freshBar 2 (.block 0)] }).block? 0, b.bid = 0 ∧ b.threads ≠ []
      ∧ (b.bars.map (·.id)).Nodup ∧ twinned b = false ∧ ∃ x ∈ b.bars, x.id = .block 0 ∧ x.arrived + 1 < x.expected := by
  decide +kernel

/-- A node descriptor at 0x24000 that names the kernel of withKernel, for an S-core, without operands. -/
def taskState (low : List Host.Cell) : State :=
  { withKernel (probe [0x24000]) with mem := kernelMem ++ low ++ [(0x24002, 0x02), (0x2401C, 0x01)] }

theorem witness_TaskLaunch :
    let meets := fun (h : Here) (d : List Byte × State → Bool) =>
      twinned h.b = false ∧ uncommitted h.b = false ∧ (∃ c ∈ h.s.ctx? h.b.ctx, poolUsed h.s h.b.ctx < c.lcap)
      ∧ (h.t.readX 1).toNat % 64 = 0 ∧ windowFault h.s h.b.view (h.t.readX 1).toNat 64 = none
      ∧ (match loadBytes h.s h.b.view (h.t.readX 1).toNat 64 with
          | .inl x => !kernelPoisoned x.2 h.b.ctx (field x.1 0 8) && d x
          | .inr _ => false) = true
    (∃ h, RunsHere (taskState []) none [3, 1] [1, 3] h ∧ meets h fun x => nodeOk x.2 0 0 x.1)
    ∧ ∃ h, RunsHere (taskState [(0x24000, 0x40)]) none [3, 1] [1, 3] h ∧ meets h fun x => !nodeOk x.2 0 0 x.1 :=
  ⟨here_with (by decide +kernel), here_with (by decide +kernel)⟩

/-- Ranges that end a share, start inside a tile, and start a tile that three shares lie in, one of them empty. -/
theorem witness_NextRange :
    (∃ h, RunsHere (probe []) none [126, 126 + 1] [126] h ∧ h.t.nFull (126 + 1) = true ∧ h.b.distT = 0)
    ∧ (∃ h, RunsHere (probeB [] fun b => { b with distT := 10, distG := 4 }) none [1, 1 + 1] [1] h
      ∧ h.t.nFull (1 + 1) = true ∧ h.b.distT ≠ 0)
    ∧ (0 < 4 ∧ 4 < 2 ^ 32 ∧ 2 < 3 ∧ (2 + 1) * 10 / 3 ≤ 10 ∧ 9 < (2 + 1) * 10 / 3)
    ∧ (let hi := fun (blk : Nat) => (blk + 1) * 2 / 3
      0 < hi 1 ∧ 0 % 4 = 0 ∧ hi 1 < min 2 ((0 / 4 + 1) * 4) ∧ 0 * 2 / 3 = 1 * 2 / 3) :=
  ⟨here_with (by decide +kernel), here_with (by decide +kernel), by decide +kernel, by decide +kernel⟩

/-! ## Steps and frames -/

theorem witness_StepRunsDecodedInstruction :
    let s := State.reset.withFetchWord 32 0x10300005
    let c : Cur := { bid := 0, tid := 0, acc := false }
    s.powered = true ∧ s.halt = false ∧ 7 ≤ s.stage ∧ s.inbox = [] ∧ s.todo = [c] ∧ dueProds s = []
    ∧ ∃ b ∈ s.block? 0, b.issuesIn false = true ∧ ∃ t ∈ b.thread? false 0, t.running = true ∧ t.wait = .ready
      ∧ (match fetchWord { s with todo := [], cur := some c } b t false t.pc t.pc with
          | .word w1 _ => decide (w1.toNat / 2 ^ 27 ≠ 0x1B) && decide (w1 = 0x10300005)
          | .stop _ => false) = true := by
  decide +kernel

theorem witness_StepRunsPair :
    let s := State.reset.withFetchWord 64 0x00308201D8E00800
    let c : Cur := { bid := 0, tid := 0, acc := false }
    ∃ b ∈ s.block? 0, ∃ t ∈ b.thread? false 0,
      (match fetchWord { s with todo := [], cur := some c } b t false t.pc t.pc with
        | .word w1 s1 => decide (w1.toNat / 2 ^ 27 = 0x1B) && (match fetchWord s1 b t false t.pc (t.pc + 4) with
          | .word w2 _ => decide (w2 = 0x00308201)
          | .stop _ => false)
        | .stop _ => false) = true := by
  decide +kernel

theorem witness_StepOrderAndPicker :
    let s : State := { State.reset.withFetchWord 32 0 with todo := [] }
    s.powered = true ∧ s.halt = false ∧ 7 ≤ s.stage ∧ s.inbox = [] ∧ firstDue s dueSources = none ∧ readyThreads s ≠ []
    ∧ { State.reset.withFetchWord 32 0 with prods := [flying], cycle := 5 }.todo ≠ []
    ∧ dueProds { State.reset.withFetchWord 32 0 with prods := [flying], cycle := 5 } = [.longLatencyComplete 9]
    ∧ readyThreads State.reset = [] ∧ { s with inbox := [.ptpLatch] }.inbox = [.ptpLatch] := by
  decide +kernel

theorem witness_PlacedWordRuns : 64 ≤ 64 ∧ (decodeTableWord 64 0x00308201D8E00800).isSome = true := by
  decide +kernel

theorem witness_NoStepStops : InputsOnly { probe [] with inbox := [.ptpLatch, .bringUp] } := by
  intro e he
  simp at he
  rcases he with rfl | rfl <;> rfl

theorem witness_StepKeepsCanonicalMemory :
    let s := State.reset.withFetchWord 32 0x10300005
    Memory.wf s.mem = true ∧ Memory.wf s.atelier = true ∧ s.mem ≠ [] ∧ (match step s with
      | .next _ => true
      | _ => false) = true := by
  decide +kernel

theorem witness_DecodeOfEncode :
    (Instr.add none 127 0 127 true true).wf = true ∧ (Instr.add none 127 0 127 true true).isEvent = false
    ∧ (Instr.add off 127 0 127 true true).wf = true ∧ (Instr.add off 127 0 127 true true).pfx ≠ none := by
  decide +kernel

theorem witness_EncodeOfDecode :
    decodeTableWord 32 0x10300005 = some (.addi none 3 0 false 5)
    ∧ (decodeTableWord 64 0x00308201D8E00800).isSome = true := by
  decide +kernel

theorem witness_RegisterOnlyFrame :
    (∃ h, Runs (probe [5, 6]) none [3, 1, 2] ([1, 2] ++ waitsFor none h 3) [true, true] h ∧ h.acc = false)
    ∧ (∃ h, Runs (probe [5]) none [0, 1] (1 :: waitsFor none h 0) [true] h ∧ h.acc = false)
    ∧ (∃ h, RunsHere (probe [5, 6]) off [3, 1, 2] [1, 2, 3] h ∧ active off h.t = false)
    ∧ (match exec (.add none 3 1 2 true true) (probe [5, 6]) with
        | .next _ => true
        | _ => false) = true :=
  ⟨runs_with (by decide +kernel), runs_with (by decide +kernel), here_with (by decide +kernel), by decide +kernel⟩

end Sys2Proof.Tests
end

