-- ==== Sys2Proof/Tests/Witness2.lean ====
section
/-! SUPPORT. Witnesses for the statements about events of blocks, arrays, faults and assists: small states that meet their
hypotheses, clause by clause. -/

namespace Sys2Proof.Tests

open Sys2Proof.Machine

set_option maxRecDepth 100000
set_option Elab.async false

/-! ## Blocks and arrays -/

/-- The probe after 512 cycles, its thread parked in the spawn area for slot 1, whose team is idle. -/
def pending : State :=
  { probeB [] fun b => { b with
      teams := b.teams ++ b.teams.map fun tm => { tm with slot := 1, held := false }
      spawn := [{ target := 0x7000, tid := 0, first := 10, count := 2, slot := 1, regs := [5, 6], parked := 0 }]
      threads := b.threads.map fun t => { t with life := .parked } } with cycle := 512 }

theorem witness_TeamFormation :
    ∃ b ∈ pending.block? 0, slotFree b 1 = true ∧ entriesFor b 1 ≠ []
      ∧ (∀ t ∈ b.threads, t.running = true → formWait t.wait = true) ∧ (∃ e ∈ entriesFor b 1, e.parked + 512 ≤ b.clk pending)
      ∧ ((entriesFor b 1).map (·.tid)).Nodup
      ∧ ∃ e ∈ entriesFor b 1, ∃ t ∈ b.threads, t.tid = e.tid ∧ t.wb + e.first ≤ 10 ∧ 10 < t.wb + e.first + e.count := by
  decide +kernel

/-- A RECONV x3, x0, x2 in flight since cycle 0 with a limit of 7 cycles, at cycle 7. -/
def late : State :=
  { probeT [5, 7] (fun t => { t with wait := .reconv, reconv := some { issued := 0, key := none, rd := 3, limit := 7 } }) with
    cycle := 7 }

theorem witness_ReconvLimit :
    ∃ b ∈ late.block? 0, ∃ t ∈ b.thread? false 0, t.running = true
      ∧ ∃ r ∈ t.reconv, r.issued + r.limit ≤ b.clk late := by
  decide +kernel

/-- Line n of context 0 on core 2 of die 1. -/
def codeLine (n : Nat) : ICLine := { die := 1, core := 2, ctx := 0, line := n }

/-- A fill of line 128 while lines 0, 256, 384 and 512 fill its set and line 1 stands in another. -/
def filling : State := { State.reset with fills := [{ line := codeLine 128, due := 0 }], icache := [0, 256, 1, 384, 512].map codeLine }

theorem witness_LineFill :
    (∃ f ∈ filling.fills, f.line = codeLine 128) ∧ filling.icache.Nodup
    ∧ (filling.icache.filter fun x => x.line % 128 == 0).length = 4 := by
  decide

/-- An image of the probe's block. -/
def image (complete : Bool) (b : Block) : Pentimento :=
  { bid := 0, complete := complete, irrev := false, image := b, ops := [], prods := [] }

def imaged : State :=
  let s := probe []
  { s with pents := s.blocks.map (image true) ++ s.blocks.map (image false) }

theorem witness_ImageComplete : ((imaged.pents.filter fun x => x.bid == 0).getLast?.map (·.complete)) = some false := by
  decide +kernel

/-- A block without threads, teams, barriers, scratchpad and tiles. -/
def bare (b : Block) : Block :=
  { b with
    threads := [], teams := [], bars := []
    kernel := { b.kernel with
      regs := 1, s := 0, scratch := 0, spawnEntries := 0, acc := 0, blockBars := 0, clusterBars := 0, gridBars := 0 }
    handles := Vector.replicate 64 { map := 2, unc := false, skp := false, tile := [] } }

/-- The probe with its block bare, in a state of its own; alone, the block is its unit. -/
def inState (st : BlockState) (f : Block → Block) : State := probeB [] fun b => f { bare b with state := st }

/-- A block stands alone in its state: its unit is itself. -/
def alone (st : BlockState) (f : Block → Block) (P : State → Block → Bool) : Bool :=
  let s := inState st f
  (s.block? 0).any fun b => b.bid == 0 && decide (unitOf s b = [b]) && decide (b.state = st) && P s b

/-- A suspended block with its image in a cluster of two, whose other block runs. -/
def halfImaged : State :=
  let s := inState (.suspended true (some 0x9000)) fun b => { b with csize := 2 }
  { s with blocks := s.blocks ++ s.blocks.map fun b => { b with bid := 1, crank := 1, state := .running } }

theorem witness_CaptureBegins :
    alone .running id (fun _ b => imageOf b == none && !uncommitted b) = true
    ∧ alone (.asked true 0x9000) region (fun _ b => imageOf b == none && uncommitted b) = true
    ∧ alone (.suspended true (some 0x9000)) id (fun s b => imageOf b == some 0x9000 && (unitOf s b).all fun x =>
      imageOf x == some 0x9000) = true
    ∧ alone (.suspended true none) id (fun _ b => imageOf b == none) = true
    ∧ alone (.window 0 0x9000) region (fun _ b => uncommitted b) = true
    ∧ (∃ b ∈ halfImaged.block? 0, imageOf b = some 0x9000 ∧ ∃ x ∈ unitOf halfImaged b, imageOf x ≠ some 0x9000)
    ∧ (∃ b ∈ (inState .running id).block? 0, ∃ x ∈ (haltBlock (inState .running id) b.bid 0x9000 false false).block? b.bid,
      x.state = .writing 0x9000 false) := by
  decide +kernel

/-- A bare block without a team, stopped, its canvas wanted at 0x101000; the context's CANVAS area lies at 0x100000. -/
def captured : State :=
  let s := inState (.writing 0x101000 false) fun b => { b with kernel := { b.kernel with n := 0 } }
  { s with ctxs := s.ctxs.map fun c => { c with canvasBase := 0x100000, canvasSize := 0x10000 } }

/-- A canvas at 0x101000 that waits to be restored. -/
def toRestore : Captured := { id := 9, part := 0, ctx := 0, addr := 0x101000, blocks := [] }

/-- The context is being suspended. -/
def suspended (s : State) : State := s.setPart 0 { s.part 0 with ccmdBusy := true, ccmdOp := 2, ccmdCtx := 0 }

/-- A canvas written, one that does not fit, one of a context being suspended, and one at an address that cannot be read or that
holds no canvas. The smallest canvas that can be restored is 33,600 bytes, too long for the kernel to read here. -/
theorem witness_CanvasWrittenAndRestored :
    (∃ b ∈ captured.block? 0, b.bid = 0 ∧ unitOf captured b = [b] ∧ suspending captured b.ctx = false
      ∧ stopped captured b = true ∧ b.state ≠ .ended
      ∧ (canvasSpot captured b.ctx (encCanvas captured 1 b.ctx (recorded [b]) false).length (wishOf b)).isSome = true
      ∧ ∃ c ∈ (suspended captured).ctx? b.ctx, suspending (suspended captured) b.ctx = true)
    ∧ (∃ b ∈ (inState (.writing 0 false) id).block? 0,
      canvasSpot (inState (.writing 0 false) id) b.ctx 4096 (wishOf b) = none)
    ∧ ({ captured with captured := [toRestore] }.captured.filter fun x => x.part == 0 && x.ctx == 0 && x.addr == 0x101000)
      = [toRestore]
    ∧ toRestore.blocks.any (·.fresh) = false
    ∧ (match canvasAt captured (ctxView 0 0) 0x40001000 with
        | .inr _ => true
        | .inl _ => false) = true
    ∧ (match canvasAt captured (ctxView 0 0) 0x9000 with
        | .inr _ => false
        | .inl bs => (restoreErr captured 0 0 bs).isSome) = true := by
  decide +kernel

/-- A block's twin. -/
def twinOf (b : Block) : Block := { b with bid := 3, twin := some 0, primary := false }

/-- Twins at a compare point with one held store each to address a, of values v and w, and a page at 0x40001000 that is not present. -/
def twins (a v w : Word) (m : Bool) (n : Nat) : State :=
  let store := fun (x : Word) => ({ tid := 0, addr := a, size := 8, val := x } : HeldStore)
  let s := probeB [] fun b => { bare b with
    twin := some 3, mismatched := if m then [comparePoint (bare b) 0] else [], cmpAt := [(0, [(0, n)])], held := [store v] }
  { s with
    mem := cellsPut (cellsPut (cellsPut s.mem 0x3008 [1, 0, 5]) 0x50000 [1, 0x10, 5]) 0x51008 [6]
    blocks := s.blocks ++ s.blocks.map fun b => { twinOf b with held := [store w] } }

/-- Equal stores, not counted and counted, and to a page that is not present yet; different ones, for the first and for the
second time. -/
theorem witness_TwinsCompare :
    let meets := fun (s : State) (f : State → Block → Block → List (Nat × Nat) → Bool) =>
      ∃ p ∈ s.block? 0, ∃ q ∈ s.block? 3, p.bid = 0 ∧ p.twin = some 3 ∧ ∃ c ∈ comparable p q, c.1 = 0 ∧ f s p q c.2 = true
    (meets (twins 0x9000 1 1 false 0) fun _ p q cs => blockSig p cs == blockSig q cs && covered p.held cs == [])
    ∧ (meets (twins 0x9000 1 1 false 1) fun s p q cs => blockSig p cs == blockSig q cs && covered p.held cs != []
      && (heldWait s p (covered p.held cs)).isNone)
    ∧ (meets (twins 0x40001000 1 1 false 1) fun s p q cs => blockSig p cs == blockSig q cs
      && (heldWait s p (covered p.held cs)).isSome)
    ∧ (meets (twins 0x9000 1 2 false 1) fun _ p q cs => blockSig p cs != blockSig q cs && !p.mismatched.contains (comparePoint p 0))
    ∧ meets (twins 0x9000 1 2 true 1) fun _ p q cs => blockSig p cs != blockSig q cs && p.mismatched.contains (comparePoint p 0) := by
  decide +kernel

/-- The last bank of the registers of die 7's last core. -/
def lastBank : Drain := { arr := .regs, die := 7, core := 95, bank := 24 }

/-- The reset state with functions split to the host. -/
def splitTo (fns : BitVec 7) : State := State.reset.setPart 0 { State.reset.part 0 with dsplit := fns }

/-- The same after a request about a bank has been posted. -/
def asked (p fn ref : Nat) : State := (postAssist (splitTo 8) p fn 0 ref []).1

theorem witness_BankRetirement :
    let s := State.reset
    let s1 : State := { s with drains := [], repairs := [] }
    let s2 := setCoreStat s1 ((coreStat s 7 95).lose 24 .regs)
    let s3 := s2.setPart 0 ((s.part 0).countBank .regs)
    lastBank.exists' = true ∧ retiredBank s lastBank = false ∧ s.drains.contains lastBank = false ∧ partOfDie s 7 = some 0
    ∧ repairDuty s 7 (repairRef lastBank) = false
    ∧ (hostAssisted (splitTo 8) 0 3 = true ∧ askedHost (splitTo 8) 0 3 (repairRef lastBank) = false)
    ∧ askedHost (asked 0 3 (repairRef lastBank)) 0 3 (repairRef lastBank) = true
    ∧ { s with drains := [lastBank] }.drains.contains lastBank = true
    ∧ tooFull s3 7 95 = false := by
  decide +kernel

theorem witness_ErrorsCaught :
    newlyPoisoned [hostStart - 2] (hostStart - 2) 2 = [hostStart - 1]
    ∧ ({ State.reset with atlSlices := [(7, 1023)] }.atlSlices.contains ((8 * 2 ^ 26 - 1) / 65536 / 1024,
      (8 * 2 ^ 26 - 1) / 65536 % 1024) = true)
    ∧ (∃ b ∈ (probe []).block? 0, b.bid = 0 ∧ privateArray .acc = true ∧ b.state ≠ .ended ∧ resident b = true)
    ∧ siteBank (probe []) (.memory 0 1 .far) = none ∧ (siteBank (probe []) (.block 0 .acc 15)).isSome = true := by
  decide

/-- The context of 0 with a page that the fault is met at, and a mark of the scrubber there. -/
def scrubbed : State := { probe [] with marks := [{ atelier := false, addr := 0x6007, bank := .near 7 63 }], poison := [0x6007] }

theorem witness_RepairsAsked :
    (bankDrain (.slice 7 1023)).any (fun d => d.exists' && !retiredBank (probe []) d && !(probe []).drains.contains d) = true
    ∧ { atelier := false, addr := 0x6007, bank := .near 7 63 : Mark }
      ∈ consumed scrubbed (ctxView 0 0) { kind := .program codeData, addr := 0x6000 } := by
  decide +kernel

theorem witness_CoreGoesDark :
    7 < Config.dies ∧ partOfDie (probe []) 7 = some 0 ∧ lostCore (probe []) 7 95 = false ∧ lostCore (probe []) 0 0 = false
    ∧ (∃ b ∈ (probe []).blocks, b.die = 0 ∧ b.core = 0 ∧ resident b = true ∧ b.state ≠ .ended)
    ∧ lostCore (setCoreStat (probe []) { coreStat (probe []) 0 0 with lost := true }) 0 0 = true := by
  decide +kernel

/-- The reset state with a migration of die 7 in hand that has come to a watermark. -/
def migrating (wm : Nat) : State :=
  State.reset.setPart 0 { State.reset.part 0 with mig := true, migDie := 7, migWm := wm }

theorem witness_DramShrinks :
    (7 < Config.dies ∧ 63 < 64 ∧ State.reset.deadDram.contains (7, 63) = false ∧ partOfDie State.reset 7 = some 0
      ∧ (State.reset.part 0).mig = false ∧ hostDuty State.reset 0 3 (dramRef 7 63) = false
      ∧ (8 * Config.nearBytes - unbacked State.reset 7 - 805306368 < 8 * Config.nearBytes - unbacked State.reset 7))
    ∧ (hostAssisted (splitTo 8) 0 3 = true ∧ askedHost (splitTo 8) 0 3 (dramRef 7 63) = false)
    ∧ (((migrating 0).part 0).mig = true ∧ ((migrating 0).part 0).migDie = 7 ∧ partOfDie (migrating 0) 7 = some 0
      ∧ 0 + 1 < regionsOf (migrating 0) 7)
    ∧ (((migrating 786431).part 0).mig = true ∧ regionsOf (migrating 786431) 7 ≤ 786431 + 1) := by
  decide +kernel

/-! ## Faults and assists -/

/-- Leaf entries that are not present, of each source, and of SRC 3 with an argument and with ORD 3. -/
theorem witness_NonPresentEntry :
    ([0, 2, 4, 6, 8, 14] : List Word).map (fun e => e.toNat / 2 % 8) = [0, 1, 2, 3, 4, 7]
    ∧ ((6 : Word).toNat / 2 ^ 9 = 0 ∧ (6 : Word).toNat / 2 ^ 7 % 4 ≠ 3)
    ∧ (0x206 : Word).toNat / 2 ^ 9 ≠ 0 ∧ (0x186 : Word).toNat / 2 ^ 7 % 4 = 3 := by
  decide

/-- A translation fault of the probe's block at 0x40001000, at a leaf entry of the given source, or the host's. -/
def faultReq (src : Word) (host : Bool) : FaultReq :=
  { id := 5, part := 0, ctx := 0, va := 0x40001000, access := 1, level := 1, entry := src <<< 1, asker := .block 0,
    served := false, refused := false, host := host, posted := false, raised := 0 }

/-- The tables lead to that entry. -/
def faulted (src : Byte) (host : Bool) : State :=
  let s := probe []
  { s with
    mem := cellsPut (cellsPut (cellsPut s.mem 0x3008 [1, 0, 5]) 0x50000 [1, 0x10, 5]) 0x51008 [2 * src]
    faults := [faultReq (src.zeroExtend 64) host] }

theorem witness_FaultService :
    let found := fun (s : State) (f : FaultReq → Bool) =>
      ((s.faults.find? fun x => x.id == 5 && !x.served && !x.refused).any f) = true
    found (faulted 0 true) (fun f => f.host && !f.posted)
    ∧ found (faulted 3 false) (fun f => !f.host && f.level == 1 && f.entry.toNat / 2 % 8 == 3 && f.entry.toNat / 2 ^ 9 == 0
      && f.entry.toNat / 2 ^ 7 % 4 != 3 && stillMissing (faulted 3 false) f)
    ∧ found (faulted 2 false) (fun f => f.entry.toNat / 2 % 8 == 2 && stillMissing (faulted 2 false) f)
    ∧ found (faulted 1 false) (fun f => f.entry.toNat / 2 % 8 == 1 && stillMissing (faulted 1 false) f)
    ∧ found { faulted 3 false with mem := (probe []).mem } (fun f => !stillMissing { faulted 3 false with mem := (probe []).mem } f) := by
  decide +kernel

/-- A ring with room and no open request, and a full one. -/
theorem witness_RequestRaised :
    let full := State.reset.setPart 0 { State.reset.part 0 with asReqHead := 4096 };
    ((State.reset.part 0).asReqHead - (State.reset.part 0).asReqTail).toNat ≠ 4096 ∧ (State.reset.part 0).assists = []
    ∧ ((full.part 0).asReqHead - (full.part 0).asReqTail).toNat = 4096 := by
  decide +kernel

/-- The suspended block of a fault that has been served, and of one that waits longer than 50 µs. -/
def suspendedAt (res : Bool) (image : Option Word) (served wanted : Bool) (time : Nat) : State :=
  { inState (.suspended res image) (fun b => { b with wanted := wanted }) with
    faults := [{ faultReq 3 false with served := served }], time := time }

/-- With a twin, in its pair. -/
def pairSuspended : State :=
  (suspendedAt false (some 0x9000) true false 0).onBlock 0 fun b => { b with twin := some 3 }

theorem witness_SuspensionEnds :
    (∃ b ∈ pairSuspended.block? 0, b.state = .suspended false (some 0x9000) ∧ b.twin ≠ none
      ∧ (unitFaults pairSuspended b).all (·.served) = true ∧ faultUnit pairSuspended b = [b]) ∧
    let meets := fun (s : State) (st : BlockState) (w : Bool) => ∃ b ∈ s.block? 0, b.bid = 0 ∧ faultUnit s b = [b] ∧ b.state = st
      ∧ b.wanted = w ∧ (unitFaults s b).length = 1 ∧ (unitFaults s b).all (·.served) = true
    meets (suspendedAt false (some 0x9000) true false 0) (.suspended false (some 0x9000)) false
    ∧ meets (suspendedAt true none true false 0) (.suspended true none) false
    ∧ meets (suspendedAt true (some 0x9000) true false 0) (.suspended true (some 0x9000)) false
    ∧ meets (suspendedAt true none true true 0) (.suspended true none) true
    ∧ (let s := suspendedAt true (some 0x9000) false false (micros 50 + 1)
      ∃ b ∈ s.block? 0, b.bid = 0 ∧ faultUnit s b = [b] ∧ b.state = .suspended true (some 0x9000) ∧ serviceLong s b = true) := by
  decide +kernel

/-- The reset state with a shoot-down of a scope in hand, or none. -/
def shooting (done : Bool) : State := State.reset.setPart 0 { State.reset.part 0 with tinvDone := done }

theorem witness_ShootDowns :
    ((shooting false).part 0).tinvDone = false ∧ barOpen (shooting true) 0 = true ∧ (0xFFFF : Word).getLsbD 16 = false
    ∧ drained (shooting false) 0 = true
    ∧ ((shooting true).part 0).tinvDone = true
    ∧ ([0x13000, 0x10000, 0x12FFF] : List Word).all (·.getLsbD 16) = true
    ∧ (0x13000 : Word).toNat / 2 ^ 12 % 4 = 3 ∧ (0x12FFF : Word).toNat / 2 ^ 12 % 4 = 2
    ∧ inPartition (shooting true) 0 ((0x12FFF : Word).toNat % 2 ^ 12) = true
    ∧ inPartition (shooting true) 1 ((0x10000 : Word).toNat % 2 ^ 12) = false := by
  decide +kernel

/-- An assist request of a translation fault, posted at time 0. -/
def asking : Assist := { seq := 7, fn := 0, ctx := 0, args := [], ref := 5, posted := 0, limit := micros 1 }

/-- The request at the end of its time, with the response ring's head where given. -/
def assisted (head : Nat) : State :=
  let s := State.reset
  { s.setPart 0 { s.part 0 with assists := [asking], asRespHead := BitVec.ofNat 16 head } with time := asking.limit }

theorem witness_AssistAnswers :
    (barOpen (assisted 0) 0 = true ∧ ((assisted 0).part 0).asRespTail = ((assisted 0).part 0).asRespHead)
    ∧ ((assisted 1).part 0).asRespTail ≠ ((assisted 1).part 0).asRespHead ∧ Memory.wf (assisted 0).mem = true
    ∧ (((assisted 1).part 0).assists.find? fun x => x.seq == (responseAt (assisted 1) 0).1 && !x.waiting) = none
    ∧ (let s := putResponse (assisted 0) 0 7 true 0;
      ((s.part 0).assists.find? fun x => x.seq == (responseAt s 0).1 && !x.waiting) = some asking)
    ∧ (((assisted 0).part 0).assists.find? fun x => x.seq == 7) = some asking
    ∧ asking.waiting = false ∧ asking.posted + asking.limit ≤ (assisted 0).time ∧ asking.fn ≠ 3 := by
  decide +kernel

theorem witness_CommissionPlaced :
    ∃ c ∈ sliceHead (askState 0 0 1) 0 768, (placeCommission (askState 0 0 1) c).isSome = true := by
  decide +kernel

end Sys2Proof.Tests
end

