-- ==== Sys2Proof/Tests/Witness3.lean ====
section
/-! SUPPORT. Witnesses for the statements about queues, packets, contexts, code objects, the device, the fabric and the host:
small states that meet their hypotheses, clause by clause. -/

namespace Sys2Proof.Tests

open Sys2Proof.Machine

set_option maxRecDepth 100000
set_option Elab.async false

/-! ## Queues and packets -/

/-- The probe with its last queue changed. -/
def withQueue (f : Queue → Queue) : State := setQueue (probe []) 0 63 (f Queue.reset)

/-- A queue of 16 slots at 0x5000 in a state, with one packet in it. -/
def oneSlot (st : QState) (x : Queue) : Queue := { x with en := true, state := st, size := 4, base := 0x5000, tail := 1 }

/-- A slot's change of the probe's memory: what its bytes hold beside zeros. -/
def slotMem (bs : List Host.Cell) (s : State) : State :=
  { s with mem := [(0x1000, 0x01), (0x1001, 0x20), (0x2000, 0x01), (0x2001, 0x30), (0x3000, 0x1F)] ++ bs }

/-- Table entries that lead to a page at 0x40001000 that is not present. -/
def absentPage : List Host.Cell :=
  [(0x3008, 0x01), (0x300A, 0x05), (0x50000, 0x01), (0x50001, 0x10), (0x50002, 0x05), (0x51008, 0x06)]

/-- The same with the handle of its ring open. -/
def withRing (s : State) : State :=
  let r := openRing s 0 63 ((s.part 0).queue 63)
  setQueue r.1 0 63 r.2

theorem witness_QueueControls :
    (((withQueue (oneSlot .mapped)).part 0).queue 63).en = true ∧ barOpen (withQueue id) 0 = true
    ∧ ({ withQueue (oneSlot .mapped) with closing := [(0, 63)] }.closing.contains (0, 63) = true)
    ∧ (let s := withQueue id
      queueThere s 0 63 = true ∧ barOpen s 0 = true ∧ ((s.part 0).queue 63).en = false
      ∧ s.closing.contains (0, 63) = false ∧ (writeQctl s 0 ((s.part 0).queue 63) 0x2B).cls = 1
      ∧ (writeQctl s 0 ((s.part 0).queue 63) 1).cls = 0
      ∧ ((s.ctx? (writeQctl s 0 ((s.part 0).queue 63) 1).ctx).all fun c => c.state == .faulted) = false
      ∧ ((s.part 0).queues.toList.filter fun y => y.en && y.cls == 0).length < 16)
    ∧ (let s := State.reset.setPart 0 { State.reset.part 0 with
          queues := Vector.ofFn fun i => if i.val < 16 then { Queue.reset with en := true, cls := 0 } else Queue.reset }
      ((s.part 0).queue 63).en = false ∧ 16 ≤ ((s.part 0).queues.toList.filter fun y => y.en && y.cls == 0).length
      ∧ ((s.ctx? (writeQctl s 0 ((s.part 0).queue 63) 1).ctx).all fun c => c.state == .faulted) = true)
    ∧ (let s := withQueue fun x => { x with en := true, state := .unmapped, notified := true }
      let h := withQueue fun x => { x with en := true, state := .unmapped, notified := true, byHost := true }
      let asked := (postAssist h 0 1 0 (queueRef 0 63) []).1
      ((s.part 0).queue 63).byHost = false ∧ ((h.part 0).queue 63).byHost = true
      ∧ ((asked.part 0).queue 63).byHost = true ∧ askedHost asked 0 1 (queueRef 0 63) = true
      ∧ ((s.part 0).queue 63).state = .unmapped ∧ ((s.part 0).queue 63).notified = true ∧ ctxRuns s ((s.part 0).queue 63).ctx = true
      ∧ (mappedQueues s 0).length < 32
      ∧ ctxRuns h ((h.part 0).queue 63).ctx = true ∧ askedHost h 0 1 (queueRef 0 63) = false)
    ∧ (let s := withQueue fun x => { oneSlot .stopped x with cls := 0 }
      restartable s 0 63 = true ∧ ((s.part 0).queue 63).cls = 0 ∧ (mappedQueues s 0).length < 32)
    ∧ (let s := withQueue fun x => { oneSlot .stopped x with tail := 0 }
      restartable s 0 63 = true ∧ nextSlot s 0 63 = none)
    ∧ (let s := { withQueue (oneSlot .stopped) with mem := [] }
      restartable s 0 63 = true ∧ nextSlot s 0 63 = some (0x5000, none)
      ∧ (match peek s (ctxView 0 ((s.part 0).queue 63).ctx) 0x5000 64 with
        | .inl _ => false
        | .inr _ => true) = true)
    ∧ (let s := withQueue fun x => { oneSlot .stopped x with err := 3 }
      restartable s 0 63 = true ∧ ((s.part 0).queue 63).cls = 2 ∧ nextSlot s 0 63 = some (0x5000, none)
      ∧ (peek s (ctxView 0 ((s.part 0).queue 63).ctx) 0x5000 64 = .inl (List.replicate 64 0))) := by
  decide +kernel

/-- A NOP, a packet of a type that is none, and a NOP whose completion address lies outside the address space. -/
theorem witness_ParseAndDispatch :
    let s := slotMem [] (withRing (withQueue (oneSlot .mapped)))
    let t := slotMem [(0x5000, 0x0A)] (withRing (withQueue (oneSlot .mapped)))
    let u := slotMem [(0x500F, 1)] (withRing (withQueue (oneSlot .mapped)))
    let admits := fun (s : State) =>
      let h := slotCap s 0 63 none
      h.1.any fun x => capOk s x h.2 64 needR 0
    let sl := fun (bs : List Byte) => ({ part := 0, q := 63, ctx := 0, addr := 0x5000, inBuffer := false, bytes := bs } : Slot)
    (admits s = true ∧ admits (slotMem [] (withQueue (oneSlot .mapped))) = false)
    ∧ (mayParse s 0 63 = true ∧ nextSlot s 0 63 = some (0x5000, none) ∧ capRange s (sl []) needR 0x5000 64 0x5000 0xFF = .ok)
    ∧ (peek s (ctxView 0 0) 0x5000 64 = .inl (List.replicate 64 0) ∧ checkSlot s (sl (List.replicate 64 0)) = .ok)
    ∧ checkSlot t (sl (10 :: List.replicate 63 0)) = .invalid
    ∧ checkSlot u (sl (zeros 15 ++ 1 :: zeros 48)) = .cap (2 ^ 56) 8 := by
  decide +kernel

/-- A packet of queue 63 that has started. -/
def packet (typ : Nat) (body : List Word) : Packet :=
  { pid := 7, part := 0, q := 63, ctx := 0, typ := typ, flags := 0, pkid := 9, caddr := 0x6000, body := body, args := [], ext := [],
    started := true, status := 0, finished := false, parent := none, next := 0, arrival := 0, late := false, startedAt := 0,
    progress := 0 }

/-- A node without predecessors whose kernel is not loaded. -/
def node : Node :=
  { part := 0, ctx := 0, addr := 0x24000, desc := zeros 64, remaining := 0, launch := 2, pid := none, order := 0 }

theorem witness_PacketParseWaits :
    let s := slotMem absentPage (withRing (withQueue fun x => { oneSlot .mapped x with base := 0x40001000 }))
    let sl : Slot := { part := 0, q := 63, ctx := 0, addr := 0x40001000, inBuffer := false, bytes := [] }
    mayParse s 0 63 = true ∧ nextSlot s 0 63 = some (0x40001000, none)
    ∧ (match capRange s sl needR 0x40001000 64 0x40001000 0xFF with
      | .wait _ => true
      | _ => false) = true := by
  decide +kernel

theorem witness_DisabledQueue :
    queueBusy (withQueue (oneSlot .mapped)) 0 63 = false
    ∧ queueBusy { withQueue (oneSlot .mapped) with packets := [packet 0 []] } 0 63 = true := by
  decide +kernel

theorem witness_Dispatch :
    (let s := withQueue fun x => { oneSlot .mapped x with ready := some { packet 0 [] with started := false } };
      (s.part 0).state = .active ∧ (workList s 0).map (fun w => (w.q, w.launch)) = [(63, none)])
    ∧ (let s : State := { probe [] with nodes := [node] };
      ((readyNodes s 0).findSome? (placeNode s)).isSome = true) := by
  decide +kernel

theorem witness_CommittedPacket :
    openBuffer (withQueue (oneSlot .mapped)) 0 63 = none
    ∧ (openBuffer { withQueue (oneSlot .mapped) with packets := [{ packet 6 [0x5000, 2] with progress := 1 }] } 0 63).isSome = true := by
  decide +kernel

theorem witness_EventsComplete : (Instr.ptpLatch).isEvent = true ∧ (Instr.teamFormation 0 0).isEvent = true := by decide

theorem witness_StartedPacket :
    ((withQueue fun x => { oneSlot .mapped x with ready := some { packet 0 [] with started := false } }).part 0 |>.queue 63).ready
      = some { packet 0 [] with started := false } := by
  decide +kernel

def running (p : Packet) : State := { withQueue (oneSlot .mapped) with packets := [p] }

theorem witness_StartedPackets :
    actor (running (packet 0 [])) 0 63 0 = some (packet 0 [])
    ∧ (idleLaunch (running (packet 1 [0x20000, 0])) 0 63 1 = some (packet 1 [0x20000, 0])
      ∧ word (packet 1 [0x20000, 0]) 1 = 0)
    ∧ (idleLaunch (running (packet 1 [0x20000, 0x3000])) 0 63 1 = some (packet 1 [0x20000, 0x3000])
      ∧ (match canvasLoad (running (packet 1 [0x20000, 0x3000])) (ctxView 0 0) 0x3000 with
        | .inl (bs, s1) => restoreErr s1 0 0 bs == some 8
        | .inr _ => false) = true)
    ∧ (idleLaunch (running (packet 8 [0x20000, 0x40001000])) 0 63 8 = some (packet 8 [0x20000, 0x40001000])
      ∧ (match canvasLoad (running (packet 8 [0x20000, 0x40001000])) (ctxView 0 0) 0x40001000 with
        | .inl _ => false
        | .inr f => f.kind == .program 1) = true)
    ∧ (idleLaunch (running (packet 8 [0x20000, 0])) 0 63 8 = some (packet 8 [0x20000, 0])
      ∧ word (packet 8 [0x20000, 0]) 1 = 0)
    ∧ (let p := { packet 2 [0x24000, 1] with ext := zeros 64 }
      let s := running p;
      (s.packets.find? fun x => x.part == 0 && x.q == 63 && x.typ == 2 && x.started && !x.finished
        && decide (64 * x.progress < x.ext.length) && ctxRuns s x.ctx) = some p ∧ p.ext.length = 64 * (p.progress + 1)
      ∧ poolUsed (addLaunch s (blankLaunch s 0 0 (some p.pid) 0 2 1)) p.ctx < ((s.ctx? p.ctx).map (·.lcap)).getD 0)
    ∧ (let p := packet 3 [0x3000, 0x6004, 12]
      actor (running p) 0 63 3 = some p
      ∧ (copyBursts (ctxView 0 0) 0x3000 0x6004 12 (12 / burstBytes + 2) 0 (running p)).2.2 = none)
    ∧ (let p := packet 3 [0x3000, 0x40001000, 12]
      actor (running p) 0 63 3 = some p
      ∧ (copyBursts (ctxView 0 0) 0x3000 0x40001000 12 (12 / burstBytes + 2) 0 (running p)).2.2.isSome = true)
    ∧ (let p := packet 4 [0x40001000, 5, 0]
      actor (running p) 0 63 4 = some p ∧ (storeAt (running p) (ctxView 0 0) 0x40001000 8 5).isLeft = false)
    ∧ (let p := packet 4 [0x40001000, 5, 1]
      actor (running p) 0 63 4 = some p
      ∧ (atomicAt (running p) (ctxView 0 0) 0x40001000 8 fun o => some ((o + 5) % 2 ^ 64)).isLeft = false)
    ∧ (let p := packet 5 [0x40001000, 0x1F, 0]
      actor (running p) 0 63 5 = some p ∧ (loadAt (running p) (ctxView 0 0) 0x40001000 8).isLeft = false)
    ∧ (let p := packet 7 [0x40001000]
      actor (running p) 0 63 7 = some p ∧ (storeWhole (running p) (ctxView 0 0) 0x40001000 (zeros 16)).isLeft = false) := by
  decide +kernel

theorem witness_StartedSignalsAndWaits :
    (let p := packet 4 [0x6000, 5, 0];
      actor (running p) 0 63 4 = some p ∧ (word p 2).toNat % 256 = 0
      ∧ (storeAt (running p) (ctxView 0 0) 0x6000 8 5).isLeft = true)
    ∧ (let p := packet 4 [0x6000, 5, 1];
      actor (running p) 0 63 4 = some p ∧ (word p 2).toNat % 256 ≠ 0
      ∧ (atomicAt (running p) (ctxView 0 0) 0x6000 8 fun o => some ((o + 5) % 2 ^ 64)).isLeft = true)
    ∧ (let p := packet 5 [0x3000, 0x1F, 0x100000000]
      actor (running p) 0 63 5 = some p ∧ (loadAt (running p) (ctxView 0 0) 0x3000 8).isLeft = true
      ∧ waitMet p 0x1F = true ∧ waitMet p 0x5F = false ∧ waitLimit p = 1
      ∧ p.startedAt + micros 1 ≤ { running p with time := micros 1 }.time)
    ∧ (let p := packet 6 [0x5000, 1];
      ((running p).packets.find? fun x => x.part == 0 && x.q == 63 && x.typ == 6 && x.started && x.progress == 0 && !x.finished) = some p)
    ∧ (let p := packet 7 [0x6000]
      let s := running p
      actor s 0 63 7 = some p
      ∧ (storeWhole s (ctxView 0 0) 0x6000 (leBytes 6 s.ptpSec ++ leBytes 4 s.ptpNs ++ zeros 6)).isLeft = true)
    ∧ (let p := packet 9 [];
      ((running p).packets.find? fun x => x.part == 0 && x.q == 63 && x.typ == 9 && x.started && !x.finished
      && !earlierOpen (running p) x) = some p) := by
  decide +kernel

theorem witness_PacketCompletion :
    ({ packet 0 [] with flags := 2 }.flags.getLsbD 1 = true) ∧ (packet 0 []).flags.getLsbD 1 = false
    ∧ caddrOk (running (packet 0 [])) 0 0 0x6000 = true ∧ caddrOk (running (packet 0 [])) 0 0 0 = false
    ∧ caddrOk (running (packet 0 [])) 0 0 0x6004 = false ∧ caddrWait (running (packet 0 [])) 0 0 0x6000 = none
    ∧ (caddrWait (slotMem absentPage (running (packet 0 []))) 0 0 0x40001000).isSome = true := by
  decide +kernel

/-! ## Contexts and code objects -/

/-- The reset state with context 5 in a state, its record at 0x500 of a table at 0; the record's LCAP is 16 and its CFAULTN 1. -/
def withCtx (st : CtxState) : State :=
  { State.reset with
    ctxs := [{ probeCtx with id := 5, state := st }]
    mem := [(0x540, 0x10), (0x544, 0x01), (0x1000, 0x01), (0x1001, 0x20), (0x2000, 0x01), (0x2001, 0x30), (0x3000, 0x1F), (0x3001, 0x03)] }

/-- A canvas of context 5 without blocks, left by SUSPEND at 0x10000. -/
def suspendedCtx : State :=
  let s := withCtx .suspended
  { s with
    ctxs := s.ctxs.map fun c => { c with suspendCanvas := some 0x10000 }
    captured := [{ id := 9, part := 0, ctx := 5, addr := 0x10000, blocks := [] }]
    mem := s.mem.drop 2 ++ [(0x10000, 0x49), (0x10001, 0x58), (0x10002, 0x43), (0x10003, 0x56), (0x10004, 0x01), (0x10006, 0x01),
      (0x10007, 0x03), (0x10008, 0x05), (0x10010, 0x80), (0x10020, 0x80), (0x10028, 0x80)] }

/-- An engine operation of context 5 under way. -/
def busyOp : EngOp := { signalling with ctx := 5, progress := 1, result := none }

theorem witness_ContextCommands :
    ((withCtx .active).part 0).ccmdBusy = false ∧ barOpen (withCtx .active) 0 = true
    ∧ ((startCmd (withCtx .active) 0 6 5 false).part 0).ccmdBusy = true ∧ inPartition (withCtx .active) 1 5 = false
    ∧ inPartition (withCtx .active) 0 5 = true ∧ (withCtx .active).ctx? 4 = none
    ∧ ((recordOf (withCtx .active) 0 5).any recordFields = true ∧ (recordOf (withCtx .active) 0 4).any recordFields = false
      ∧ (recordOf (withCtx .active) 0 4).isSome = true)
    ∧ (∃ c ∈ (withCtx .active).ctx? 5, c.state = .active ∧ c.part = 0 ∧ hostDuty (withCtx .active) 0 2 (ctxRef 5) = false
      ∧ ∀ b ∈ (withCtx .active).blocks, b.ctx ≠ 5)
    ∧ (∃ c ∈ (withCtx .suspended).ctx? 5, c.state = .suspended ∧ (resumable? (withCtx .suspended) c).isNone = true)
    ∧ (∃ c ∈ (withCtx .faulted).ctx? 5, c.state ≠ .active ∧ c.state ≠ .suspended)
    ∧ (let s := startCmd (withCtx .active) 0 6 5 false
      ctxDrained s 5 = true ∧ (s.ctx? 5).isSome = true ∧ (recordOf s 0 5).any recordFields = true)
    ∧ ctxDrained (startCmd { withCtx .active with ops := [busyOp] } 0 6 5 false) 5 = false := by
  decide +kernel

/-- A context whose record's id 6 is free and good, for CREATE. -/
theorem witness_ContextCreated :
    let s : State := { withCtx .active with ctxs := [] }
    s.ctx? 5 = none ∧ (recordOf s 0 5).any recordFields = true := by
  decide +kernel

/-- The bytes of that canvas. -/
def canvasBytes : List Byte :=
  [0x49, 0x58, 0x43, 0x56, 0x01, 0x00, 0x01, 0x03, 0x05] ++ zeros 7 ++ 0x80 :: zeros 15 ++ 0x80 :: zeros 7 ++ 0x80 :: zeros 87

theorem canvas_read : peek suspendedCtx (ctxView 0 5) 0x10000 128 = .inl canvasBytes := by decide +kernel

theorem canvasAt_of {s : State} {v : View} {va : Nat} {bs : List Byte} (h : peek s v va 128 = .inl bs)
    (e : max 128 (field bs 16 8) = 128) : canvasAt s v va = .inl bs := by
  simp only [canvasAt, h, e]

theorem canvas_there : canvasAt suspendedCtx (ctxView 0 5) 0x10000 = .inl canvasBytes :=
  canvasAt_of canvas_read (by decide +kernel)

theorem canvas_good : restoreErr suspendedCtx 0 5 canvasBytes
    (((suspendedCtx.captured.find? fun x => x.ctx == 5 && x.addr == 0x10000).map (·.blocks)).getD []) = none := by
  decide +kernel

theorem resumable_of {s : State} {c : Ctx} {a : Word} {bs : List Byte} (h1 : c.suspendCanvas = some a)
    (h2 : canvasAt s (ctxView c.part c.id) a.toNat = .inl bs) (h3 : restoreErr s c.part c.id bs
      (((s.captured.find? fun x => x.ctx == c.id && x.addr == a).map (·.blocks)).getD []) = none) :
    resumable? s c = some (a, bs) := by
  simp [resumable?, h1, h2, h3]

/-- The context that was suspended. -/
def ctx5 : Ctx := { probeCtx with id := 5, state := .suspended, suspendCanvas := some 0x10000 }

theorem witness_ContextResumed :
    suspendedCtx.ctx? 5 = some ctx5 ∧ ctx5.state = .suspended ∧ resumable? suspendedCtx ctx5 = some (0x10000, canvasBytes)
      ∧ ((restoreAtelier (startCmd suspendedCtx 0 3 5 false) 5 canvasBytes).captured.any
        fun x => x.ctx == 5 && x.addr == 0x10000) = true :=
  ⟨by decide +kernel, rfl, resumable_of rfl canvas_there canvas_good, by decide +kernel⟩

/-- The same canvas with no block left to place. -/
theorem witness_ContextResumesAtOnce :
    let s : State := { suspendedCtx with captured := [] };
    ((restoreAtelier (startCmd s 0 3 5 false) 5 canvasBytes).captured.any fun x => x.ctx == 5 && x.addr == 0x10000) = false
    ∧ ((freeCanvas (restoreAtelier (startCmd s 0 3 5 false) 5 canvasBytes) 5 0x10000).ctx? 5).isSome = true
    ∧ peek s (ctxView 0 5) 0x10000 128 = .inl canvasBytes := by
  decide +kernel

/-- A request at host address 0x100 for the object at host address 0x1000, at base 0x8000 in context 5; the object has one page,
no tables and the given minor level. -/
def withObject (minor : Byte) : State :=
  let h := hostStart
  { withCtx .active with
    mem := (withCtx .active).mem
      ++ [(h + 0x101, 0x10), (h + 0x109, 0x20), (h + 0x110, 0x05), (h + 0x119, 0x80)]
      ++ [(h + 0x1000, 0x49), (h + 0x1001, 0x58), (h + 0x1002, 0x42), (h + 0x1003, 0x4F), (h + 0x1004, 0x01), (h + 0x1006, minor),
        (h + 0x1011, 0x10), (h + 0x1019, 0x01), (h + 0x1020, 0x80), (h + 0x1028, 0x80), (h + 0x1030, 0x80), (h + 0x1038, 0x80),
        (h + 0x1040, 0x80), (h + 0x1048, 0xC0), (h + 0x1051, 0x12)] }

/-- An instance at 0x8000 in context 5 with a number of users. -/
def loaded (refs : Nat) : Inst :=
  { iid := 1, part := 0, hash := [], base := 0x8000, image := 4096, gotBytes := 0, slots := [], ext := [], refs := refs, ctxs := [5],
    file := 0, imgOff := 0, hashOff := 0, fileSize := 0, kernels := [], globals := [], relocs := [], codePages := [], pages := [],
    unloading := [], checked := [] }

theorem witness_ObjectCommands :
    let s := withObject 1
    let q := readReq s 0x100
    let o := readObj s q.obj q.size;
    ((s.part 0).ocmdBusy = false ∧ barOpen s 0 = true ∧ ctxOpen s 0 q.ctx = true ∧ q.ok = true ∧ objShapeOk s q.obj q.size = true)
    ∧ (objEntriesOk o = true ∧ q.nslot ≤ o.slot.length ∧ byteAt o.header 6 = 1)
    ∧ (byteAt (readObj (withObject 2) 0x1000 0x2000).header 6 = 2)
    ∧ ((loaded 1).slots.length < q.nslot + 1)
    ∧ (ctxOpen s 0 (readReq s 0).ctx = false ∧ objShapeOk s 0 0 = false)
    ∧ namedInst s q = none ∧ namedInst { s with insts := [loaded 1] } q = some (loaded 1)
    ∧ namedInst { s with insts := [loaded 2] } q = some (loaded 2)
    ∧ (loaded 1).refs ≤ 1 ∧ 1 < (loaded 2).refs ∧ q.nslot ≤ (loaded 1).slots.length
    ∧ slotErr s (loaded 1) (slotValues s q (loaded 1).slots) = none := by
  decide +kernel

/-- A file of one page without tables, and a request for it at 0x8000 in context 5, whose tables reach down to that page. -/
def bareObj : ObjFile :=
  { addr := 0x1000, size := 0x2000, header := zeros 17 ++ 0x10 :: zeros 110, sect := [], sym := [], str := [], rel := [], slot := [] }

def bareReq : ObjReq := { obj := 0x1000, size := 0x2000, ctx := 5, nslot := 0, base := 0x8000, slots := 0, ok := true }

def tables : State :=
  { withCtx .active with
    mem := [(0x1000, 0x01), (0x1001, 0x20), (0x2000, 0x01), (0x2001, 0x30), (0x3000, 0x01), (0x3001, 0x40), (0x4000, 0x01),
      (0x4001, 0x50)] }

theorem witness_LoadEnds :
    let s := tables;
    (bareObj.sym = [] ∧ bareObj.rel = [] ∧ sectPages bareObj [1, 3] = [] ∧ bareObj.image = 4096)
    ∧ s.poisoned.contains (contentHash s bareObj) = false ∧ overlapPage s 5 0x8000 1 = none ∧ 0x8000 + 4096 * 1 ≤ 2 ^ 56
    ∧ ((List.range 1).all fun p => (entryOf s 5 (0x8000 + 4096 * p)).isSome) = true
    ∧ (s.insts.find? fun i => i.part == 0 && i.hash == contentHash s bareObj && i.base.toNat == 0x8000 && i.slots == []
      && i.ext == []) = none := by
  decide +kernel

/-- An instance of the same file is there already. -/
theorem witness_LoadFindsInstance :
    let i : Inst := { loaded 1 with hash := contentHash tables bareObj }
    (([i].find? fun i => i.part == 0 && i.hash == contentHash tables bareObj && i.base.toNat == 0x8000 && i.slots == []
      && i.ext == []).map (·.iid)) = some 1 := by
  simp [loaded]

theorem witness_UnloadEnds :
    let s : State := { tables with insts := [{ loaded 1 with unloading := [5] }] }
    let s := s.setPart 0 { s.part 0 with ocmdBusy := true }
    ∃ r ∈ unloading s 0, r.2 = 5 ∧ unloadReady s r.1 5 = true := by
  decide +kernel

/-! ## The device -/

/-- A partition that holds no die; a second one that wants partition 0's; a die that it gives up. -/
theorem witness_PartitionGo :
    (let s := State.reset;
      goError s 1 (withoutOut s (s.part 1).held) = 0 ∧ (withoutOut s (s.part 1).held).dies = 0)
    ∧ (let s := State.reset.setPart 0 { State.reset.part 0 with pcfg0 := 0x80400001 };
      goError s 0 (withoutOut s (s.part 0).held) = 0 ∧ (withoutOut s (s.part 0).held).dies.getLsbD 0 = true
      ∧ (withoutOut s (s.part 0).held).dies.getLsbD 7 = false ∧ (s.part 0).cfg.dies.getLsbD 7 = true)
    ∧ (let s := State.reset.setPart 1 { State.reset.part 1 with pcfg0 := 0x404001 }
      goError s 1 (withoutOut s (s.part 1).held) = 1)
    ∧ ((State.reset.part 0).state ≠ .configuring)
    ∧ ((State.reset.setPart 0 { State.reset.part 0 with state := .configuring }).part 0).state = .configuring := by
  decide +kernel

theorem witness_PartitionReset :
    7 < 8 ∧ (State.reset.part 7).state ≠ .resetting ∧ barOpen State.reset 7 = false ∧ barOpen State.reset 0 = true
    ∧ ((State.reset.setPart 0 { State.reset.part 0 with state := .resetting }).part 0).state = .resetting := by
  decide

/-- FRTAIL at FRHEAD - FRSIZE and one beyond. -/
theorem witness_InterruptRegisters :
    let p := State.reset.part 0
    barOpen State.reset 0 = true ∧ (p.frhead - BitVec.ofNat 32 (0xFFFFFFF0 : Word).toNat).toNat ≤ p.frsize
    ∧ p.frsize < (p.frhead - BitVec.ofNat 32 (0xFFFFFFEF : Word).toNat).toNat := by
  decide +kernel

theorem witness_PlainRegisters :
    (0x00C % 8 ≠ 0) ∧ barOpen State.reset 0 = true ∧ (State.reset.part 7).state = .off
    ∧ ((State.reset.setPart 0 { State.reset.part 0 with state := .resetting }).part 0).state = .resetting ∧ (queueThere (withQueue (oneSlot .mapped)) 0 63 = true
      ∧ (((withQueue (oneSlot .mapped)).part 0).queue 63).en = true)
    ∧ queueThere State.reset 0 63 = true ∧ ((State.reset.part 0).queue 63).en = false := by
  decide +kernel

theorem witness_AttestationReport :
    State.reset.attestIdx < State.reset.attestEnd
    ∧ { State.reset with attestIdx := 1048576 }.attestEnd ≤ { State.reset with attestIdx := 1048576 }.attestIdx := by
  decide

/-- An image with a key of another digest than the one the boot ROM holds. -/
def forged : Firmware := { key := [1], version := 0, hashes := [], sig := [], pages := [] }

theorem witness_BringUp :
    (State.reset.powered = true ∧ State.reset.halt = false ∧ State.reset.stage < 7 ∧ State.reset.firmware = none)
    ∧ { State.reset with stage := 5, failStage := some 6 }.failStage = some ({ State.reset with stage := 5 }.stage + 1)
    ∧ (forged.accepted (zeros 32) 0 = false ∧ State.reset.failStage ≠ some 1)
    ∧ { State.reset with stage := 1 }.failStage ≠ some 2 ∧ { State.reset with stage := 2 }.stage + 1 = 3
    ∧ { State.reset with stage := 3, failCores := [(7, 95)] }.stage + 1 = 4 ∧ { State.reset with stage := 4 }.stage + 1 = 5
    ∧ { State.reset with stage := 6 }.stage + 1 = 7 ∧ 7 ≤ { State.reset with stage := 7 }.stage
    ∧ { State.reset with halt := true }.halt = true := by
  decide +kernel

theorem witness_Power :
    State.reset.sags.find? (fun x => x.group == 3) = none ∧ State.reset.therm = false
    ∧ ({ State.reset with sags := [{ group := 3, mhz := 900, lag := 4, sub := 5 }] }.sags.find? fun (x : Sag) => x.group == 3)
      = some { group := 3, mhz := 900, lag := 4, sub := 5 }
    ∧ (let s : State := { State.reset with therm := true, time := micros 10000 }
      s.therm = true ∧ s.thermAt + micros 10000 ≤ s.time) := by
  decide +kernel

/-! ## The fabric and the host -/

/-- The reset state with link 15 changed. -/
def withLink (f : Link → Link) : State := State.reset.setLink 15 (f Link.reset)

theorem witness_LinkStates :
    ((State.reset.link 15).en = false ∧ (1 : Word).getLsbD 0 = true ∧ (1 : Word).getLsbD 1 = false)
    ∧ ((withLink fun x => { x with en := true, state := stateTraining }).link 15).state = stateTraining
    ∧ (((withLink fun x => { x with en := true, state := stateUp }).link 15).state = stateUp
      ∧ ((withLink fun x => { x with en := true, state := stateUp }).link 15).ethernet = false)
    ∧ ((2 : Word).getLsbD 0 = false ∧ (2 : Word).getLsbD 1 = true
      ∧ 4 ≤ ethernetLinks { State.reset with links := (Vector.replicate 16 { Link.reset with ethernet := true }).set 15 Link.reset })
    ∧ (∀ y ∈ State.reset.links.toList, y.en = false)
    ∧ ∃ y ∈ (withLink fun x => { x with en := true }).links.toList, y.en = true := by
  decide +kernel

theorem witness_ClockAndFrames :
    State.reset.ptpNs < 10 ^ 9 ∧ State.reset.ptpSec < 2 ^ 48
    ∧ bringsFrames ((withLink fun x => { x with ethernet := true, en := true, state := stateUp }).link 15) = true := by
  decide +kernel

/-- The probe with link 15 up in Ethernet mode, and filter 63 on it for any frame, with a ring of 128-byte slots at a base. -/
def ethernet (base : Word) : State :=
  ((probe []).setLink 15 { Link.reset with ethernet := true, en := true, state := stateUp }).setFilter 63
    { Filter.reset with en := true, link := 15, base := base }

theorem witness_IngressFrames :
    let frame : List Byte := zeros 12 ++ [0x08, 0x06] ++ zeros 46
    (((ethernet 0x6000).link 15).ethernet = true ∧ ((ethernet 0x6000).link 15).en = true
      ∧ ((ethernet 0x6000).link 15).state = stateUp ∧ isPtp frame = false)
    ∧ ((List.range 64).find? fun f => filterMatches (State.reset.filter f) 15 frame) = none
    ∧ ((List.range 64).find? fun f => filterMatches ((ethernet 0x6000).filter f) 15 frame) = some 63
    ∧ (writeSlot (ethernet 0x6000) ((ethernet 0x6000).filter 63) 15 frame).isSome = true
    ∧ (writeSlot (ethernet 0x40000000) ((ethernet 0x40000000).filter 63) 15 frame).isNone = true := by
  decide +kernel

/-- The device with its decoder set at the top of what a host could address it by. -/
def decoded : State := { probe [] with hdmBase := some (2 ^ 50) }

/-- The last byte of near DRAM, and host memory up to its end. -/
theorem witness_HostAccesses :
    Memory.wf (probe []).mem = true
    ∧ (hdmPlace decoded 0 = none ∧ hostStart - 1 + 1 ≤ hostStart ∧ hostStart < hostStart + 1)
    ∧ (let a := 8 * Config.nearBytes - 1
      hdmPlace decoded (2 ^ 50 + a) = some a ∧ partOfDie decoded (a / Config.nearBytes) = some 0
      ∧ (decoded.part 0).state ≠ .resetting ∧ a % Config.nearBytes + 1 ≤ Config.nearBytes - unbacked decoded (a / Config.nearBytes))
    ∧ (2 ^ 50 ≤ 2 ^ 50 + (8 * Config.nearBytes - 1) ∧ 2 ^ 50 + (8 * Config.nearBytes - 1) < 2 ^ 50 + 8 * Config.nearBytes)
    ∧ ((decoded.setPart 0 { decoded.part 0 with state := .resetting }).part 0).state = .resetting := by
  decide +kernel

/-- A route over link 15, which is up, and over link 0, which is down. -/
def routed : State :=
  { withLink fun x => { x with en := true, state := stateUp } with routes := [(1, 15), (2, 0)] }

theorem witness_MessagesLeave :
    (routed.routes.find? (fun x => x.1 == 1) = some (1, 15) ∧ (routed.link 15).state = stateUp ∧ (routed.link 15).ethernet = false)
    ∧ (routed.routes.find? (fun x => x.1 == 2) = some (2, 0) ∧ (routed.link 0).state ≠ stateUp)
    ∧ routed.routes.find? (fun x => x.1 == 3) = none ∧ (2 : BitVec 12) ≠ 1 := by
  decide +kernel

/-- A result cached under sender 1 and number 4. -/
def cached : State := { probe [] with results := [{ src := 1, seq := 4, old := 0, performedAt := 0 }] }

theorem witness_RemoteRequests :
    let v : View := { part := 0, ctx := 0, bid := none }
    remoteOpen (probe []) 0 1 = false ∧ remoteOpen (probe []) 0 0 = true
    ∧ (storeBytes (probe []) v 0x6000 [1, 2, 3]).2 = none ∧ (loadBytes (probe []) v 0x3000 3).isLeft = true
    ∧ (storeBytes (slotMem absentPage (probe [])) v 0x40001000 [1]).2.any (fun f => f.kind == .serviceable 1 6) = true
    ∧ (loadBytes (slotMem absentPage (probe [])) v 0x40001000 1).isLeft = false
    ∧ (fabricAtomic (slotMem absentPage (probe [])) v 0 8 0x40001000 5 0).isLeft = false
    ∧ 4096 ≤ youngResults { probe [] with
        results := List.replicate 4096 { src := 1, seq := 4, old := 0, performedAt := 0 } }
    ∧ (cached.results.any fun r => r.src == 1 && r.seq == 4) = true
    ∧ (cached.results.any fun r => r.src == 1 && r.seq == 5) = false ∧ youngResults cached < 4096
    ∧ (fabricAtomic cached v 0 8 0x6000 5 0).isLeft = true := by
  decide +kernel

/-- The probe with a collective operation outstanding: a PUT, GET or ATOMIC of 8 bytes to the other device of its group. -/
def sent (op : Byte) : State :=
  let d : List Byte := op :: zeros 5 ++ [0x01, 0xFF] ++ zeros 9 ++ [0x60] ++ zeros 14 ++ 8 :: zeros 31
  { (probe []).setPart 0 { (probe []).part 0 with fgtBase := 0x22000, fgtN := 1 } with
    mem := (probe []).mem ++ [(0x22000, 0x02)]
    ops := [{ signalling with cls := 3, kind := .coll d, progress := 1, result := none }]
    outbound := [{ op := 7, seq := 1, target := 0, body := .get 0 0 0, sends := 1, refusals := 0, firstAt := 0, lastAt := 0 }] }

/-- The block captured, its operation kept. -/
def capturedSend : State :=
  let s := sent 1
  { s with
    blocks := [], ops := []
    captured := [{ id := 9, part := 0, ctx := 0, addr := 0x9000, blocks := s.blocks.map fun b =>
      { idx := 0, launch := b.launch, node := none, commission := none, held := [], grants := [], kept := s.ops, fresh := false } }] }

theorem witness_OwnRequests :
    (∃ x ∈ outstanding (sent 0) 7, x.2.2.1.op = 0 ∧ x.2.2.1.len = 8 ∧ x.2.2.1.locAddr = 0x6000 ∧ twinned x.2.1 = false
      ∧ awaitsMore (sent 0) x.1 x.2.2.1 x.2.2.2 = false ∧ x.1.wrote = 0
      ∧ (storeBytes (sent 0) x.2.1.view 0x6000 [1, 2]).2 = none)
    ∧ (∃ x ∈ outstanding { sent 0 with outbound := (sent 0).outbound ++ (sent 0).outbound } 7,
      awaitsMore { sent 0 with outbound := (sent 0).outbound ++ (sent 0).outbound } x.1 x.2.2.1 x.2.2.2 = true)
    ∧ (∃ x ∈ outstanding (sent 1) 7, x.2.2.1.op = 1) ∧ (∃ x ∈ outstanding (sent 2) 7, x.2.2.1.op = 2)
    ∧ ((sent 0).outbound.filter fun x => x.op == 7).length = 1
    ∧ outstanding capturedSend 7 = none ∧ capturedOp capturedSend 7 = true := by
  decide +kernel

/-- A contribution of member 1 of group 0 to step 3, and the reduction it has begun, of which two members are wanted. -/
def contribution : Contribution :=
  { part := 0, group := 0, step := 3, rank := 1, key := { op := 0, sfmt := 0, dfmt := 0, q := 0, len := 4, mean := false, root := 0 },
    vals := [(5, false, false)] }

def begun : Reduction :=
  { part := 0, group := 0, step := 3, members := 2, key := contribution.key, minc := 1, qto := 10, mismatch := false,
    got := [(1, contribution.vals)], closed := false, firstAt := 0 }

theorem witness_RootReductions :
    (∃ g ∈ fabricGroup (sent 0) 0 0, 1 < g.n ∧ (sent 0).reductions = [])
    ∧ (let s : State := { sent 0 with reductions := [begun] };
      (s.reductions.find? fun x => x.isStep 0 0 3 && !x.closed) = some begun
      ∧ (begun.got.any fun x => x.1 == contribution.rank) = true)
    ∧ (let s : State := { sent 0 with reductions := [begun], time := micros 10 };
      (s.reductions.find? fun x => x.group == 0 && x.step == 3 && quorumOver s x) = some begun
      ∧ hostAssisted s begun.part 5 = false)
    ∧ (let s : State := { sent 0 with reductions := [begun], time := micros 10 }
      let h := s.setPart 0 { s.part 0 with dsplit := 32 }
      hostAssisted h begun.part 5 = true ∧ decide (begun.minc ≤ begun.got.length) = true ∧ begun.mismatch = false)
    ∧ (let s : State := { sent 0 with reductions := [{ begun with closed := true }] }
      missedStep s 0 0 3 0 = true ∧ (s.reductions.find? fun x => x.isStep 0 0 3 && !x.closed) = none)
    ∧ (begun.got.any fun x => x.1 == 0) = false := by
  decide +kernel

end Sys2Proof.Tests
end

section
/-! The illegal-instruction response at issue (02 R37, 06 R136, 10 R243): what every instruction that issues as a Use answers
where the Use is not legal for its thread. -/

namespace Sys2Proof.Proofs.ThreadState

open Sys2Proof.Machine Sys2Proof.Laws

/-! ## What is not legal for a thread -/

theorem legalFor_eq_false_of_regOk {u : Use} {h : Here} {n : Nat} (hn : n ∈ u.regs) (hr : regOk h n = false) :
    u.legalFor h = false := by
  have hall : u.regs.all (regOk h) = false := List.all_eq_false.mpr ⟨n, hn, by simp [hr]⟩
  simp [Use.legalFor, hall]

theorem legalFor_eq_false_of_legal {u : Use} {h : Here} (hl : u.legal h = false) : u.legalFor h = false := by
  simp [Use.legalFor, hl]

theorem legalFor_eq_false_of_acc {u : Use} {h : Here} (ha : h.acc = true) (hs : u.slice = false) :
    u.legalFor h = false := by
  simp [Use.legalFor, ha, hs]

theorem issue_eq_illegalAt {s : State} {u : Use} {k : Here → Out} {h : Here} (hc : current s (pfxLen u.pfx) = some h)
    (hl : u.legalFor h = false) : issue s u k = .next (illegalAt s h.b h.t) := by
  obtain ⟨hs, -⟩ := current_spec hc
  simp [issue, hc, hl, Here.illegal, hs]

/-! ## What the instructions name -/

/-- On state s the instruction i issues, naming what u says. -/
def IssuesAs (i : Instr) (s : State) (u : Use) : Prop := ∃ k, exec i s = issue s u k

/-- The response comes before anything else the instruction does (15 R418). -/
theorem IssuesAs.illegal {i : Instr} {s : State} {u : Use} {h : Here} (hi : IssuesAs i s u)
    (hc : current s (pfxLen u.pfx) = some h) (hl : u.legalFor h = false) : exec i s = .next (illegalAt s h.b h.t) := by
  obtain ⟨k, hk⟩ := hi
  exact hk.trans (issue_eq_illegalAt hc hl)

section Uses
variable (p : Option Pfx) (rd ra rb : Reg) (fea feb : Bool) (s : State)

theorem add_issuesAs : IssuesAs (.add p rd ra rb fea feb) s
    { pfx := p, srcs := [(ra, fea), (rb, feb)], dsts := dstOf p s rd, more := [rd.toNat], slice := true } := ⟨_, rfl⟩

theorem div_issuesAs : IssuesAs (.div p rd ra rb fea feb) s
    { pfx := p, srcs := [(ra, fea), (rb, feb)], dsts := dstOf p s rd, more := [rd.toNat] } := ⟨_, rfl⟩

theorem fma_issuesAs (typ : BitVec 2) : IssuesAs (.fma none rd ra rb fea feb typ) s
    { srcs := [(ra, fea), (rb, feb)], dsts := [rd] } := ⟨_, rfl⟩

theorem aadd_issuesAs (scope : BitVec 2) : IssuesAs (.aadd p rd ra rb scope) s
    { pfx := p, srcs := [(ra, false), (rb, false)], dsts := dstOf p s rd, more := [rd.toNat] } := ⟨_, rfl⟩

theorem winbase_issuesAs (n : BitVec 3) : IssuesAs (.winbase n) s
    { legal := fun h => n.toNat < 5 && 32 * n.toNat < h.b.kernel.regs } := ⟨_, rfl⟩

theorem yield_issuesAs : IssuesAs .yield s {} := ⟨_, rfl⟩

theorem swr_issuesAs (n : BitVec 5) : IssuesAs (.swr ra n fea) s
    { srcs := [(ra, fea)], legal := fun _ => srWritable n.toNat } := ⟨_, rfl⟩

end Uses

/-- An instruction that names rd, ra and rb is illegal where the thread has not all three (02 R37). -/
theorem IssuesAs.illegal_of_undeclared {i : Instr} {s : State} {u : Use} {h : Here} {rd ra rb : Reg} (hi : IssuesAs i s u)
    (hc : current s (pfxLen u.pfx) = some h)
    (hr : regOk h rd.toNat = false ∨ regOk h ra.toNat = false ∨ regOk h rb.toNat = false)
    (hn : rd.toNat ∈ u.regs ∧ ra.toNat ∈ u.regs ∧ rb.toNat ∈ u.regs) : exec i s = .next (illegalAt s h.b h.t) := by
  obtain ⟨hd, ha, hb⟩ := hn
  refine hi.illegal hc ?_
  rcases hr with hr | hr | hr
  · exact legalFor_eq_false_of_regOk hd hr
  · exact legalFor_eq_false_of_regOk ha hr
  · exact legalFor_eq_false_of_regOk hb hr

/-- Settles O12: each of the instructions issues as a Use that is not legal for the thread. -/
theorem illegalHere : Obligations.IllegalHere := by
  intro rd ra rb fea feb typ n s h hc
  refine ⟨fun hr => ⟨?_, ?_, ?_, ?_⟩, fun hn => ?_, fun hacc => ⟨?_, ?_, ?_⟩⟩
  · exact (add_issuesAs none rd ra rb fea feb s).illegal_of_undeclared hc hr (by simp [Use.regs])
  · exact (div_issuesAs none rd ra rb fea feb s).illegal_of_undeclared hc hr (by simp [Use.regs])
  · exact (fma_issuesAs rd ra rb fea feb s typ).illegal_of_undeclared hc hr (by simp [Use.regs])
  · exact (aadd_issuesAs none rd ra rb s 0).illegal_of_undeclared hc hr (by simp [Use.regs])
  · refine (winbase_issuesAs s n).illegal hc (legalFor_eq_false_of_legal ?_)
    rcases hn with hbig | hfew
    · simp [Nat.not_lt.mpr hbig]
    · simp [Nat.not_lt.mpr hfew]
  · exact (fma_issuesAs rd ra rb fea feb s typ).illegal hc (legalFor_eq_false_of_acc hacc rfl)
  · exact (yield_issuesAs s).illegal hc (legalFor_eq_false_of_acc hacc rfl)
  · exact (swr_issuesAs ra fea s 22).illegal hc (legalFor_eq_false_of_acc hacc rfl)

end Sys2Proof.Proofs.ThreadState
end

section
/-! The order of steps (log 3) and the picker (01 R17). -/

namespace Sys2Proof.Proofs.ThreadState

open Sys2Proof.Machine

/-! ## The order of steps -/

theorem step_of_run {s s' : State} {i : Instr} (h : nextAction s = .run i s') : step s = runOn i s' := by
  cases hx : exec i s' <;> simp [step, runOn, h, hx]

theorem step_of_quiet {s s' : State} (h : nextAction s = .quiet s') : step s = .next s' := by
  simp only [step, h]

section Up
variable {s : State} (hp : s.powered = true) (hh : s.halt = false) (hst : 7 ≤ s.stage)
include hp hh hst

theorem nextAction_of_inbox {e : Instr} {rest : List Instr} (hin : s.inbox = e :: rest) :
    nextAction s = .run e { s with inbox := rest } := by
  simp [nextAction, hp, hh, Nat.not_lt.mpr hst, hin]

theorem nextAction_of_dueProds (hin : s.inbox = []) (ht : s.todo ≠ []) {e : Instr} {rest : List Instr}
    (hd : dueProds s = e :: rest) : nextAction s = .run e s := by
  obtain ⟨c, cs, hcs⟩ := List.exists_cons_of_ne_nil ht
  simp [nextAction, hp, hh, Nat.not_lt.mpr hst, hin, hcs, hd]

theorem nextAction_of_firstDue (hin : s.inbox = []) (ht : s.todo = []) {e : Instr} (hf : firstDue s dueSources = some e) :
    nextAction s = .run e s := by
  simp [nextAction, hp, hh, Nat.not_lt.mpr hst, hin, ht, hf]

theorem nextAction_of_nothingDue (hin : s.inbox = []) (ht : s.todo = []) (hf : firstDue s dueSources = none) :
    nextAction s = .quiet (if s.picked then tick s else pickGroup s) := by
  simp [nextAction, hp, hh, Nat.not_lt.mpr hst, hin, ht, hf]

end Up

theorem stepOrder : Claim.StepOrder := by
  intro s hp hh hst
  refine ⟨fun e rest hin => ?_, fun hin ht e rest hd => ?_, fun hin ht => ⟨fun e hf => ?_, fun hf => ?_⟩⟩
  · exact step_of_run (nextAction_of_inbox hp hh hst hin)
  · exact step_of_run (nextAction_of_dueProds hp hh hst hin ht hd)
  · exact step_of_run (nextAction_of_firstDue hp hh hst hin ht hf)
  · exact step_of_quiet (nextAction_of_nothingDue hp hh hst hin ht hf)

/-! ## The order of ready threads -/

theorem before_eq_false_iff {x y : Ready} :
    y.before x = false ↔ x.since < y.since ∨ (x.since = y.since ∧ x.pc.toNat ≤ y.pc.toNat) := by
  simp only [Ready.before, Bool.or_eq_false_iff, decide_eq_false_iff_not, Bool.and_eq_false_imp, beq_iff_eq]
  omega

theorem before_irrefl (x : Ready) : x.before x = false :=
  before_eq_false_iff.mpr (.inr ⟨rfl, Nat.le_refl _⟩)

theorem before_eq_false_of_before {x y : Ready} (h : y.before x = true) : x.before y = false := by
  simp only [Ready.before, Bool.or_eq_true, Bool.and_eq_true, decide_eq_true_eq, beq_iff_eq] at h
  rw [before_eq_false_iff]
  omega

theorem before_eq_false_trans {x y z : Ready} (hxy : y.before x = false) (hyz : z.before y = false) :
    z.before x = false := by
  rw [before_eq_false_iff] at *
  omega

theorem oldest_eq_none_iff {l : List Ready} : oldest l = none ↔ l = [] := by
  cases l with
  | nil => simp [oldest]
  | cons x rest => cases hr : oldest rest <;> simp [oldest, hr]

/-- The oldest of a list is one of its threads, and none stands before it. -/
theorem oldest_spec : ∀ {l : List Ready} {x : Ready}, oldest l = some x → x ∈ l ∧ ∀ y ∈ l, y.before x = false
  | a :: rest, x, h => by
    cases hr : oldest rest with
    | none =>
      obtain rfl := oldest_eq_none_iff.mp hr
      obtain rfl : a = x := by simpa [oldest] using h
      exact ⟨List.mem_singleton_self a, fun y hy => by rw [List.mem_singleton.mp hy]; exact before_irrefl a⟩
    | some m =>
      obtain ⟨hm, hmin⟩ := oldest_spec hr
      cases hb : m.before a with
      | true =>
        obtain rfl : m = x := by simpa [oldest, hr, hb] using h
        exact ⟨List.mem_cons_of_mem a hm, List.forall_mem_cons.mpr ⟨before_eq_false_of_before hb, hmin⟩⟩
      | false =>
        obtain rfl : a = x := by simpa [oldest, hr, hb] using h
        exact ⟨List.mem_cons_self, List.forall_mem_cons.mpr
          ⟨before_irrefl a, fun y hy => before_eq_false_trans hb (hmin y hy)⟩⟩

theorem insertReady_perm (key : Ready → Nat) (x : Ready) : ∀ l, (insertReady key x l).Perm (x :: l)
  | [] => .refl _
  | y :: rest => by
    unfold insertReady
    split
    · exact .refl _
    · exact ((insertReady_perm key x rest).cons y).trans (.swap x y rest)

theorem sortReady_perm (key : Ready → Nat) : ∀ l, (sortReady key l).Perm l
  | [] => .refl _
  | x :: rest => (insertReady_perm key x _).trans ((sortReady_perm key rest).cons x)

/-! ## The picked group -/

/-- The ready threads that may issue with x: those at its PC, in its quadrant, of its context and slice. -/
def matesOf (s : State) (x : Ready) : List Ready := (readyThreads s).filter fun y => y.pc == x.pc && y.spot == x.spot

theorem mem_matesOf {s : State} {x y : Ready} : y ∈ matesOf s x ↔ y ∈ readyThreads s ∧ y.pc = x.pc ∧ y.spot = x.spot := by
  simp [matesOf]

theorem laneWidth_bounds (k : CoreKind) : 0 < laneWidth k ∧ laneWidth k ≤ 32 := by
  cases k <;> decide

/-- A picker of a block's core, or of no block, has between 1 and 32 lanes. -/
theorem lanes_bounds (o : Option Block) :
    0 < (o.map fun b => laneWidth b.kind).getD 32 ∧ (o.map fun b => laneWidth b.kind).getD 32 ≤ 32 := by
  cases o with
  | none => decide
  | some b => exact laneWidth_bounds b.kind

theorem pickGroup_todo_of_none {s : State} (h : readyThreads s = []) : (pickGroup s).todo = [] := by
  have hr : readyThreads { s with picked := true } = [] := h
  simp [pickGroup, hr, oldest]

/-- What the picker takes: the mates of the oldest ready thread, sorted, cut to the lanes, and sorted again. -/
theorem pickGroup_todo_of_oldest {s : State} {x : Ready} (h : oldest (readyThreads s) = some x) :
    ∃ w key key', 0 < w ∧ w ≤ 32
      ∧ (pickGroup s).todo = (sortReady key' ((sortReady key (matesOf s x)).take w)).map (·.who) := by
  have hr : oldest (readyThreads { s with picked := true }) = some x := h
  obtain ⟨hpos, hle⟩ := lanes_bounds (s.block? x.who.bid)
  simp only [pickGroup, hr]
  exact ⟨_, _, _, hpos, hle, rfl⟩

theorem length_sort_take_sort (key key' : Ready → Nat) (w : Nat) (l : List Ready) :
    (sortReady key' ((sortReady key l).take w)).length = min w l.length := by
  rw [(sortReady_perm key' _).length_eq, List.length_take, (sortReady_perm key l).length_eq]

theorem sort_take_sort_subset (key key' : Ready → Nat) (w : Nat) (l : List Ready) :
    sortReady key' ((sortReady key l).take w) ⊆ l := fun _ hy =>
  (sortReady_perm key l).subset (List.mem_of_mem_take ((sortReady_perm key' _).subset hy))

theorem pickerTakesLongestReady : Claim.PickerTakesLongestReady := by
  refine fun s => ⟨pickGroup_todo_of_none, fun hne => ?_⟩
  obtain ⟨x, hx⟩ := Option.ne_none_iff_exists'.mp (mt oldest_eq_none_iff.mp hne)
  obtain ⟨hmem, hmin⟩ := oldest_spec hx
  obtain ⟨w, key, key', hpos, hle, htodo⟩ := pickGroup_todo_of_oldest hx
  have hlen : (pickGroup s).todo.length = min w (matesOf s x).length := by
    rw [htodo, List.length_map, length_sort_take_sort]
  have hmates : 0 < (matesOf s x).length := List.length_pos_of_mem (mem_matesOf.mpr ⟨hmem, rfl, rfl⟩)
  refine ⟨x, hmem, fun y hy => before_eq_false_iff.mp (hmin y hy), List.length_pos_iff.mp (by omega), by omega, ?_⟩
  intro c hc
  obtain ⟨y, hy, rfl⟩ := List.mem_map.mp (htodo ▸ hc)
  obtain ⟨hready, hpc, hspot⟩ := mem_matesOf.mp (sort_take_sort_subset key key' w _ hy)
  exact ⟨y, hready, rfl, hpc, hspot⟩

/-- Settles O49: the branches of the schedule, and the picker's choice of the oldest thread and its mates. -/
theorem stepOrderAndPicker : Obligations.StepOrderAndPicker := ⟨stepOrder, pickerTakesLongestReady⟩

end Sys2Proof.Proofs.ThreadState
end

section
/-! The team walk of RAGLD (04 R85, R86, 09 R207): the descriptor written back, the elements and marks each member takes, and
the arrivals that complete it. -/

namespace Sys2Proof.Proofs.MemorySpaces

open Sys2Proof.Machine Sys2Proof.Laws

/-! ## Elements and marks as digits -/

/-- The number whose digit m in base 2 ^ b is d m, of n digits: how registers and mask bytes are put together. -/
def digits (b : Nat) (d : Nat → Nat) (n : Nat) : Nat := (List.range n).foldl (fun acc m => acc + d m * 2 ^ (m * b)) 0

theorem digits_succ (b : Nat) (d : Nat → Nat) (n : Nat) : digits b d (n + 1) = digits b d n + d n * 2 ^ (n * b) := by
  simp only [digits, List.range_succ, List.foldl_append, List.foldl_cons, List.foldl_nil]

theorem digits_lt {b : Nat} {d : Nat → Nat} (hd : ∀ m, d m < 2 ^ b) : ∀ n, digits b d n < 2 ^ (n * b)
  | 0 => Nat.two_pow_pos _
  | n + 1 => by
    have hlow : digits b d n < 2 ^ (n * b) := digits_lt hd n
    have htop : (d n + 1) * 2 ^ (n * b) ≤ 2 ^ b * 2 ^ (n * b) := Nat.mul_le_mul_right _ (hd n)
    rw [Nat.succ_mul] at htop
    rw [digits_succ, Nat.succ_mul n b, Nat.add_comm (n * b) b, Nat.pow_add]
    omega

theorem digits_div_mod {b : Nat} {d : Nat → Nat} (hd : ∀ m, d m < 2 ^ b) (i : Nat) : ∀ n, i < n →
    digits b d n / 2 ^ (i * b) % 2 ^ b = d i
  | n + 1, hi => by
    have hpos : 0 < 2 ^ (i * b) := Nat.two_pow_pos _
    rw [digits_succ]
    rcases Nat.lt_succ_iff_lt_or_eq.mp hi with hlt | rfl
    · obtain ⟨k, rfl⟩ : ∃ k, n = i + 1 + k := ⟨n - (i + 1), by omega⟩
      have hplace : d (i + 1 + k) * 2 ^ ((i + 1 + k) * b) = 2 ^ (i * b) * (2 ^ b * (d (i + 1 + k) * 2 ^ (k * b))) := by
        rw [Nat.add_mul, Nat.succ_mul, Nat.pow_add, Nat.pow_add]
        ac_rfl
      rw [hplace, Nat.add_mul_div_left _ _ hpos, Nat.add_mul_mod_self_left]
      exact digits_div_mod hd i _ hlt
    · rw [Nat.add_mul_div_right _ _ hpos, Nat.div_eq_of_lt (digits_lt hd i), Nat.zero_add, Nat.mod_eq_of_lt (hd i)]

theorem digits_div_of_le {b i n : Nat} {d : Nat → Nat} (hd : ∀ m, d m < 2 ^ b) (h : n ≤ i) :
    digits b d n / 2 ^ (i * b) = 0 :=
  Nat.div_eq_of_lt (Nat.lt_of_lt_of_le (digits_lt hd n) (Nat.pow_le_pow_right (by decide) (Nat.mul_le_mul_right b h)))

/-- Each element of a built register is the low bits of what its position was given. -/
theorem elem_buildElems {b i : Nat} (r : Nat → Nat) (hi : i < 64 / b) : elem (buildElems b r) i b = r i % 2 ^ b := by
  have hd : ∀ m, r m % 2 ^ b < 2 ^ b := fun m => Nat.mod_lt _ (Nat.two_pow_pos b)
  have hbound : digits b (fun m => r m % 2 ^ b) (64 / b) < 2 ^ 64 :=
    Nat.lt_of_lt_of_le (digits_lt hd _) (Nat.pow_le_pow_right (by decide) (Nat.div_mul_le_self 64 b))
  have hval : (buildElems b r).toNat = digits b (fun m => r m % 2 ^ b) (64 / b) :=
    (BitVec.toNat_ofNat _ 64).trans (Nat.mod_eq_of_lt hbound)
  rw [elem, hval, digits_div_mod hd i _ hi]

/-- The digit a mark puts at its place. -/
def markDigit (marks : List Bool) (i : Nat) : Nat := (marks.getD i false).toNat

theorem markDigit_lt {c : Nat} (marks : List Bool) (hc : 0 < c) (i : Nat) : markDigit marks i < 2 ^ c :=
  Nat.lt_of_lt_of_le (Bool.toNat_lt _) (Nat.pow_le_pow_right (n := 2) (by decide) hc)

theorem markBits_eq (b : Nat) (marks : List Bool) :
    markBits b marks = BitVec.ofNat 8 (digits (b / 8) (markDigit marks) marks.length) := by
  have hterms : (marks.mapIdx fun i m => if m then 2 ^ (i * (b / 8)) else 0)
      = (List.range marks.length).map fun i => markDigit marks i * 2 ^ (i * (b / 8)) := by
    refine List.ext_getElem (by rw [List.length_mapIdx, List.length_map, List.length_range]) fun i h₁ h₂ => ?_
    have hi : i < marks.length := by rwa [List.length_mapIdx] at h₁
    rw [List.getElem_mapIdx, List.getElem_map, List.getElem_range, markDigit, List.getD_eq_getElem?_getD,
      List.getElem?_eq_getElem hi, Option.getD_some]
    cases marks[i] with
    | false => exact (Nat.zero_mul _).symm
    | true => exact (Nat.one_mul _).symm
  rw [markBits, hterms, List.foldl_map]
  rfl

theorem testBit_boolToNat_iff (m : Bool) (j : Nat) : m.toNat.testBit j = true ↔ j = 0 ∧ m = true := by
  cases m with
  | false => simp only [Bool.toNat_false, Nat.zero_testBit, Bool.false_eq_true, and_false]
  | true => simp only [Bool.toNat_true, Nat.testBit_one_eq_true_iff_self_eq_zero, and_true]

/-- The bit q of a number, as bit q % c of its digit q / c in base 2 ^ c. -/
theorem testBit_eq_testBit_digit {c : Nat} (hc : 0 < c) (x q : Nat) :
    x.testBit q = (x / 2 ^ (q / c * c) % 2 ^ c).testBit (q % c) := by
  rw [Nat.testBit_mod_two_pow, Nat.testBit_div_two_pow, decide_eq_true (Nat.mod_lt q hc), Bool.true_and, Nat.add_comm,
    Nat.div_add_mod']

/-- A mark is the lowest bit of its element's bytes, and the other bits are zero (R86). -/
theorem getLsbD_markBits {b q : Nat} (marks : List Bool) (hb : 0 < b / 8) (hq : q < 8) :
    (markBits b marks).getLsbD q = true ↔ q % (b / 8) = 0 ∧ marks.getD (q / (b / 8)) false = true := by
  have hdigit : digits (b / 8) (markDigit marks) marks.length / 2 ^ (q / (b / 8) * (b / 8)) % 2 ^ (b / 8)
      = markDigit marks (q / (b / 8)) := by
    rcases Nat.lt_or_ge (q / (b / 8)) marks.length with hlt | hge
    · exact digits_div_mod (markDigit_lt marks hb) _ _ hlt
    · rw [digits_div_of_le (markDigit_lt marks hb) hge, Nat.zero_mod, markDigit, List.getD_eq_getElem?_getD,
        List.getElem?_eq_none hge]
      rfl
  rw [markBits_eq, BitVec.getLsbD_ofNat, decide_eq_true hq, Bool.true_and, testBit_eq_testBit_digit hb, hdigit, markDigit,
    testBit_boolToNat_iff]

/-! ## The descriptor -/

/-- The four fields of a walk written at the descriptor's place in the scratchpad (R85). -/
def writeWalk (m : Cells) (off : Nat) (w : Walk) : Cells :=
  cellsWrite (cellsWrite (cellsWrite (cellsWrite m off 8 w.data) (off + 8) 8 w.lenp) (off + 16) 4 w.off) (off + 20) 4 w.rows

theorem read_writeWalk {m : Cells} (off : Nat) (w : Walk) (h : Memory.wf m = true) :
    cellsRead (writeWalk m off w) off 8 = w.data % 2 ^ 64 ∧ cellsRead (writeWalk m off w) (off + 8) 8 = w.lenp % 2 ^ 64
    ∧ cellsRead (writeWalk m off w) (off + 16) 4 = w.off % 2 ^ 32
    ∧ cellsRead (writeWalk m off w) (off + 20) 4 = w.rows % 2 ^ 32 := by
  have h1 := wf_write 8 off w.data h
  have h2 := wf_write 8 (off + 8) w.lenp h1
  have h3 := wf_write 4 (off + 16) w.off h2
  unfold writeWalk
  refine ⟨?_, ?_, ?_, ?_⟩
  · rw [read_write_outside 8 4 (off + 20) _ _ h3 (by omega), read_write_outside 8 4 (off + 16) _ _ h2 (by omega),
      read_write_outside 8 8 (off + 8) _ _ h1 (by omega), read_write 8 off _ h, show 256 ^ 8 = 2 ^ 64 from rfl]
  · rw [read_write_outside 8 4 (off + 20) _ _ h3 (by omega), read_write_outside 8 4 (off + 16) _ _ h2 (by omega),
      read_write 8 (off + 8) _ h1, show 256 ^ 8 = 2 ^ 64 from rfl]
  · rw [read_write_outside 4 4 (off + 20) _ _ h3 (by omega), read_write 4 (off + 16) _ h2, show 256 ^ 4 = 2 ^ 32 from rfl]
  · rw [read_write 4 (off + 20) _ h3, show 256 ^ 4 = 2 ^ 32 from rfl]

theorem get_writeWalk_outside {m : Cells} {off a : Nat} (w : Walk) (h : Memory.wf m = true) (ha : a < off ∨ off + 24 ≤ a) :
    cellsGet (writeWalk m off w) a = cellsGet m a := by
  have h1 := wf_write 8 off w.data h
  have h2 := wf_write 8 (off + 8) w.lenp h1
  have h3 := wf_write 4 (off + 16) w.off h2
  unfold writeWalk
  rw [get_write_outside 4 (off + 20) _ a h3 (by omega), get_write_outside 4 (off + 16) _ a h2 (by omega),
    get_write_outside 8 (off + 8) _ a h1 (by omega), get_write_outside 8 off _ a h (by omega)]

/-! ## What a set operation's end does to a member's thread -/

theorem find?_eq_some_of_nodup_map {α : Type} {key : α → Nat} {x : α} : ∀ {l : List α}, (l.map key).Nodup → x ∈ l →
    l.find? (fun y => key y == key x) = some x
  | y :: l, hl, hx => by
    rw [List.map_cons, List.nodup_cons] at hl
    obtain ⟨hfresh, hrest⟩ := hl
    rcases List.mem_cons.mp hx with rfl | hmem
    · exact List.find?_cons_of_pos (beq_self_eq_true _)
    · have hne : ¬(key y == key x) = true := fun h => hfresh (beq_iff_eq.mp h ▸ List.mem_map_of_mem hmem)
      exact (List.find?_cons_of_neg (p := fun z => key z == key x) hne).trans (find?_eq_some_of_nodup_map hrest hmem)

/-- The thread of a member takes its result and moves on (08 R188). -/
def finishMember (m : Member) (r : SetResult) (t : Thread) : Thread :=
  let t' := t.writeX (setRd m.a.instr) r.val
  ({ t' with fpst := t'.fpst ||| r.flags }).advance (pfxLen m.a.instr.pfx)

theorem finishMember_tid (m : Member) (r : SetResult) (t : Thread) : (finishMember m r t).tid = t.tid := by
  simp only [finishMember, advance_tid, writeX_tid]

theorem finishMember_of_flags_zero {m : Member} {r : SetResult} (h : r.flags = 0) (t : Thread) :
    finishMember m r t = (t.writeX (setRd m.a.instr) r.val).advance (pfxLen m.a.instr.pfx) := by
  have hnone : ∀ fl : Flags, fl ||| 0 = fl := fun _ => BitVec.or_zero
  simp only [finishMember, h, hnone]

theorem finishMember_mem_finishSet {b : Block} {ms : List Member} {m : Member} {t : Thread} (f : Member → SetResult)
    (hf : ∀ x, (f x).tid = x.a.tid) (hms : (ms.map (·.a.tid)).Nodup) (hm : m ∈ ms) (ht : t ∈ b.threads)
    (htid : t.tid = m.a.tid) : finishMember m (f m) t ∈ (finishSet b ms (ms.map f)).threads := by
  have hmem : ms.find? (fun x => x.a.tid == t.tid) = some m := htid ▸ find?_eq_some_of_nodup_map hms hm
  have hres : (ms.map f).find? (fun r => r.tid == t.tid) = some (f m) := by
    simp only [List.find?_map, Function.comp_def, hf, hmem, Option.map_some]
  simp only [finishSet, List.mem_map]
  exact ⟨t, ht, by simp only [hmem, hres, finishMember]⟩

/-! ## The completion -/

/-- The elements and marks of a lane: n consecutive ones of the team's vector (R85). -/
def laneElems (es : List (Nat × Bool)) (n lane : Nat) : List (Nat × Bool) := (es.drop (lane * n)).take n

theorem getD_laneElems (es : List (Nat × Bool)) {n i : Nat} (lane : Nat) (d : Nat × Bool) (hi : i < n) :
    (laneElems es n lane).getD i d = es.getD (lane * n + i) d := by
  rw [laneElems, List.getD_eq_getElem?_getD, List.getElem?_take_of_lt hi, List.getElem?_drop, List.getD_eq_getElem?_getD]

/-- The result of a member of a RAGLD of elements of some bits: the values of its lane's elements. -/
def laneResult (es : List (Nat × Bool)) (bits : Nat) (m : Member) : SetResult :=
  { tid := m.a.tid, val := buildElems bits fun i => ((laneElems es (64 / bits) m.rank).getD i (0, false)).1, flags := 0 }

/-- The mask register's value of a member of a RAGLD: the marks of its lane's elements (R86). -/
def laneMarks (es : List (Nat × Bool)) (bits : Nat) (m : Member) : Byte :=
  markBits bits ((laneElems es (64 / bits) m.rank).map (·.2))

theorem elem_laneResult (es : List (Nat × Bool)) {bits i : Nat} (m : Member) (hi : i < 64 / bits) :
    elem (laneResult es bits m).val i bits = (es.getD (m.rank * (64 / bits) + i) (0, false)).1 % 2 ^ bits := by
  rw [laneResult, elem_buildElems _ hi, getD_laneElems es m.rank _ hi]

theorem getD_map_snd (l : List (Nat × Bool)) (i : Nat) : (l.map (·.2)).getD i false = (l.getD i (0, false)).2 := by
  rw [List.getD_eq_getElem?_getD, List.getD_eq_getElem?_getD, List.getElem?_map]
  cases l[i]? with
  | none => rfl
  | some x => rfl

theorem getLsbD_laneMarks (es : List (Nat × Bool)) {bits q : Nat} (m : Member) (hb : 0 < bits / 8)
    (hn : q / (bits / 8) < 64 / bits) (hq : q < 8) :
    (laneMarks es bits m).getLsbD q = true
      ↔ q % (bits / 8) = 0 ∧ (es.getD (m.rank * (64 / bits) + q / (bits / 8)) (0, false)).2 = true := by
  rw [laneMarks, getLsbD_markBits _ hb hq, getD_map_snd, getD_laneElems es m.rank _ hn]

/-- A thread with the marks of its lane, when a member has it. -/
def markThread (es : List (Nat × Bool)) (bits : Nat) (ms : List Member) (t : Thread) : Thread :=
  match ms.find? fun m => m.a.tid == t.tid with
  | some m => t.writeK (markReg m.a.instr) (laneMarks es bits m)
  | none => t

/-- The block after a RAGLD whose walk delivered es and ended in w. -/
def ragldDone (ms : List Member) (bits off : Nat) (es : List (Nat × Bool)) (w : Walk) (x : Block) : Block :=
  let y := finishSet { x with scratch := writeWalk x.scratch off w } ms (ms.map (laneResult es bits))
  { y with threads := y.threads.map (markThread es bits ms) }

theorem ragldDone_scratch (ms : List Member) (bits off : Nat) (es : List (Nat × Bool)) (w : Walk) (x : Block) :
    (ragldDone ms bits off es w x).scratch = writeWalk x.scratch off w := by
  simp only [ragldDone, finishSet]

theorem completeRagld_eq_ragldDone {s s' : State} {b : Block} {m0 : Member} {ms : List Member} {t0 : Thread} {width off : Nat}
    {es : List (Nat × Bool)} {w : Walk} (ht : b.thread? false m0.a.tid = some t0) (hal : m0.a.raVal.toNat % 8 = 0)
    (hoff : ownScratch b m0.a.raVal.toNat 24 = some off) (hun : uncommitted b = false)
    (hwalk : walkElems s b (8 * 2 ^ width / 8) (32 * (64 / (8 * 2 ^ width))) 0 false
      { data := cellsRead b.scratch off 8, lenp := cellsRead b.scratch (off + 8) 8,
        off := cellsRead b.scratch (off + 16) 4, rows := cellsRead b.scratch (off + 20) 4 } = .inl (es, w, s')) :
    completeRagld s b (m0 :: ms) width = s'.onBlock b.bid (ragldDone (m0 :: ms) (8 * 2 ^ width) off es w) := by
  simp only [completeRagld, ht, hal, ne_eq, not_true_eq_false, if_false, hoff, hun, Bool.false_and, Bool.false_eq_true, hwalk]
  rfl

theorem memberThread_mem_ragldDone {x : Block} {ms : List Member} {m : Member} {t : Thread} (bits off : Nat)
    (es : List (Nat × Bool)) (w : Walk) (hms : (ms.map (·.a.tid)).Nodup) (hm : m ∈ ms) (ht : t ∈ x.threads)
    (htid : t.tid = m.a.tid) :
    ((t.writeX (setRd m.a.instr) (laneResult es bits m).val).advance (pfxLen m.a.instr.pfx)).writeK (markReg m.a.instr)
      (laneMarks es bits m) ∈ (ragldDone ms bits off es w x).threads := by
  refine List.mem_map.mpr ⟨_, finishMember_mem_finishSet (laneResult es bits) (fun _ => rfl) hms hm ht htid, ?_⟩
  have hmem : ms.find? (fun y => y.a.tid == (finishMember m (laneResult es bits m) t).tid) = some m := by
    rw [finishMember_tid, htid]
    exact find?_eq_some_of_nodup_map hms hm
  rw [markThread, hmem, ← finishMember_of_flags_zero rfl]

/-- For elements of 8 to 64 bits the marks are at least a bit apart, and every bit of the mask byte belongs to an element of the
register. -/
theorem markStep_pos_and_div_lt : ∀ width < 4,
    0 < 8 * 2 ^ width / 8 ∧ ∀ q < 8, q / (8 * 2 ^ width / 8) < 64 / (8 * 2 ^ width) := by
  decide

/-! ## The arrivals -/

theorem trySet_of_ragld {s : State} {bid slot : Nat} {key : Option Word} {b : Block} {m0 : Member} {ms : List Member}
    {width : BitVec 2} (hb : s.block? bid = some b) (hg : gathered b slot key = some (m0 :: ms))
    (hi : ∀ m ∈ m0 :: ms, ∃ p rd ra fe, m.a.instr = .ragld p rd ra width fe) :
    trySet s bid slot key = completeRagld s b (m0 :: ms) width.toNat := by
  have hsig : ∀ m ∈ m0 :: ms, setSig m.a.instr = some (107, width.toNat) := by
    intro m hm
    obtain ⟨p, rd, ra, fe, h⟩ := hi m hm
    rw [h, setSig]
  have hagree : ((m0 :: ms).any fun m => setSig m.a.instr != (m0 :: ms).head?.bind fun x => setSig x.a.instr) = false := by
    rw [List.head?_cons, Option.bind_some, hsig m0 List.mem_cons_self]
    exact List.any_eq_false.mpr fun m hm => by simp only [hsig m hm, bne_self_eq_false, Bool.false_eq_true, not_false_eq_true]
  obtain ⟨p, rd, ra, fe, h0⟩ := hi m0 List.mem_cons_self
  obtain ⟨rank, tid, instr, k, rdVal, raVal, rbVal, mask, rm⟩ := m0
  subst h0
  simp only [trySet, hb, hg, hagree, Bool.false_eq_true, if_false]

/-- Settles O24: the completion is ragldDone, whose scratchpad is that of writeWalk and whose members' threads take their lane's
elements and marks. -/
theorem ragldCompletes : Obligations.RagldCompletes := by
  refine ⟨?_, fun s bid slot key b m0 ms width hb hg hi => trySet_of_ragld hb hg hi⟩
  intro s b m0 ms t0 width off es w s' hwidth ht hal hoff hun bits n hwalk
  obtain ⟨hbytes, hlane⟩ := markStep_pos_and_div_lt width hwidth
  refine ⟨_, completeRagld_eq_ragldDone ht hal hoff hun hwalk, fun x hx => ?_⟩
  rw [ragldDone_scratch]
  obtain ⟨hdata, hlenp, hskip, hrows⟩ := read_writeWalk off w hx
  refine ⟨hdata, hlenp, hskip, hrows, fun a ha => get_writeWalk_outside w hx ha, fun hms m hm t htx htid => ?_⟩
  exact ⟨_, memberThread_mem_ragldDone bits off es w hms hm htx htid, _, _, rfl, fun i hi => elem_laneResult es m hi,
    fun q hq => getLsbD_laneMarks es m hbytes (hlane q hq) hq⟩

end Sys2Proof.Proofs.MemorySpaces
end
